-- ==== Sys2Proof/Word.lean ====
section
/-! DEFINITION. The word types of the MZN1080-BW model and the shape of a sparse map. Nothing here computes. -/

namespace Sys2Proof

/-- One byte. -/
abbrev Byte := BitVec 8

/-- A register word: every register is 32 bits wide (R457). -/
abbrev Word := BitVec 32

/-- A run of bytes in the order in which they are sent or stored. -/
abbrev Bytes := List Byte

/-- Bits of a line in the order in which they are sent (R188). -/
abbrev Line := List Bool

/-- Sparse data by key, in one canonical form: keys strictly rising, no entry equal to the default
that an unlisted key reads as. Its operations stand in Machine/SMap.lean. -/
abbrev SMap (α : Type) := List (Nat × α)

end Sys2Proof
end

