-- ==== Sys2Proof/Syntax.lean ====
section
/-! DEFINITION. The commands and events of the MZN1080-BW: one constructor of Instr per row of
spec/opcode_table.json, in the table's order. The table gives its rows no bits and no fields, so the operands
are the model's (log 1): what the rule of the row takes from outside the block, which is what the host sends,
what a pin does, what a measurement reads, what is disturbed on a line, and when the manual gives only a bound. -/

namespace Sys2Proof

/-- The body-controller pins (R401). -/
inductive Pin where
  | lb | hb
  deriving DecidableEq, Repr, Inhabited

/-- One of the duplicated units (R19); the Bool is false for A and true for B. -/
inductive UnitRef where
  | engine (b : Bool)
  | timebase (b : Bool)
  | tileRef (t : Nat) (b : Bool)
  deriving DecidableEq, Repr, Inhabited

/-- What the loader read of one slot: 64 HEADER bytes and 672 DIRECTORY bytes (R378). -/
structure SlotHead where
  header : Bytes
  dir : Bytes
  deriving DecidableEq, Repr, Inhabited

/-- One judged pixel of a tile (R282): its tile-local index ly × 64 + lx, its cell current in nA and its emitter voltage in mV, as
the tile controller senses them. A judged pixel that a list leaves out reads the current C × Iu × F that its drive calls for, which
State gives, and at least 1.20 V. -/
structure PixSample where
  idx : Nat
  cur : Nat
  emitter : Nat
  deriving DecidableEq, Repr, Inhabited

/-- The header of a pass on one chain as disturbed on its way (R41). -/
structure HdrErr where
  tile : Nat
  chain : Nat
  flip : BitVec 20
  deriving DecidableEq, Repr, Inhabited

/-- Disturbance of one pass on its way (R37): bits flipped at data clocks 1 to 1,408, inbound and outbound, and
bits flipped in the two trailers; and whether the check of the tile's SAFE path, made with the readback that the pass
completes, fails (R320); and the headers, disturbed, of the SAFE or READ passes of START that follow this one (R41, R52). -/
structure PassErr where
  inb : List (Nat × BitVec 20)
  inTrailer : BitVec 16
  out : List (Nat × BitVec 20)
  outTrailer : BitVec 16
  pathBad : Bool := false
  hdr : List HdrErr := []
  deriving DecidableEq, Repr, Inhabited

/-- What a COMPOSE, CHAIN_DRIVE or CHAIN_AUX step works on: a schedule entry by table index, or its share of a
takeover rebuild, which runs without the table (R174): batches b0 … b0 + n − 1, tile row b0, or chain n of tile b0. -/
inductive Work where
  | entry (i : Nat)
  | rebuild (b0 n : Nat)
  deriving DecidableEq, Repr, Inhabited

/-- A back-buffer word read with an error (R106): its pixel, and whether the error is uncorrectable. -/
structure BbufErr where
  p : Nat
  bad : Bool
  deriving DecidableEq, Repr, Inhabited

/-- The ports of the layer-memory controller (R246). -/
inductive Port where
  | comp | gain | ledg | fww | scan
  deriving DecidableEq, Repr, Inhabited

/-- One request at a port (R248). FWW takes the next granule of the oldest VC1 frame waiting to be written. -/
inductive MemOp where
  | read (p : Port) (a : Nat)
  | write (p : Port) (a : Nat) (data : Bytes)
  | fww
  deriving DecidableEq, Repr, Inhabited

/-- What SECDED found in one 8-byte data word (R243). -/
inductive WordEcc where
  | good | corrected | bad
  deriving DecidableEq, Repr, Inhabited

/-- What ECC found in the four words of a granule (R243, R256, R257). -/
structure Ecc where
  w0 : WordEcc := .good
  w1 : WordEcc := .good
  w2 : WordEcc := .good
  w3 : WordEcc := .good
  deriving DecidableEq, Repr, Inhabited

/-- How the monitor of FW_REFCLK found it lost (R186): a window of 10.0 µs that measured so many kHz, or so many ns without
an edge. -/
inductive RefLoss where
  | window (khz : Nat)
  | noEdge (ns : Nat)
  deriving DecidableEq, Repr, Inhabited

/-- Why a receive lane loses lock (R192): its clock recovery reports loss; the blocks whose comma was missing at its expected position;
or the blocks received since those already counted, with their coding violations. -/
inductive LossCause where
  | clockRecovery
  | commas (blocks : List Line)
  | violations (blocks : List Line)
  deriving DecidableEq, Repr, Inhabited

/-- What the adaptation of a receive lane has reached at a block (R194): the equaliser step, the three feedback taps, and
whether it is complete. -/
structure Adapt where
  ctle : Nat
  taps : List Int
  complete : Bool
  deriving DecidableEq, Repr, Inhabited

/-- One command or event: one row of spec/opcode_table.json each. Times are in timebase cycles of 5 ns,
register data are D3…D0 and `crc` is the CRC-8 byte the host sent with them. A last operand with a default may be left out;
every rule and statement is for each value of it. -/
inductive Instr where
  | powerOn
  | resetNAsserted (lowNs : Nat := 10000)
  | startTimeZero (addr : BitVec 3) (testEn : Bool)
  | supplyFault (aon : Bool := false)
  | retentionLost (aon : Bool) (io : Bool := false)
  | keeperRegisterCheck
  | flashHeaderRead (a b : Option SlotHead) (octal : Bool) (mhz : BitVec 8)
  | flashReadRetry (slotB : Bool) (dir : Bool := false)
  | signatureVerified (sig : Bytes)
  | keyCheck
  | sectionVerified (stored : Bytes) (hdr : List HdrErr := [])
  | trimImageRestore (recs : List (Nat × Bytes)) (hdr : List HdrErr := [])
  | dramTrainingDone (pass : Bool)
  | startSelftestDone (failed : List (UnitRef × Nat))
  | tickZero (vledMv : Nat) (temps : List (BitVec 12))
  | startLeadingLight (vledMv : Nat)
  | claimFused
  | decisionPoint
  | tick (temps : List (BitVec 12))
  | limitTick (temps : List (BitVec 12))
  | noCommit
  | pwmPeriodStart (group : Nat)
  | drivePulseSample (tile : Nat) (vledMv : Nat) (cellMv : Nat) (samples : List PixSample)
  | conversion (tile c code : Nat)
  | probeWindow (tile : Nat) (samples : List PixSample)
  | checkerWindow (tile : Nat) (above : List Nat)
  | syncInSample (high : Bool)
  | syncInEdge (highCycles spacing delay offPlace : Nat)
  | syncRealign (offset : Nat := 0)
  | passApply (tile chain : Nat) (err : PassErr)
  | safeReadbackDue
  | compose (w : Work) (doneAt : Nat) (poison : List Nat) (corrected fetched : List Nat := [])
  | chainDrive (w : Work) (hdr : List HdrErr) (bb : List BbufErr)
  | chainAux (w : Work) (hdr : List HdrErr)
  | refresh (i : Nat) (doneAt : Nat) (mr40 mr41 : BitVec 3)
  | ledger (i : Nat) (doneAt : Nat) (poison : List Nat) (corrected : List Nat := [])
  | scan (i : Nat) (doneAt : Nat) (flips : List (Nat × Byte)) (poison : List Nat) (corrected : List Nat := [])
  | health (i : Nat) (doneAt : Nat) (poison : List Nat) (corrected : List Nat := [])
  | retrain (i : Nat) (doneAt : Nat) (drifted pass : Bool)
  | entryDeadline (i : Nat)
  | linkThrottle
  | refclkLoss (m : RefLoss := .noEdge 1000)
  | refclkPresent (windows : List Nat) (spread : Bool := false)
  | laneLock (lane : Nat) (recovered : Bool) (before : List Line) (block : Line)
  | laneLoss (lane : Nat) (cause : LossCause)
  | detectTimeout
  | ftsA (lane : Nat) (block : Line) (adapt : Adapt)
  | trainATimeout
  | ftsB (lane : Nat) (block : Line) (arrivals : List Nat := [0, 0, 0, 0])
  | trainBTimeout
  | backoffEnd
  | widthSet (lane : Nat) (block : Line)
  | widthAck (lane : Nat) (block : Line)
  | rewidthTimeout
  | restoreAttempt
  | restoreSet (lane : Nat) (block : Line)
  | releaseSet (lane : Nat) (block : Line)
  | idleFrame (frame : Bytes) (blocks : List (Nat × Line) := [])
  | vc0Frame (frame : Bytes)
  | vc0BufferFree
  | vc1Frame (frame : Bytes)
  | generationComplete (buf : Nat)
  | pad
  | layer (body : Bytes)
  | sectorSet (body : Bytes)
  | symbolSet (body : Bytes)
  | commit (body : Bytes)
  | mode (body : Bytes)
  | blend (body : Bytes)
  | time (body : Bytes)
  | delayedCommitEntry
  | replyFrame
  | witnessFrame (bb : List BbufErr := [])
  | helloH (frame : Bytes)
  | finishH (frame : Bytes)
  | abort (frame : Bytes)
  | handshakeTimeout
  | rekey
  | rekeyRepeat
  | keeperMessage
  | keeperTake
  | consequenceWindowClose
  | keeperParity (offset : Nat)
  | keepClockLoss
  | keepClockResume
  | clear1 (crc : Byte)
  | clear2 (crc : Byte)
  | keepHistSel (index : BitVec 4) (crc : Byte)
  | giveUp (u : UnitRef) (cause : Nat)
  | standbyParityFault (u : UnitRef)
  | selftestPass (u : UnitRef)
  | selftestFail (u : UnitRef) (test : Nat)
  | resync (u : UnitRef)
  | calPassEnd
  | trimCommit
  | diagMapData (ecc : Ecc := {})
  | memRequest (op : MemOp)
  | memTransferDone (ch : Nat) (ready : BitVec 8) (ecc : Ecc) (levels : List Nat)
  | refreshDue (ch : Nat)
  | eccWindow
  | fallbackCopyDone (poison : List Nat) (corrected : List Nat := [])
  | unlockService (key crc : Byte)
  | unlockMaker (key crc : Byte)
  | unlockVendor (crc : Byte)
  | claim (crc : Byte)
  | signStatus (crc : Byte)
  | secCommandDone
  | lockoutExpiry
  | periodicCheckpoint
  | pfwNFall
  | recordWritten (ok : Bool)
  | rollbackFuse
  | levelRequest (target : BitVec 2) (crc : Byte)
  | parkRequest (crc : Byte)
  | pendingRequestStart
  | pgoodAssert
  | pgoodTimeout
  | pgoodLost
  | clockSwitch
  | parkReached
  | wakeAddressMatch
  | wakePinEdge (pin : Pin)
  | wakeTimeout
  | resumptionBoundary
  | pinFilterChange (pin : Pin) (high : Bool)
  | registerWrite (bytes : Bytes)
  | pointerWrite (hi lo : Byte)
  | i2cBusTimeout
  | evtPendClear (m : BitVec 2) (data : Word) (crc : Byte)
  | cfgImgAddr (addr : Word) (crc : Byte)
  | cfgImgData
  | imgFetch (data : Word)
  | secCertData
  | ledgUtcHi
  | creditHold (data : Word) (crc : Byte)
  | portDelay (data : Word) (crc : Byte)
  | commitDelay (data : Word) (crc : Byte)
  | tickJitter (data : Word) (crc : Byte)
  | inject (data : Word) (crc : Byte)
  | drill (data : Word) (crc : Byte)
  | registerRead (reg : Option (BitVec 16))
  | pllLocked
  | fallingEdgeMissing
  | restoreTimeout
  | jtagInstruction (trstN : Bool := true)
      (tms : List Bool := [true, true, true, true, true, false, true, true, false, true, true])
  deriving DecidableEq, Repr

end Sys2Proof
end

