-- ==== Sys2Proof/Machine/Bits.lean ====
section
/-! DEFINITION. Bit fields, byte order, saturating counters and small list helpers that every block uses. -/

namespace Sys2Proof.Machine

/-- A register word from its fields (value, lowest bit, width); fields do not overlap. -/
def packNat : List (Nat × Nat × Nat) → Nat
  | [] => 0
  | (v, lo, w) :: fs => (v % 2 ^ w) * 2 ^ lo + packNat fs

/-- A register word from its fields. -/
def pack (fs : List (Nat × Nat × Nat)) : Word := BitVec.ofNat 32 (packNat fs)

/-- Bits [lo + w − 1 : lo] of a number. -/
def bits (n lo w : Nat) : Nat := n / 2 ^ lo % 2 ^ w

/-- Bit `i` of a number. -/
def bit (n i : Nat) : Bool := n / 2 ^ i % 2 == 1

/-- A flag as a bit. -/
def b1 (b : Bool) : Nat := if b then 1 else 0

/-- A counter that saturates at `mx` (R53, R85, R423). -/
def satAdd (mx n k : Nat) : Nat := if n + k ≤ mx then n + k else mx

/-- Count one, saturating at `mx`. -/
def satInc (mx n : Nat) : Nat := satAdd mx n 1

/-- A counter that wraps modulo 2^32 (R311). -/
def wrapAdd (n k : Nat) : Nat := (n + k) % 2 ^ 32

/-- The number a run of bytes spells, most significant byte first. -/
def beNat (bs : Bytes) : Nat := bs.foldl (fun a b => a * 256 + b.toNat) 0

/-- `n` in `len` bytes, most significant byte first. -/
def toBe : Nat → Nat → Bytes
  | 0, _ => []
  | len + 1, n => BitVec.ofNat 8 (n / 256 ^ len) :: toBe len n

/-- The number a run of bytes spells, least significant byte first. -/
def leNat : Bytes → Nat
  | [] => 0
  | b :: bs => b.toNat + 256 * leNat bs

/-- `n` in `len` bytes, least significant byte first. -/
def toLe : Nat → Nat → Bytes
  | 0, _ => []
  | len + 1, n => BitVec.ofNat 8 n :: toLe len (n / 256)

/-- Bytes [i, i + n) of a run, fewer where the run ends. -/
def slice (bs : Bytes) (i n : Nat) : Bytes := (bs.drop i).take n

/-- The 32-bit word at byte offset 4 × i of a run of bytes, most significant byte first (log 6); 0 past its end. -/
def wordAt (bs : Bytes) (i : Nat) : Nat := if 4 * i + 4 ≤ bs.length then beNat (slice bs (4 * i) 4) else 0

/-- A signed number of `w` bits. -/
def sext (w n : Nat) : Int := if n % 2 ^ w < 2 ^ (w - 1) then (n % 2 ^ w : Nat) else (n % 2 ^ w : Nat) - (2 ^ w : Nat)

/-- The low `w` bits of an integer in two's complement. -/
def lowBits (w : Nat) (i : Int) : Nat := (i % (2 ^ w : Nat)).toNat

/-- The number of 1 bits among the low `w` bits. -/
def popcount : Nat → Nat → Nat
  | 0, _ => 0
  | w + 1, n => n % 2 + popcount w (n / 2)

/-- The sum of a list. -/
def sumNat (l : List Nat) : Nat := l.foldl (· + ·) 0

/-- The largest element, 0 of none. -/
def maxNat (l : List Nat) : Nat := l.foldl Nat.max 0

/-- Insert into a list that a strict order `lt` sorts; after its equals. -/
def insertBy {α : Type} (lt : α → α → Bool) (x : α) : List α → List α
  | [] => [x]
  | y :: ys => if lt x y then x :: y :: ys else y :: insertBy lt x ys

/-- Sort by a strict order; stable. -/
def sortBy {α : Type} (lt : α → α → Bool) (l : List α) : List α := l.foldl (fun acc x => insertBy lt x acc) []

/-- The element at index `i` of a list, with a default. -/
def nth {α : Type} (dflt : α) (l : List α) (i : Nat) : α := l.getD i dflt

/-- Replace the element at index `i`; nothing happens past the end. -/
def setNth {α : Type} : List α → Nat → α → List α
  | [], _, _ => []
  | _ :: xs, 0, v => v :: xs
  | x :: xs, i + 1, v => x :: setNth xs i v

/-- Change the element at index `i`; nothing happens past the end. -/
def updNth {α : Type} : List α → Nat → (α → α) → List α
  | [], _, _ => []
  | x :: xs, 0, f => f x :: xs
  | x :: xs, i + 1, f => x :: updNth xs i f

/-- Remove the first element that `p` picks. -/
def dropFirst {α : Type} (p : α → Bool) : List α → List α
  | [] => []
  | x :: xs => if p x then xs else x :: dropFirst p xs

/-- Every byte of a run is 0. -/
def allZero (bs : Bytes) : Bool := bs.all (fun b => b == 0)

end Sys2Proof.Machine
end

