-- ==== Sys2Proof/Machine/SMap.lean ====
section
/-! DEFINITION. The operations of a sparse map in canonical form: keys strictly rising, no entry equal to the
value that an unlisted key reads as. -/

namespace Sys2Proof.Machine

variable {α β : Type}

/-- Keys strictly rising, every key at least `lo`. -/
def SMap.sorted (lo : Nat) : SMap α → Bool
  | [] => true
  | (k, _) :: m => decide (lo ≤ k) && SMap.sorted (k + 1) m

/-- The canonical form of a map whose unlisted keys read as `dflt`. -/
def SMap.wf [DecidableEq α] (dflt : α) (m : SMap α) : Bool :=
  SMap.sorted 0 m && m.all (fun e => decide (e.2 ≠ dflt))

/-- The value at key `k`. -/
def SMap.get (dflt : α) : SMap α → Nat → α
  | [], _ => dflt
  | (a, b) :: m, k => if k = a then b else SMap.get dflt m k

/-- Place an entry, whatever its value. -/
def SMap.insert (k : Nat) (v : α) : SMap α → SMap α
  | [] => [(k, v)]
  | (a, b) :: m => if k < a then (k, v) :: (a, b) :: m else if k = a then (k, v) :: m else (a, b) :: SMap.insert k v m

/-- Remove the entry at a key. -/
def SMap.erase (k : Nat) (m : SMap α) : SMap α := m.filter (fun e => decide (e.1 ≠ k))

/-- Write `v` at key `k`, keeping the canonical form. -/
def SMap.set [DecidableEq α] (dflt : α) (m : SMap α) (k : Nat) (v : α) : SMap α :=
  if v = dflt then SMap.erase k m else SMap.insert k v m

/-- Change the value at key `k`. -/
def SMap.upd [DecidableEq α] (dflt : α) (m : SMap α) (k : Nat) (f : α → α) : SMap α :=
  SMap.set dflt m k (f (SMap.get dflt m k))

/-- Change every listed value by `f`, which must leave `dflt` alone for the unlisted keys. -/
def SMap.mapAll [DecidableEq α] (dflt : α) (f : Nat → α → α) (m : SMap α) : SMap α :=
  (m.map (fun e => (e.1, f e.1 e.2))).filter (fun e => decide (e.2 ≠ dflt))

/-- Change the values of a list of keys in turn. -/
def SMap.updAll [DecidableEq α] (dflt : α) (m : SMap α) (ks : List Nat) (f : Nat → α → α) : SMap α :=
  ks.foldl (fun acc k => SMap.upd dflt acc k (f k)) m

end Sys2Proof.Machine
end

