-- ==== Sys2Proof/Config.lean ====
section
/-! DEFINITION. What the manual leaves open, as constants with no body: the cryptographic primitives the manual
names by their standards, random numbers, and the values it states no number for. No proof can see a value of
one of these. -/

namespace Sys2Proof.Config

/-- What the model reads out of an X.509 v3 certificate (R352, R360). -/
structure CertInfo where
  /-- The subject's ECDSA P-256 public key, X then Y. -/
  pub : Bytes
  /-- The serial number, right-aligned in 20 bytes. -/
  serial : Bytes
  /-- It is X.509 v3 with an ECDSA P-256 key and an ECDSA-over-SHA-256 signature. -/
  shapeOk : Bool
  /-- Its key usage includes digitalSignature. -/
  mayS : Bool
  /-- The signed part and the signature, r then s. -/
  tbs : Bytes
  sig : Bytes
  deriving DecidableEq, Repr, Inhabited

/-- SHA-256 (log 3). -/
opaque sha256 : Bytes → Bytes
/-- HMAC-SHA-256: key, message (R426). -/
opaque hmacSha256 : Bytes → Bytes → Bytes
/-- HKDF-SHA-256: input keying material, salt, info, output length (R358, R359). -/
opaque hkdf : Bytes → Bytes → Bytes → Nat → Bytes
/-- ECDSA P-256 verification: public key, digest, signature (R356). -/
opaque ecdsaVerify : Bytes → Bytes → Bytes → Bool
/-- ECDSA P-256 signature: private key, digest, random draw (R352, R370). -/
opaque ecdsaSign : Bytes → Bytes → Nat → Bytes
/-- X coordinate of an ECDH product: private key, public key (R358, R359). -/
opaque ecdhX : Bytes → Bytes → Bytes
/-- The public key of a private key (R353). -/
opaque derivePub : Bytes → Bytes
/-- A public key is a point on P-256 (R357). -/
opaque onCurve : Bytes → Bool
/-- AES-GCM sealing, key length 16 or 32: key, nonce, associated data, plaintext, giving ciphertext and
the 16-byte tag (R217, R358). -/
opaque gcmSeal : Bytes → Bytes → Bytes → Bytes → Bytes × Bytes
/-- AES-GCM opening without the tag check: key, nonce, associated data, ciphertext (R217, R358). -/
opaque gcmPlain : Bytes → Bytes → Bytes → Bytes → Bytes
/-- The X.509 reader (R360). -/
opaque certInfo : Bytes → Option CertInfo
/-- The Aziskar vendor public key, whose hash is fixed in ROM (R367). -/
opaque vendorPub : Bytes
/-- The ledger key of a unit, derived from its private key (R426). -/
opaque ledgerKey : Bytes → Bytes
/-- Random bytes: draw number, byte index (R352, R359, R368). -/
opaque randomByte : Nat → Nat → Byte
/-- A byte of layer memory that nothing has written since the restart: draw number, address (R245, log 5). -/
opaque unwrittenByte : Nat → Nat → Byte
/-- What the KEEP clock, accurate to ±10 %, counts in so many true timebase cycles, before the bound is applied
(R310, log 8). -/
opaque keepCount : Nat → Nat → Nat
/-- The preset that the MZN1080 requests of a host transmitter, by draw: the manual states no choice (R195). -/
opaque freeNat : Nat → Nat
/-- The weight of charge at a temperature in 1/16 °C while WEAR_MODEL carries no temperature points (R277, R381). -/
opaque chargeWeight : Int → Nat
/-- Current of one finger of a pixel's source, in thousandths of the nominal finger current: pixel, finger (R31). -/
opaque fingerCurrent : Nat → Nat → Nat
/-- Current of one unit cell of a tile reference, in thousandths of the nominal unit-cell current: tile, instance B, cell (R27,
R270, R330). -/
opaque unitCell : Nat → Bool → Nat → Nat
/-- A low pulse of so many ns on RESET_N, from 1.00 to 10.0 µs, restarts the unit: the manual says neither (R491). -/
opaque shortReset : Nat → Bool
/-- A signed value that the manual leaves open, by draw (R280: REF_STEP of a tile whose sum is 0). -/
opaque freeInt : Nat → Int

end Sys2Proof.Config
end

