-- ==== Sys2Proof/Machine/State.lean ====
section
/-! DEFINITION. The state of the MZN1080-BW as plain data, one structure per block, its reset, and the reasons a step
can stop. A field's docstring gives what it holds, its width, the rule that names it and its value after restart;
INVENTORY.md lists the same. A default value is the field's value after restart. Counts and indices are natural
numbers and what the manual treats as bits are bit vectors. LL fields are no fields here: they are read from the
verified sections that Cfg holds (R9). -/

namespace Sys2Proof.Machine

/-- Layer memory: (address, byte) pairs, addresses strictly rising, every listed byte written since the restart. An
unlisted address has not been written (R245). -/
abbrev Memory := List Host.Cell

/-- A pixel cell (R30). -/
structure Cell where
  /-- Active drive word; 16 bits; R30; reset 0x0000. -/
  active : BitVec 16 := 0
  /-- Shadow drive word; 16 bits; R30; reset 0x0000. -/
  shadow : BitVec 16 := 0
  /-- Active trim mask; 12 bits; R30; reset 0x3FF. -/
  trim : BitVec 12 := 0x3FF
  /-- Shadow trim mask; 12 bits; R30; reset 0x3FF. -/
  shadowTrim : BitVec 12 := 0x3FF
  /-- Safe bit; 1 bit; R30; reset 0. -/
  safe : Bool := false
  /-- Isolate bit; 1 bit; R30; reset 0. -/
  isolate : Bool := false
  /-- Status NSHORT, SHORT, OPEN, bits [2:0] of the four; R30, R35; reset 0b000. -/
  status : BitVec 3 := 0
  /-- For status bit [3], UNMEAS: the last complete period judged the pixel; R35; reset 0, so that UNMEAS is 1. -/
  judgedLast : Bool := false
  /-- The period that runs has judged the pixel; R35; reset 0. -/
  judgedNow : Bool := false
  /-- A probe has judged the pixel since the last capture; R35; reset 0. -/
  probed : Bool := false
  /-- Of the findings in its status those that a probe made, bit 0 open, bit 1 short; 2 bits; R287; reset 0. -/
  probeFound : Nat := 0
  /-- The drive word sampled at the tile's last period start; 16 bits; R48; reset 0x0000 (DEDUCED, log 4: no period has started). -/
  sampled : BitVec 16 := 0
  deriving DecidableEq, Repr, Inhabited

/-- One-time programmable storage (R354, R355, R352, R392): it outlives every restart. -/
structure Otp where
  /-- Serial number; 64 bits; R352; reset DESIGN CHOICE 0 (log 7: fuses are fixed in manufacture). -/
  serial : BitVec 64 := 0
  /-- Device certificate, DER; up to 1,024 bytes; R352, R373; reset DESIGN CHOICE empty (log 7). -/
  cert : Bytes := []
  /-- Device private key; 256 bits; R352; reset DESIGN CHOICE empty (log 7). -/
  privKey : Bytes := []
  /-- Root fuses: the SHA-256 of the lamp maker's root key; 256 bits; R354, R355; reset DESIGN CHOICE 0 (log 7: unclaimed). -/
  rootHash : Bytes := []
  /-- Root fuses: the CRC-16 of that hash; 16 bits; R354; reset DESIGN CHOICE 0 (log 7: unclaimed). -/
  rootCrc : BitVec 16 := 0
  /-- The claim fuse; 1 bit; R355; reset DESIGN CHOICE 0 (log 7: unclaimed). -/
  claimed : Bool := false
  /-- Rollback fuses burnt; 0 to 64 (7 bits); R392; reset DESIGN CHOICE 0 (log 7). -/
  rollback : Nat := 0
  deriving DecidableEq, Repr

/-- What only a restart takes back: the SAFE latch, the perturbation flag and the access level. -/
structure Latches where
  /-- The SAFE latch, KEEP_STATUS.SAFE; 1 bit; R321, R323; reset 0. -/
  safe : Bool := false
  /-- KEEP_STATUS.SAFE_CAUSE; 3 bits; R323; reset 0. -/
  safeCause : BitVec 3 := 0
  /-- SEC_PERTURB.PERTURBED; 1 bit; R371, R373; reset 0. -/
  perturbed : Bool := false
  /-- SEC_PERTURB: the level at which the first perturbation took effect; 2 bits; R371, R373; reset 0. -/
  pertLevel : BitVec 2 := 0
  /-- SEC_PERTURB: it was a JTAG instruction; 1 bit; R371, R373; reset 0. -/
  pertJtag : Bool := false
  /-- SEC_PERTURB_TICK; 32 bits; R371, R373; reset 0. -/
  pertTick : Nat := 0
  /-- The access level in force, 0 OPEN to 3 VENDOR; 2 bits; R365; reset 0. -/
  level : BitVec 2 := 0
  deriving DecidableEq, Repr

/-- A fault message (R298). -/
structure Msg where
  source : BitVec 8
  kind : BitVec 6
  sev : BitVec 2
  addr : Word
  deriving DecidableEq, Repr, Inhabited

/-- Events (R450 to R456). -/
structure Evt where
  /-- EVT_PEND0–3, bit n for event n; 128 bits; R450; reset 0. -/
  pend : BitVec 128 := 0
  /-- EVT_EN0–3, bit n for event n; 128 bits; R450, R456; reset EN0 0x0000_1F00, the others 0. -/
  en : BitVec 128 := 0x1F00
  /-- EVT_STATUS.LAST; 7 bits; R456; reset 0. -/
  last : Nat := 0
  /-- EVT_STATUS.RAISED, saturating; 16 bits; R456; reset 0. -/
  raised : Nat := 0
  deriving DecidableEq, Repr

/-- A transaction of the management port, as the I²C engine hands it on (R443, R448). -/
inductive PortOp where
  | pointer (a : BitVec 16)
  | write (a : BitVec 16) (w : Word) (crc : Byte)
  /-- A write with a format error (R445). -/
  | bad
  | read
  /-- A read of DIAG_MAP_DATA, with what ECC finds in its granule (R256, R296). -/
  | mapRead (ecc : Ecc)
  deriving DecidableEq, Repr, Inhabited

/-- The management port (R442 to R449). -/
structure Mgmt where
  /-- ADDR[2:0] as sampled; 3 bits; R442; reset DESIGN CHOICE 0 (log 9: pins, sampled at START_TIME_ZERO). -/
  addr : BitVec 3 := 0
  /-- The register pointer; 16 bits; R443; reset 0x0000. -/
  pointer : BitVec 16 := 0
  /-- EVT_PORT.CRC_PENDING; 1 bit; R447, R456; reset 0. -/
  crcPending : Bool := false
  /-- EVT_PORT.CRC_ERRORS, saturating; 8 bits; R456; reset 0. -/
  crcErrors : Nat := 0
  /-- EVT_PORT.LAST_WADDR; 16 bits; R456; reset 0. -/
  lastWAddr : BitVec 16 := 0
  /-- EVT_PORT.LAST_WSTATUS; 3 bits; R456; reset 0. -/
  lastWStatus : BitVec 3 := 0
  /-- The hold register of LEDG_UTC_LO, while no other register has been read; 32 bits; R464; reset none held. -/
  utcHold : Option Word := none
  /-- SYS_SCRATCH.DATA; 32 bits; R459; reset 0x0000_0000. -/
  scratch : Word := 0
  /-- Data of the last completed register read; 32 bits; R443, R447; reset DESIGN CHOICE 0 (log 9: nothing has been read). -/
  readData : Word := 0
  /-- STATUS byte of the last completed register read; 8 bits; R447; reset DESIGN CHOICE 0 (log 9). -/
  readStatus : BitVec 8 := 0
  /-- CRC byte of the last completed register read; 8 bits; R444; reset DESIGN CHOICE 0 (log 9). -/
  readCrc : Byte := 0
  /-- Transactions that wait, oldest first: an access of the KEEP domain for the KEEP clock, which holds SCL low, and what comes behind
  it; R448, R463 (DEDUCED, log 137); reset none. -/
  waiting : List PortOp := []
  deriving DecidableEq, Repr

/-- PWR_STATUS.STATE (R423). -/
inductive PwrState where
  | start | run | levelChange | prepare | entry | park | wake
  deriving DecidableEq, Repr, Inhabited

/-- Where a level change stands (R411). -/
inductive ChangeStep where
  | upPgood | upSwitch | downSwitch | downPgood | downRestore
  deriving DecidableEq, Repr, Inhabited

/-- A level change that runs (R411). -/
structure Change where
  target : BitVec 2
  old : BitVec 2
  step : ChangeStep
  /-- The clock is switched; the level is in force from the next tick. -/
  switched : Bool
  deriving DecidableEq, Repr, Inhabited

/-- Power control (R408 to R425). -/
structure Pwr where
  /-- PWR_STATUS.LEVEL; 2 bits; R423; reset 3. -/
  level : BitVec 2 := 3
  /-- PWR_STATUS.STATE; 3 bits; R423; reset START. -/
  state : PwrState := .start
  /-- VSEL[2:0]; 3 bits; R408, R423; reset 0b011. -/
  vsel : BitVec 3 := 3
  /-- The level of PGOOD_CORE; 1 bit; R409, R423; reset 0. -/
  pgood : Bool := false
  /-- Cycle of the last change of VSEL, after which PGOOD_CORE is ignored for 20.0 µs; R409; reset none. -/
  vselAt : Option Nat := none
  /-- PWR_REQ.TARGET; 3 bits; R423; reset 0. -/
  target : BitVec 3 := 0
  /-- The pending slot: the target that waits; 3 bits; R414; reset empty. -/
  pend : Option (BitVec 3) := none
  /-- The level change that runs; R411; reset none. -/
  change : Option Change := none
  /-- PWR_COUNT.PARKS, saturating; 16 bits; R423; reset 0. -/
  parks : Nat := 0
  /-- PWR_COUNT.SUPERSEDED, saturating; 16 bits; R423; reset 0. -/
  superseded : Nat := 0
  /-- PWR_REFUSE0 and PWR_REFUSE1 counters, refuser codes 1 to 7 in order, saturating; 7 × 8 bits; R413, R423; reset 0. -/
  refused : List Nat := [0, 0, 0, 0, 0, 0, 0]
  /-- PWR_REFUSE1.LAST; 3 bits; R423; reset 0. -/
  lastRefuser : Nat := 0
  /-- PWR_REFUSE1.LAST_TARGET; 3 bits; R423; reset 0. -/
  lastTarget : BitVec 3 := 0
  /-- PWR_WAKE.SOURCE; 2 bits; R423; reset 0. -/
  wakeSource : Nat := 0
  /-- PWR_WAKE.WAKE_TIME in units of 10 µs; 16 bits; R423; reset 0. -/
  wakeTime : Nat := 0
  /-- Cycle of the wake event; R419; reset DESIGN CHOICE 0 (log 9: no wake has begun). -/
  wakeAt : Nat := 0
  /-- A wake source held during entry, coded as PWR_WAKE.SOURCE; 2 bits; R416; reset none. -/
  heldWake : Nat := 0
  /-- The wake has reached its resumption boundary's clocks: they run and the clamps are released; 1 bit; R417, R419; reset 0. -/
  wakeClocks : Bool := false
  /-- PWR_DOMOFF.COUNT, saturating; 16 bits; R423; reset 0. -/
  domoffCount : Nat := 0
  /-- PWR_DOMOFF.LAST_ADDR; 16 bits; R423; reset 0. -/
  domoffAddr : BitVec 16 := 0
  /-- PWR_TRANS.CHANGES, saturating; 16 bits; R423; reset 0. -/
  changes : Nat := 0
  /-- PWR_TRANS.TIMEOUTS, saturating; 8 bits; R423; reset 0. -/
  timeouts : Nat := 0
  /-- PWR_TRANS.PGOOD_LOSSES, saturating; 8 bits; R423; reset 0. -/
  pgoodLosses : Nat := 0
  /-- PWR_RESET.CAUSE; 3 bits; R423, R461; reset 0 at power-on, kept through every other restart. -/
  cause : BitVec 3 := 0
  /-- PWR_PARK_TICK; 32 bits; R423; reset 0. -/
  parkTick : Nat := 0
  /-- The checkpoint of PREPARE has been written; 1 bit; R416; reset 0. -/
  parkWritten : Bool := false
  /-- The clocks of START have locked; 1 bit; R397, R421; reset 0. -/
  locked : Bool := false
  /-- The KEEP oscillator runs since START_TIME_ZERO; 1 bit; R397, R421; reset 0. -/
  keepOn : Bool := false
  /-- The supplies are good and the restart has left time 0 behind; 1 bit; R397; reset 0. -/
  started : Bool := false
  /-- A supply that PARK requires fell out of range: the wake that follows is a restart; 1 bit; R482; reset 0. -/
  retentionLost : Bool := false
  /-- Cycle at which the clocks stopped for PARK, the model's own field; R310, R436; reset DESIGN CHOICE 0 (log 9: not parked). -/
  parkAt : Nat := 0
  /-- The AON latches of the SYS_STATUS copies, as they stand while the domain of a source is off; 32 bits; R459, R460; reset FAULT 1,
  every other 0. -/
  sysHeld : Nat := 0x200
  /-- Cycle of the last clamp release, in which an access of a domain that it brings up is judged as off; R417, R422; reset none. -/
  clampAt : Option Nat := none
  /-- VDD_IO has fallen in PARK and is absent until the restart that the wake is; 1 bit; R408, R482, R483; reset 0. -/
  ioLost : Bool := false
  /-- VDD_AON has fallen in PARK and is absent until it returns, at POWER_ON; 1 bit; R482, R483; reset 0. -/
  aonLost : Bool := false
  /-- RESET_N is low; 1 bit; R377, R397, R491; reset 0 (DESIGN CHOICE, log 111: the pin is taken high at power-on). -/
  resetLow : Bool := false
  deriving DecidableEq, Repr

/-- A consequence window that is open: whose messages it covers (R316). -/
inductive Window where
  /-- ISOLATE_PIXEL or TIE_PAIR: the pixels and their 4-neighbours; HEADROOM_LOW of the tiles. -/
  | pixels (ps tiles : List Nat)
  /-- TILE_DARK, or GIVE_UP of a tile reference: the tile, SLOT_MISS and FRAME_REPEAT. -/
  | tile (t : Nat)
  | timebase
  | engine
  /-- DIP and STANDALONE. -/
  | beam
  /-- SAFE. -/
  | all
  deriving DecidableEq, Repr, Inhabited

/-- An entry of the history queue (R310). -/
structure Hist where
  msg : Msg
  sev : BitVec 2
  conseq : Bool
  hardwired : Bool
  defaulted : Bool
  preTick : Bool
  seq : BitVec 16
  tick : Nat
  us : Nat
  deriving DecidableEq, Repr, Inhabited

/-- The Keeper (R298 to R325). -/
structure Keep where
  /-- Messages sent and not yet in their FIFO, oldest first; 48 bits each; R300; reset empty. -/
  transit : List Msg := []
  /-- The input FIFOs, all sources in one list in order of arrival, at most four a source; 48 bits each; R300; reset empty. -/
  fifos : List Msg := []
  /-- The direct path of the lamp changer and the Keeper's own checks; 48 bits each; R300; reset empty. -/
  direct : List Msg := []
  /-- Consequence windows open, oldest first; R316; reset none. -/
  windows : List Window := []
  /-- The history queue, newest first, at most 16; R310; reset empty. -/
  hist : List Hist := []
  /-- KEEP_HIST_SEL.INDEX; 4 bits; R323; reset 0. -/
  histSel : Nat := 0
  /-- KEEP_HIST0–3 as copied at the last selector write; 4 × 32 bits; R323; reset 0 (no entry). -/
  histView : Option Hist := none
  /-- The queue has overwritten an entry since the last selector write; 1 bit; R325; reset 0. -/
  wrapped : Bool := false
  /-- KEEP_RECEIVED, wrapping; 32 bits; R323; reset 0. -/
  received : Nat := 0
  /-- KEEP_OVERWRITTEN, wrapping; 32 bits; R323; reset 0. -/
  overwritten : Nat := 0
  /-- KEEP_COUNT.DROPPED, saturating; 8 bits; R323; reset 0. -/
  dropped : Nat := 0
  /-- KEEP_COUNT.CONSEQUENTIAL, saturating; 16 bits; R323; reset 0. -/
  conseq : Nat := 0
  /-- KEEP_SEVCNT NOTE, DEGRADE, FAILOVER, SAFE, saturating; 4 × 8 bits; R323; reset 0. -/
  sevCnt : List Nat := [0, 0, 0, 0]
  /-- KEEP_FIRST with its address, tick and time; R312, R323; reset none. -/
  first : Option Hist := none
  /-- KEEP_STATUS.UNCLEARED1; 1 bit; R314, R323; reset 0. -/
  unc1 : Bool := false
  /-- KEEP_STATUS.UNCLEARED2; 1 bit; R314, R323; reset 0. -/
  unc2 : Bool := false
  /-- A severity-3 fault is uncleared; 1 bit; R313, R314; reset 0. -/
  unc3 : Bool := false
  /-- DIP holds, bit n for severity n; 4 bits; R306, R314; reset 0. -/
  dip : BitVec 4 := 0
  /-- STANDALONE holds, bit n for severity n; 4 bits; R306, R314; reset 0. -/
  standalone : BitVec 4 := 0
  /-- FAULT_N is still held low, the Keeper's register check of the restart being outstanding; 1 bit; R313; reset 1. -/
  unchecked : Bool := true
  /-- KEEPER_TABLE of the slot in force is verified and in use; 1 bit; R323; reset 0. -/
  tableLoaded : Bool := false
  /-- With `tableLoaded` KEEP_STATUS.TABLE_LOADED: that of an abandoned slot was; 1 bit; R7, R323; reset 0. -/
  tableShown : Bool := false
  /-- The KEEP clock has failed; 1 bit; R318; reset 0. -/
  clockLost : Bool := false
  /-- The last tick the KEEP domain has seen; 32 bits; R310; reset 0. -/
  tick : Nat := 0
  /-- Cycle of that tick, or of time 0 of the start sequence before tick 0; R310; reset 0. -/
  tickAt : Nat := 0
  /-- Cycle at which the KEEP clock failed, the model's own field; R310, R318; reset DESIGN CHOICE 0 (log 9: it has not failed). -/
  lostAt : Nat := 0
  /-- Cycles for which the KEEP clock has stood still since that tick, the model's own field; R310, R318; reset 0. -/
  stood : Nat := 0
  /-- Tick 0 has fallen; 1 bit; R310; reset 0. -/
  ticked : Bool := false
  /-- Draws of Config.keepCount used; a count, the model's own field; R310; reset DESIGN CHOICE 0 (log 8, 19). -/
  draws : Nat := 0
  deriving DecidableEq, Repr

/-- A tile controller (R26, R45, R53). -/
structure Tile where
  /-- TILE_STATUS.DARK; 1 bit; R53; reset 0. -/
  dark : Bool := false
  /-- TILE_STATUS.REF_SEL, true for B; 1 bit; R53; reset 0. -/
  refSel : Bool := false
  /-- TILE_STATUS.SAFE_VERIFIED; 1 bit; R53; reset 0. -/
  safeVerified : Bool := false
  /-- The last conclusive readback mismatched; 1 bit; R54; reset 0. -/
  safeFailed : Bool := false
  /-- DRIVE flags, bit k for chain k; 4 bits; R45; reset 0 (DEDUCED, log 4). -/
  drive : BitVec 4 := 0
  /-- TRIM flags, bit k for chain k; 4 bits; R45; reset 0 (DEDUCED, log 4). -/
  trim : BitVec 4 := 0
  /-- TILE_STATUS.REPEATED; 1 bit; R46, R53; reset 0. -/
  repeated : Bool := false
  /-- TILE_STATUS.AGGREGATED; 1 bit; R53, R293; reset 0. -/
  aggregated : Bool := false
  /-- TILE_REFCELLS.REF_A_CELLS; 16 bits; R53; reset 0x0FFF. -/
  cellsA : BitVec 16 := 0x0FFF
  /-- TILE_REFCELLS.REF_B_CELLS; 16 bits; R53; reset 0x0FFF. -/
  cellsB : BitVec 16 := 0x0FFF
  /-- TILE_SENSE.CODE; 16 bits; R53; reset 0x0000. -/
  senseCode : Nat := 0
  /-- TILE_SENSE.PIXEL; 13 bits; R53; reset 0. -/
  sensePixel : Nat := 0
  /-- TILE_SENSE.VALID; 1 bit; R53; reset 0. -/
  senseValid : Bool := false
  /-- TILE_CHAIN_ERR.HDR_REFUSED, saturating; 8 bits; R53; reset 0. -/
  hdrRefused : Nat := 0
  /-- TILE_CHAIN_ERR.CRC_FAIL, saturating; 8 bits; R53; reset 0. -/
  crcFail : Nat := 0
  /-- TILE_CHAIN_ERR.RETURN_FAIL, saturating; 8 bits; R53; reset 0. -/
  returnFail : Nat := 0
  /-- TILE_CHAIN_ERR.CUT, saturating; 8 bits; R53; reset 0. -/
  cut : Nat := 0
  /-- TILE_SAFE_CRC.READBACK; 16 bits; R53; reset 0x0000. -/
  readback : Nat := 0
  /-- The tile is in the exclusion mask of the leading-light control; 1 bit; R319; reset 0. -/
  excluded : Bool := false
  /-- The lowest cell sample below 180 mV of the lamp frame; mV; R83; reset none. -/
  lowMv : Option Nat := none
  /-- The safe bits the READ passes of the readback that runs have returned, by chain; 4 × 1,408 bits; R51; reset none. -/
  reads : List (Option (List Bool)) := [none, none, none, none]
  /-- Start verifications of the safe mask failed, 0 to 2; R52; reset 0. -/
  startFails : Nat := 0
  /-- READ passes the readback round still owes, bit k for chain k; 4 bits; R52, R162; reset 0. -/
  readDue : BitVec 4 := 0
  /-- ISOLATE passes pending, bit k for chain k; 4 bits; R162, R291; reset 0. -/
  isoDue : BitVec 4 := 0
  /-- TRIM passes pending, bit k for chain k; 4 bits; R162, R273; reset 0. -/
  trimDue : BitVec 4 := 0
  deriving DecidableEq, Repr, Inhabited

/-- Why a chain pass runs. -/
inductive Purpose where
  | drive | trim | isolate | safe | readback
  deriving DecidableEq, Repr, Inhabited

/-- A chain pass under way (R37): what the controller received as header, what was sent, what the cells captured. -/
structure Pass where
  tile : Nat
  chain : Nat
  purpose : Purpose
  /-- Header as sent and as received; 20 bits (R38). -/
  sent : BitVec 20
  header : BitVec 20
  /-- Inbound payloads by position 0 to 1,407 (R36). -/
  data : List (BitVec 16)
  /-- Captured elements by position, status in [19:16] (R39). -/
  captured : List (BitVec 20)
  /-- Checker phases that ran between the previous capture on the chain and this one (R288). -/
  phases : List Nat
  /-- Of the captured findings those that a probe made, by pixel (R287). -/
  probes : SMap Nat
  /-- A READ whose readback has been begun anew by another chain's failure: it gives no verdict (R51). -/
  void : Bool := false
  deriving DecidableEq, Repr, Inhabited

/-- The array sequencer, thermal monitor and headroom measurement (R54, R76 to R85, R324). -/
structure Arr where
  /-- Passes that run, one a chain at most; R44; reset none. -/
  passes : List Pass := []
  /-- Sensor readings 0 to 47; 48 × 12 bits; R29, R53; reset 0x000. -/
  temps : List (BitVec 12) := []
  /-- ARR_CHAIN_STAT.REPEATED_TILES; 8 bits; R54; reset 0. -/
  repeatedTiles : Nat := 0
  /-- ARR_CHAIN_STAT.PASS_FAIL, saturating; 16 bits; R54; reset 0. -/
  passFail : Nat := 0
  /-- The start-up verification of the slot in force is complete; 1 bit; R52, R54; reset 0. -/
  startDone : Bool := false
  /-- With `startDone` ARR_SAFE_CHECK.START_DONE: that of an abandoned slot was; 1 bit; R7, R54; reset 0. -/
  startShown : Bool := false
  /-- A round of safe-mask readbacks is due or runs; 1 bit; R52, R54; reset 0. -/
  roundOn : Bool := false
  /-- Lamp frames until the next round falls due, ARR_SAFE_CHECK.FRAMES_LEFT; 11 bits; R52, R54; reset 0. -/
  framesLeft : Nat := 0
  /-- Lamp frames that have begun since the one in which the last READ of a readback ran, from which the next round is counted, the
  model's own field; R52; reset DESIGN CHOICE 0 (log 9: no READ has run). -/
  sinceRead : Nat := 0
  /-- ARR_CEILING.EFFECTIVE_MA; 16 bits; R85; reset 0. -/
  effectiveMa : Nat := 0
  /-- ARR_DEMAND.DEMAND_MA; 16 bits; R85; reset 0. -/
  demandMa : Nat := 0
  /-- ARR_DEMAND.DELIVERED_MA; 16 bits; R85; reset 0. -/
  deliveredMa : Nat := 0
  /-- ARR_LIMIT.GLOBAL_G; 13 bits; R85; reset 0x1000. -/
  globalG : Nat := 4096
  /-- ARR_LIMIT.CLAMPED_TILES; 8 bits; R85; reset 0. -/
  clampedTiles : Nat := 0
  /-- ARR_LIMIT_CNT.OVER_FRAMES, saturating; 16 bits; R85; reset 0. -/
  overFrames : Nat := 0
  /-- ARR_LIMIT_CNT.CLAMP_FRAMES, saturating; 16 bits; R85; reset 0. -/
  clampFrames : Nat := 0
  /-- ARR_FOLDBACK.FACTOR; 13 bits; R78, R85; reset 0x1000. -/
  factor : Nat := 4096
  /-- ARR_FOLDBACK.OVERTEMP; 1 bit; R80, R85; reset 0. -/
  overtemp : Bool := false
  /-- ARR_FOLDBACK.HOT_SENSOR; 6 bits; R85; reset 0. -/
  hotSensor : Nat := 0
  /-- ARR_TEMP_MAX.TMAX; 12 bits; R85; reset 0x000. -/
  tmax : BitVec 12 := 0
  /-- ARR_VLED.VLED_MEAS; 13 bits; R85; reset 0. -/
  vledMeas : Nat := 0
  /-- ARR_VLED.VLED_REQ; 13 bits; R85; reset 0. -/
  vledReq : Nat := 0
  /-- ARR_VLED.VALID; 1 bit; R85; reset 0. -/
  vledValid : Bool := false
  /-- ARR_HEADROOM.CELL_MIN; 10 bits; R85; reset 0. -/
  cellMin : Nat := 0
  /-- ARR_HEADROOM.WORST_TILE; 8 bits; R85; reset 0. -/
  worstTile : Nat := 0
  /-- ARR_HEADROOM.LOW; 1 bit; R85; reset 0. -/
  low : Bool := false
  /-- The sample of the lamp frame so far that R82 takes: cell mV, tile, VLED mV; R82; reset none. -/
  sample : Option (Nat × Nat × Nat) := none
  deriving DecidableEq, Repr

/-- A layer slot of the beam engines (R107); descriptors are eight words (R108), shared by both engines (R12). -/
structure Slot where
  /-- Current descriptor; 8 × 32 bits; R107, R134; reset 0 (LL, R9: disabled). -/
  cur : List Nat := [0, 0, 0, 0, 0, 0, 0, 0]
  /-- Staged descriptor; 8 × 32 bits; R109, R134; reset none. -/
  staged : Option (List Nat) := none
  /-- The stale run, saturating; 8 bits; R128; reset 0. -/
  staleRun : Nat := 0
  /-- The total count that rises with it, saturating; 8 bits; R128; reset 0. -/
  staleTotal : Nat := 0
  /-- ENG_SLOTn.STALE_RUN: the run as of the last completed composition; 8 bits; R127, R134; reset 0. -/
  shownRun : Nat := 0
  /-- ENG_SLOTn.STALE_TOTAL, likewise; 8 bits; R127, R134; reset 0. -/
  shownTotal : Nat := 0
  deriving DecidableEq, Repr, Inhabited

/-- A sector set that passed its checks: boxes of four words (R138). -/
structure SectSet where
  boxes : List (List Nat)
  deriving DecidableEq, Repr, Inhabited

/-- A symbol set that passed its checks: instances of 14 words (R150). -/
structure SymSet where
  insts : List (List Nat)
  deriving DecidableEq, Repr, Inhabited

/-- A commit in the pending table (R92, R227). -/
structure Commit where
  /-- Tick it targets now; 32 bits. -/
  target : Nat
  /-- Named slots with WGEN and ANY (R227). -/
  deps : List (Nat × Nat × Bool)
  /-- The staged sector set it took (R136). -/
  sect : Option SectSet
  /-- The staged symbol set it took (R150). -/
  sym : Option SymSet
  /-- The staged blend order it took: none FIXED, some k a program (R110). -/
  blend : Option (Option Nat)
  /-- Cycle of its acceptance (R92). -/
  at_ : Nat
  /-- The target as sent; 32 bits (R237). -/
  sent : Nat
  deriving DecidableEq, Repr, Inhabited

/-- A pending MODE command (R94). -/
structure ModeCmd where
  target : Nat
  /-- The target as sent; 32 bits (R237). -/
  sent : Nat
  mode : Nat
  at_ : Nat
  deriving DecidableEq, Repr, Inhabited

/-- A commit or MODE command held back by COMMIT_DELAY (R469). -/
structure Delayed where
  isMode : Bool
  commit : Commit
  mode : Nat
  /-- Cycle at which it enters the pending table. -/
  due : Nat
  deriving DecidableEq, Repr, Inhabited

/-- What is composed from a tick (R90, R93, R205, R306, R400). -/
inductive Content where
  | none | host | carryOver | standalone
  deriving DecidableEq, Repr, Inhabited

/-- Why the next boundary is a tick, as decided (R88, R90, R101). -/
inductive Decision where
  | none | tick | limit
  deriving DecidableEq, Repr, Inhabited

/-- Frame timing (R86 to R104) and the schedule monitor (R172 to R182). -/
structure Frm where
  /-- FRM_TICK, wrapping; 32 bits; R103; reset 0. -/
  tick : Nat := 0
  /-- Tick 0 has fallen; 1 bit; R400; reset 0. -/
  ticked : Bool := false
  /-- Cycle of the last tick, moved on by the time parked; R87, R420; reset DESIGN CHOICE 0 (log 9: no tick has fallen). -/
  tickAt : Nat := 0
  /-- FRM_FRAME.PERIOD; 5 bits; R103; reset 0. -/
  period : Nat := 0
  /-- The frame was begun again at a resumption boundary: a group is dark until it starts its period 0; 1 bit; R420; reset 0. -/
  resumed : Bool := false
  /-- Group 0 has started period 0 of the lamp frame; 1 bit; R48, R87; reset 0. -/
  periodBegun : Bool := false
  /-- FRM_FRAME.LAST_LEN; 5 bits; R103; reset 0. -/
  lastLen : Nat := 0
  /-- FRM_FRAME.MODE; 2 bits; R103; reset 0. -/
  mode : Nat := 0
  /-- The pending MODE command, FRM_FRAME.PEND and MODE_PEND; R94, R103; reset none. -/
  modePend : Option ModeCmd := none
  /-- FRM_FRAME.TRANSITIONAL; 1 bit; R96, R103; reset 0. -/
  transitional : Bool := false
  /-- The mode whose slot length the transitional frame left; 2 bits; R96; reset 0. -/
  oldMode : Nat := 0
  /-- PWM periods that each phase group has started since the tick; 16 counts; R48, R59, R96; reset 0. -/
  starts : List Nat := List.replicate 16 0
  /-- N_base of the lamp frame before this one, in whose last period a group still is that has started none since the tick;
  R59, R87; reset 0. -/
  prevBase : Nat := 0
  /-- That frame was a transitional one; 1 bit; R96; reset 0. -/
  prevTrans : Bool := false
  /-- Follower: cycles by which its boundaries are still to be moved, later (positive) or earlier; R102; reset none. -/
  realign : Option Int := none
  /-- Follower: cycles by which period 0 of this frame is longer (positive) or shorter; R102; reset 0. -/
  realignNow : Int := 0
  /-- The standalone beam is composed until a commit is applied (R93, R205, R400); with Comp.content FRM_FRAME.STANDALONE; 1 bit; R103; reset 0. -/
  standalone : Bool := false
  /-- FRM_PACE.EXT_FRAMES, saturating; 16 bits; R103; reset 0. -/
  extFrames : Nat := 0
  /-- FRM_PACE.FORCED_TICKS, saturating; 16 bits; R103; reset 0. -/
  forcedTicks : Nat := 0
  /-- FRM_COMMIT.LATE, saturating; 12 bits; R103; reset 0. -/
  late : Nat := 0
  /-- FRM_COMMIT.REFUSED, saturating; 8 bits; R103; reset 0. -/
  refused : Nat := 0
  /-- FRM_COMMIT.REASON; 2 bits; R103; reset 0. -/
  reason : Nat := 0
  /-- The run of ticks without an applied commit, FRM_COMMIT.SINCE saturating at 255; R93, R103; reset 0. -/
  since : Nat := 0
  /-- FRM_REPEAT.REPEAT_FRAMES, saturating; 16 bits; R103; reset 0. -/
  repeatFrames : Nat := 0
  /-- FRM_REPEAT.MODE_CHANGES, saturating; 16 bits; R103; reset 0. -/
  modeChanges : Nat := 0
  /-- FRM_SYNC.LOCKED; 1 bit; R103; reset 0. -/
  locked : Bool := false
  /-- FRM_SYNC.PARTNER_READY; 1 bit; R103; reset 0. -/
  partnerReady : Bool := false
  /-- FRM_SYNC.FAULT; 2 bits; R103; reset 0. -/
  syncFault : Nat := 0
  /-- FRM_SYNC.OFFSET; 8 bits; R103; reset 0. -/
  offset : Nat := 0
  /-- FRM_SYNC.FAULTS, saturating; 8 bits; R103; reset 0. -/
  syncFaults : Nat := 0
  /-- Master: boundaries in a row that a falling edge on SYNC_IN followed in 2 µs, up to 2; R100; reset 0. -/
  edges : Nat := 0
  /-- Follower: falling edges missing or misplaced in a row; R102; reset 0. -/
  badEdges : Nat := 0
  /-- Follower out of lock: valid pulses in a row, up to 16; R102; reset 0. -/
  goodEdges : Nat := 0
  /-- Follower: its boundaries are aligned to the master's, the first master tick is awaited; 1 bit; R102; reset 0. -/
  aligned : Bool := false
  /-- SYNC_OUT: slots before the boundary at which the pulse of the next boundary rises; 0 (held low), 2, 4 or 16; R98, R99; reset 0. -/
  syncOut : Nat := 0
  /-- The pending table: commits for the next tick and the one after; at most two; R92; reset empty. -/
  commits : List Commit := []
  /-- Commits and MODE commands held back by COMMIT_DELAY; R469; reset empty. -/
  delayed : List Delayed := []
  /-- What the gates decided for the next boundary; R88, R90; reset none. -/
  decision : Decision := .none
  /-- The content gate failed at the decision point of the limit; 1 bit; R90; reset 0. -/
  contentFailed : Bool := false
  /-- A SYNC master awaits its sample of SYNC_IN for the next boundary; 1 bit; R100; reset 0. -/
  awaitSample : Bool := false
  /-- The array repeats at the limit, its DRIVE flags cleared; 1 bit; R90; reset 0. -/
  repeatDue : Bool := false
  /-- The last tick was the 120th without a commit: NO_COMMIT is due; 1 bit; R93; reset 0. -/
  noCommitDue : Bool := false
  /-- The commit of a tick was applied at the last tick; 1 bit; R332; reset 0. -/
  applied : Bool := false
  /-- Extra periods by which TICK_JITTER still postpones the tick; R470; reset none. -/
  jitterLeft : Option Nat := none
  /-- FRM_SCHED_ERR: REASON, SECTION, NO_ENTRY, MODE, ENTRY; R171, R182; reset 0. -/
  schedErr : Nat × Bool × Bool × Nat × Nat := (0, false, false, 0, 0)
  /-- FRM_SCHED.LOADED; 1 bit; R182; reset 0. -/
  schedLoaded : Bool := false
  /-- Entries of the frame that have begun, with their completion in cycles after the tick once it is known; R163, R172; reset none. -/
  begun : List (Nat × Option Nat) := []
  /-- Entries of the frame already judged at their deadline; R172; reset none. -/
  judged : List Nat := []
  /-- Chain entries of the frame of which TILE_DARK has stopped a pass, so that it has not ended; R172, R306; reset none. -/
  stopped : List Nat := []
  /-- FRM_MISS.MISSES, saturating; 16 bits; R182; reset 0. -/
  misses : Nat := 0
  /-- FRM_MISS.LAST_ENTRY; 12 bits; R182; reset 0. -/
  missEntry : Nat := 0
  /-- FRM_MISS.LAST_ACT; 4 bits; R182; reset 0. -/
  missAct : Nat := 0
  /-- FRM_MISS_TICK; 32 bits; R182; reset 0. -/
  missTick : Nat := 0
  /-- A miss of this lamp frame has been reported; 1 bit; R173; reset 0. -/
  missSent : Bool := false
  /-- Least slack of the frame so far, cycles; R176; reset none. -/
  slackNow : Option Nat := none
  /-- FRM_SLACK.MIN_SLACK; 22 bits; R182; reset 0. -/
  minSlack : Nat := 0
  /-- Deadline judgement is suspended for the frame; 1 bit; R174; reset 0. -/
  suspended : Bool := false
  /-- Chains, tile × 4 + chain, whose auxiliary pass of the frame has been given; R42, R162, R174; reset none. -/
  auxDone : List Nat := []
  /-- FRM_ENFORCE.LIMIT_REJECT, saturating; 16 bits; R182; reset 0. -/
  limitReject : Nat := 0
  /-- FRM_ENFORCE.THROTTLE, saturating; 16 bits; R182; reset 0. -/
  throttle : Nat := 0
  deriving DecidableEq, Repr

/-- The beam engines' tracked state, one copy for both (R12, R55), and the back buffer. -/
structure Eng where
  /-- The 16 layer slots; R107; reset disabled. -/
  slots : List Slot := List.replicate 16 {}
  /-- Blend order in force: none FIXED, some k a program; R119, R134; reset FIXED (LL). -/
  blend : Option Nat := none
  /-- Blend order staged by a BLEND packet; R110; reset none. -/
  blendStaged : Option (Option Nat) := none
  /-- The back buffer, drive words by pixel index; 1,081,344 × 16 bits; R106; reset DESIGN CHOICE 0x0000 (log 9). -/
  bbuf : SMap (BitVec 16) := []
  /-- ENG_REJECT.COUNT, saturating; 16 bits; R134; reset 0. -/
  rejects : Nat := 0
  /-- ENG_REJECT.SLOT; 4 bits; R134; reset 0. -/
  rejectSlot : Nat := 0
  /-- ENG_REJECT.REASON; 4 bits; R134; reset 0. -/
  rejectReason : Nat := 0
  /-- ENG_BBUF.CORRECTED, saturating; 16 bits; R134; reset 0. -/
  bbCorrected : Nat := 0
  /-- ENG_BBUF.UNCORRECTABLE, saturating; 8 bits; R134; reset 0. -/
  bbUncorrectable : Nat := 0
  /-- ENG_STAT_TICK; 32 bits; R134; reset 0. -/
  statTick : Nat := 0
  /-- ENG_STAT_TLOSS, saturating; 24 bits; R134; reset 0. -/
  statTloss : Nat := 0
  /-- ENG_STAT_TQUADS; 19 bits; R134; reset 0. -/
  statTquads : Nat := 0
  /-- ENG_STAT_CLIP; 21 bits; R134; reset 0. -/
  statClip : Nat := 0
  /-- The sector set in force; R136, R143; reset none. -/
  sect : Option SectSet := none
  /-- ENG_SECT.AGE, saturating; 8 bits; R144, R157; reset 0xFF. -/
  sectAge : Nat := 255
  /-- The staged sector set; R136; reset none. -/
  sectStaged : Option SectSet := none
  /-- ENG_SECT.DIP; 1 bit; R157; reset 0. -/
  dip : Bool := false
  /-- The last frame composed was in a freshness dip; 1 bit; R146; reset 0. -/
  freshDip : Bool := false
  /-- ENG_SECT_CNT.DROPPED, saturating; 16 bits; R157; reset 0. -/
  sectDropped : Nat := 0
  /-- ENG_SECT_CNT.DIP_FRAMES, saturating; 16 bits; R157; reset 0. -/
  dipFrames : Nat := 0
  /-- ENG_SECT_REFUSE.REFUSED, saturating; 16 bits; R157; reset 0. -/
  sectRefused : Nat := 0
  /-- ENG_SECT_REFUSE.REASON; 3 bits; R157; reset 0. -/
  sectReason : Nat := 0
  /-- ENG_SECT_REFUSE.BOX; 7 bits; R157; reset 0. -/
  sectBox : Nat := 0
  /-- ENG_SECT_ID.ID; 8 bits; R157; reset 0. -/
  sectId : Nat := 0
  /-- The symbol set in force; R150, R153; reset none. -/
  sym : Option SymSet := none
  /-- Frames composed since it came into force; R155; reset 0. -/
  symAge : Nat := 0
  /-- The staged symbol set; R150; reset none. -/
  symStaged : Option SymSet := none
  /-- ENG_SYM.LIB_READY; 1 bit; R157; reset 0. -/
  libReady : Bool := false
  /-- ENG_SYM_CNT.DROPPED, saturating; 16 bits; R157; reset 0. -/
  symDropped : Nat := 0
  /-- ENG_SYM_CNT.CLAMPED, saturating; 16 bits; R157; reset 0. -/
  symClamped : Nat := 0
  /-- ENG_SYM_REFUSE.REFUSED, saturating; 16 bits; R157; reset 0. -/
  symRefused : Nat := 0
  /-- ENG_SYM_REFUSE.REASON; 2 bits; R157; reset 0. -/
  symReason : Nat := 0
  /-- ENG_SYM_REFUSE.INDEX; 6 bits; R157; reset 0. -/
  symIndex : Nat := 0
  deriving DecidableEq, Repr

/-- The frame in composition (R72, R105, R145) with what its completion reports. -/
structure Comp where
  /-- What is composed; R90; reset none. -/
  content : Content := .none
  /-- The tick from which it is composed; 32 bits; R22; reset 0. -/
  tick : Nat := 0
  /-- It is composed in dip; 1 bit; R145; reset 0. -/
  dip : Bool := false
  /-- It is composed in DRAM-less mode; 1 bit; R258; reset 0. -/
  dramLess : Bool := false
  /-- LB_REQ and HB_REQ as filtered at its tick: the standalone beam; 2 bits; R93, R402; reset 0. -/
  pins : Nat := 0
  /-- I_eff at its tick, µA; R71; reset 0. -/
  ieff : Nat := 0
  /-- FACTOR at its tick; 13 bits; R131; reset 4,096. -/
  factor : Nat := 4096
  /-- Array demand of the previously composed frame, µA; R72; reset 0. -/
  dprev : Nat := 0
  /-- Batches composed, bit b for batch b; 88 bits; R105; reset 0. -/
  batches : BitVec 88 := 0
  /-- Stage-3 sums S_t by tile; R70; reset 0. -/
  sums : SMap Nat := []
  /-- Clamp factors k_t by tile, 4,096 where none; 13 bits; R73; reset 4,096. -/
  kts : SMap Nat := []
  /-- Tint loss so far; R69; reset 0. -/
  tloss : Nat := 0
  /-- Quads with tint loss so far; R131; reset 0. -/
  tquads : Nat := 0
  /-- Pixels counted under R127 so far; R127; reset 0. -/
  clip : Nat := 0
  /-- Array demand D of the complete frame, µA; R70; reset 0. -/
  demand : Nat := 0
  /-- Computed current after stages 4 and 7, µA; R131; reset 0. -/
  delivered : Nat := 0
  /-- Compositions started for this lit frame; R129; reset 0. -/
  gen : Nat := 0
  /-- A takeover restarted it; 1 bit; R132; reset 0. -/
  rebuilt : Bool := false
  /-- Engine that composes, true for B; 1 bit; R131; reset A. -/
  engineB : Bool := false
  /-- Pixels inside an active sector in the frame composed; R148; reset none. -/
  sectMap : SMap Bool := []
  /-- The frame has been counted in DIP_FRAMES; 1 bit; R146; reset 0. -/
  dipCounted : Bool := false
  /-- Tile rows whose CHAIN_DRIVE passes have been started; 8 bits; R161; reset 0. -/
  loaded : BitVec 8 := 0
  /-- CLASS of the non-GOOD pixels and their partners as composed, taken at its tick; R292; reset none. -/
  classes : SMap Nat := []
  /-- The tied pairs as composed, lower member and direction; R292; reset none. -/
  ties : List (Nat × Bool) := []
  deriving DecidableEq, Repr

/-- A Fairway link state (R197). -/
inductive LinkState where
  | down | detect | trainA | trainB | active | rewidth | backoff
  deriving DecidableEq, Repr, Inhabited

/-- A receive lane (R192, R209). -/
structure Lane where
  /-- LINK_LANEn.LOCKED; 1 bit; R209; reset 0. -/
  locked : Bool := false
  /-- LINK_LANEn.HOST_PRESET; 3 bits; R209; reset 4. -/
  preset : Nat := 4
  /-- LINK_LANEn.CTLE; 4 bits; R194, R209; reset 0. -/
  ctle : Nat := 0
  /-- The three taps of its decision-feedback equaliser; R194; reset DESIGN CHOICE 0 (log 9: nothing has been adapted). -/
  taps : List Int := [0, 0, 0]
  /-- LINK_LANEn.SKEW; 7 bits; R209; reset 0. -/
  skew : Nat := 0
  /-- LINK_LANEn.LOSSES, saturating; 8 bits; R209; reset 0. -/
  losses : Nat := 0
  /-- LINK_VIOL.VIOLn, saturating; 8 bits; R209; reset 0. -/
  viol : Nat := 0
  /-- Coding violations of the last blocks taken, newest first, at most 64; R192; reset none. -/
  recent : List Nat := []
  /-- Place of the last comma, in UI from where the next block begins, −8,192 for one in its place; R191; reset none, until the lane
  locks. -/
  lastComma : Option Int := none
  /-- The runs of equal bits with which the last block ended and that the next may continue, value and length; R191; reset none. -/
  openRuns : List (Bool × Nat) := []
  /-- Valid FTS-A blocks with EQ_DONE in a row of a restore, up to 64; R203; reset 0. -/
  restoreRun : Nat := 0
  deriving DecidableEq, Repr, Inhabited

/-- The lane level of Fairway (R184 to R210). -/
structure Link where
  /-- LINK_STATE.STATE; 3 bits; R209; reset DOWN. -/
  state : LinkState := .down
  /-- FW_REFCLK is present; 1 bit; R186; reset 0. -/
  refclk : Bool := false
  /-- LINK_REFCLK.SPREAD; 1 bit; R209; reset 0. -/
  spread : Bool := false
  /-- LINK_REFCLK.LOSSES, saturating; 16 bits; R209; reset 0. -/
  refLosses : Nat := 0
  /-- LINK_STATE.RX_SET; 4 bits; R209; reset 0. -/
  rxSet : Nat := 0
  /-- LINK_STATE.TX_SET; 2 bits; R209; reset 0. -/
  txSet : Nat := 0
  /-- LINK_STATE.BACKOFF_MS, the next wait; 7 bits; R198, R209; reset 1. -/
  backoffMs : Nat := 1
  /-- The receive lanes 0 to 3; R209; reset unlocked. -/
  lanes : List Lane := List.replicate 4 {}
  /-- LINK_TX.PRESET0 and PRESET1; 2 × 3 bits; R209; reset 4. -/
  txPreset : List Nat := [4, 4]
  /-- LINK_TX.HOST_GOOD; 2 bits; R209; reset 0. -/
  hostGood : Nat := 0
  /-- LINK_TX.TX_LOSSES, saturating; 8 bits; R209; reset 0. -/
  txLosses : Nat := 0
  /-- LINK_TRAIN.TRAINED, saturating; 16 bits; R209; reset 0. -/
  trained : Nat := 0
  /-- LINK_TRAIN.FAILS, saturating; 8 bits; R209; reset 0. -/
  fails : Nat := 0
  /-- LINK_TRAIN.LAST_FAIL; 3 bits; R209; reset 0. -/
  lastFail : Nat := 0
  /-- LINK_DEGRADE.REWIDTHS, saturating; 16 bits; R209; reset 0. -/
  rewidths : Nat := 0
  /-- LINK_DEGRADE.RESTORES, saturating; 16 bits; R209; reset 0. -/
  restores : Nat := 0
  /-- The link has been ACTIVE since the last loss of FW_REFCLK or restart; 1 bit; R206; reset 0. -/
  beenActive : Bool := false
  /-- Preset requests for the transmit lanes as received, and blocks unchanged, up to 16; R197; reset none. -/
  presetReq : List (Option Nat × Nat) := [(none, 0), (none, 0)]
  /-- Blocks in a row with EQ_DONE and the same RXGOOD at both ends, up to 16; R197; reset 0. -/
  eqRun : Nat := 0
  /-- The receive adaptation of the MZN1080 is complete; 1 bit; R194, R197; reset 0. -/
  eqDone : Bool := false
  /-- FTS-B sets with AGREE received in a row, up to 16; R197; reset 0. -/
  agreeRun : Nat := 0
  /-- The two ends' sets agree, AGREE of the FTS-B sets sent; 1 bit; R196, R199; reset 0. -/
  agree : Bool := false
  /-- FTS-B sets with AGREE sent in a row, up to 16; R197; reset 0. -/
  sentRun : Nat := 0
  /-- Cycle at which training began, from which SEQ counts blocks; R196; reset DESIGN CHOICE 0 (log 9: no training). -/
  trainAt : Nat := 0
  /-- The partner's RXGOOD as last received; 4 bits; R199; reset 0. -/
  partnerGood : Nat := 0
  /-- WIDTH sets with ACK received, or sent by the answering end, in the handshake; R201; reset 0. -/
  acks : Nat := 0
  /-- Flags, RXSET and TXSET of the WIDTH sets sent block by block since the last frame, beside those of the state: ACK,
  RESTORE, RELEASE; R201, R203; reset none. -/
  out : List (Nat × Nat × Nat) := []
  /-- Frame slots received since link symbols began; R211; reset 0. -/
  rxSlots : Nat := 0
  /-- Frame slots sent since link symbols began; R211; reset 0. -/
  txSlots : Nat := 0
  /-- Link symbols sent and not yet in a block; R187, R211; reset none. -/
  txSyms : Bytes := []
  /-- Link symbols received in blocks and not yet in a frame; R188, R211; reset none. -/
  rxSyms : Bytes := []
  /-- Link symbols of the blocks that the last frame completed, up to 1,750 each, oldest first; R187, R188; reset DESIGN CHOICE
  none (log 9: no block has been sent). -/
  txBlocks : List Bytes := []
  /-- The MZN1080 detected the loss (true) or answers the partner's WIDTH set; 1 bit; R201; reset 0. -/
  detecting : Bool := false
  /-- Sets that the handshake moves to, receive and transmit; R201; reset 0. -/
  newRx : Nat := 0
  newTx : Nat := 0
  /-- Receive and transmit lanes that R203 lets join in the handshake; 4 and 2 bits; R203, R209; reset 0. -/
  joining : Nat × Nat := (0, 0)
  /-- A restore attempt runs for these receive lanes, or the partner's for these transmit lanes; R203; reset none. -/
  attempt : Option (Nat × Nat) := none
  /-- The last restore attempt was for the receive link; 1 bit; R203; reset 0. -/
  lastRx : Bool := false
  /-- Draws of Config.freeNat used; a count, the model's own field; R195; reset DESIGN CHOICE 0 (log 19). -/
  draws : Nat := 0
  deriving DecidableEq, Repr

/-- A VC1 frame admitted and waiting to be written (R220, R231). -/
structure Vc1Write where
  buf : Nat
  /-- Address in layer memory of its next granule. -/
  addr : Nat
  /-- Bytes still to be handed to the FWW port. -/
  data : Bytes
  /-- Granules handed over and not yet transferred. -/
  inFlight : Nat
  /-- It holds a credit, which arrival in ACTIVE takes back with all others (R221, R224). -/
  owes : Bool
  /-- The generation it belongs to, if any. -/
  gen : Option Nat
  /-- Number of the frame, to free its buffer. -/
  id : Nat
  deriving DecidableEq, Repr, Inhabited

/-- A layer buffer as Fairway receive keeps it (R231, R232). -/
structure Buf where
  /-- The generation in progress: WGEN; 16 bits; R231; reset none. -/
  gen : Option Nat := none
  /-- VCSEQ of its FIRST frame; 8 bits; R231; reset 0. -/
  first : Nat := 0
  /-- Its LAST frame has been accepted; 1 bit; R231; reset 0. -/
  gotLast : Bool := false
  /-- A VC1 frame between its FIRST and LAST was lost; 1 bit; R231; reset 0. -/
  lost : Bool := false
  /-- LINK_BUF_STAT.READY_GEN; 16 bits; R231, R240; reset 0. -/
  ready : Nat := 0
  /-- A generation has completed; 1 bit; R231; reset 0. -/
  hasReady : Bool := false
  deriving DecidableEq, Repr, Inhabited

/-- Fairway receive and the reply path (R211 to R241). -/
structure Fw where
  /-- LAST of the host direction under the keys in force plus 1, that is the least number acceptable; R216; reset 0. -/
  rxNext : Nat := 0
  /-- The same under the previous keys during the overlap; R216, R362; reset 0. -/
  rxNextOld : Nat := 0
  /-- Next number of the direction to the host; R216; reset 0. -/
  txNext : Nat := 0
  /-- LINK_ACCEPTED, wrapping as a 32-bit counter that saturates; 32 bits; R240; reset 0. -/
  accepted : Nat := 0
  /-- LINK_DISCARD.CRC_FAIL, saturating; 16 bits; R240; reset 0. -/
  crcFail : Nat := 0
  /-- LINK_DISCARD.FORMAT, saturating; 8 bits; R240; reset 0. -/
  format : Nat := 0
  /-- LINK_DISCARD.NO_SESSION, saturating; 8 bits; R240; reset 0. -/
  noSession : Nat := 0
  /-- LINK_SECURITY.TAG_FAIL, saturating; 16 bits; R240; reset 0. -/
  tagFail : Nat := 0
  /-- LINK_SECURITY.CREDIT_VIOL, saturating; 8 bits; R240; reset 0. -/
  creditViol : Nat := 0
  /-- LIMIT0; 8 bits; R221, R240; reset 0. -/
  limit0 : Nat := 0
  /-- LIMIT1; 8 bits; R221, R240; reset 0. -/
  limit1 : Nat := 0
  /-- EXP0; 8 bits; R222, R240; reset 0. -/
  exp0 : Nat := 0
  /-- EXP1; 8 bits; R222, R240; reset 0. -/
  exp1 : Nat := 0
  /-- LINK_LOST.LOST0, saturating; 16 bits; R240; reset 0. -/
  lost0 : Nat := 0
  /-- LINK_LOST.LOST1, saturating; 16 bits; R240; reset 0. -/
  lost1 : Nat := 0
  /-- LINK_WRITE.BUSY, saturating; 16 bits; R240; reset 0. -/
  busy : Nat := 0
  /-- LINK_WRITE.BOUNDS, saturating; 16 bits; R240; reset 0. -/
  bounds : Nat := 0
  /-- LINK_PKT.PARTIAL, saturating; 16 bits; R240; reset 0. -/
  partials : Nat := 0
  /-- LINK_PKT.MALFORMED, saturating; 16 bits; R240; reset 0. -/
  malformed : Nat := 0
  /-- LINK_BUF_SEL.BUF; 8 bits; R240; reset 0. -/
  bufSel : Nat := 0
  /-- LINK_REPLY.DROPPED, saturating; 16 bits; R240; reset 0. -/
  replyDropped : Nat := 0
  /-- Reply packets dropped since the last OVERFLOW reply; R237; reset 0. -/
  overflow : Nat := 0
  /-- Reply packets waiting, oldest first, at most 256; R238; reset empty. -/
  replies : List Bytes := []
  /-- Reply packets that other domains have given while LRX stood still, oldest first: they wait for its clock before they enter the
  queue; R17, R18, R237 (DEDUCED, log 138); reset empty. -/
  crossing : List Bytes := []
  /-- CRC failures in the 64 ms window, and the window's number; R218; reset 0. -/
  crcWindow : Nat := 0
  crcWindowNo : Nat := 0
  /-- Frames discarded since the last DISCARD reply, and the step of the last; R237; reset 0. -/
  discards : Nat := 0
  discardStep : Nat := 0
  /-- The VC0 packet that continues into the next VC0 frame: what has arrived; R225; reset none. -/
  partPkt : Option Bytes := none
  /-- VC0 receive buffers occupied, at most 8; R220; reset 0. -/
  held0 : Nat := 0
  /-- VC0 credits withheld by HOLD0; R469; reset 0. -/
  kept0 : Nat := 0
  /-- VC1 credits freed and not yet returned; R223, R469; reset 0. -/
  kept1 : Nat := 0
  /-- VC1 receive buffers occupied, at most 32; R220; reset 0. -/
  held1 : Nat := 0
  /-- Bytes of VC1 data handed to layer memory in the 64 µs window; R166; reset 0. -/
  vc1Bytes : Nat := 0
  /-- VC1 data waits for the next window, so that credits are held back in this one; 1 bit; R166; reset 0. -/
  throttled : Bool := false
  /-- LIMIT1 rises in the last receive frame slots, newest first, at most 8; R223; reset none. -/
  rises : List Nat := []
  /-- VC1 frames waiting to be written, oldest first; R220; reset empty. -/
  writes : List Vc1Write := []
  /-- Frames numbered for Vc1Write.id; the model's own; reset DESIGN CHOICE 0 (log 9). -/
  nextId : Nat := 0
  /-- The 256 buffers' generations; R231; reset none complete. -/
  bufs : SMap Buf := []
  /-- The last frame sent to the host; 2,076 bytes; R212; reset DESIGN CHOICE empty (log 9). -/
  txFrame : Bytes := []
  /-- Transmit frame slots since the last REPLY frame, up to 32; R238; reset 32. -/
  sinceReply : Nat := 32
  deriving DecidableEq, Repr

/-- What the statistics payload of a lit frame says (R131). -/
structure Stats where
  tick : Nat := 0
  flags : Nat := 0
  gen : Nat := 0
  demand : Nat := 0
  delivered : Nat := 0
  g : Nat := 4096
  clamped : Nat := 0
  tloss : Nat := 0
  tquads : Nat := 0
  clip : Nat := 0
  factor : Nat := 4096
  blend : Option Nat := none
  stale : List Nat := []
  enabled : Nat := 0
  repeated : List Nat := []
  dark : List Nat := []
  deriving DecidableEq, Repr, Inhabited

/-- Witness transmit (R129 to R133, R239 to R241). -/
structure Wit where
  /-- WIT_STATUS.RUNNING; 1 bit; R240; reset 0. -/
  running : Bool := false
  /-- The stream waits for the first lit frame at width 2; 1 bit; R204; reset 0. -/
  waiting : Bool := false
  /-- WIT_STATUS.STOPS, saturating; 16 bits; R240; reset 0. -/
  stops : Nat := 0
  /-- WIT_FRAMES, saturating; 32 bits; R240; reset 0. -/
  frames : Nat := 0
  /-- WIT_LAST; 32 bits; R240; reset 0. -/
  lastTick : Nat := 0
  /-- Next drive payload of the frame in composition, 0 to 1,056; R130; reset 0. -/
  next : Nat := 0
  /-- Statistics of the frame that is lit; R131; reset 0. -/
  stats : Stats := {}
  /-- Its statistics payload is still to be sent; 1 bit; R130; reset 0. -/
  statsDue : Bool := false
  /-- Drive payloads of the frame that is lit which have not been sent yet: index and bytes; R13, R130; reset none. -/
  late : List (Nat × Bytes) := []
  deriving DecidableEq, Repr

/-- A request in a queue of the layer-memory controller (R248, R249). -/
structure Req where
  port : Port
  addr : Nat
  write : Bool
  data : Bytes
  /-- Number of the VC1 frame that an FWW request belongs to. -/
  tag : Nat := 0
  deriving DecidableEq, Repr, Inhabited

/-- A read whose answer PORT_DELAY holds back (R469). -/
structure Answer where
  port : Port
  /-- Cycle of the answer. -/
  due : Nat
  data : Bytes
  poison : Bool
  deriving DecidableEq, Repr, Inhabited

/-- A channel of the layer-memory controller (R249, R251). -/
structure Chan where
  /-- The bank queues in one list in order of entry, at most 16 a bank; R249; reset empty. -/
  queue : List Req := []
  /-- The write queue, oldest first, at most 32; R249; reset empty. -/
  writeQ : List Req := []
  /-- Bank of its last activate; 3 bits; R249; reset DESIGN CHOICE 7 (log 9: the first pick starts from bank 0). -/
  lastBank : Nat := 7
  /-- MEM_REFRESH.DEBTn; 4 bits; R251, R260; reset 0. -/
  debt : Nat := 0
  /-- MEM_STATUS.MR4_CHn; 3 bits; R260; reset 0. -/
  mr4 : Nat := 0
  /-- Cycle until which all-bank refreshes occupy the channel; R247, R252; reset 0. -/
  refreshUntil : Nat := 0
  /-- Cycle until which the channel retrains; R255; reset 0. -/
  retrainUntil : Nat := 0
  /-- The cache of check granules, by page × 7 + granule of the page's check bytes, the last used first, at most 64; R243;
  reset empty. -/
  checks : List Nat := []
  deriving DecidableEq, Repr, Inhabited

/-- The layer-memory controller (R242 to R261). -/
structure Memc where
  /-- Channels 0 and 1; R249; reset empty. -/
  chans : List Chan := [{}, {}]
  /-- Free port credits COMP, GAIN, LEDG, FWW, SCAN; R246, R248; reset 64, 16, 8, 32, 8. -/
  credits : List Nat := [64, 16, 8, 32, 8]
  /-- Reads answered later, oldest first; R469; reset none. -/
  late : List Answer := []
  /-- Requests that ports hold for want of a credit or of room, oldest first; R248; reset none. -/
  held : List Req := []
  /-- MEM_STATUS.TRAINED; 1 bit; R260; reset 0. -/
  trained : Bool := false
  /-- Start-up training has ended; 1 bit; R254; reset 0. -/
  trainDone : Bool := false
  /-- MEM_STATUS.DRAM_LESS; 1 bit; R260; reset 0. -/
  dramLess : Bool := false
  /-- MEM_STATUS.CAUSE; 1 bit; R260; reset 0. -/
  cause : Bool := false
  /-- MEM_STATUS.FLAGGED; 1 bit; R255, R260; reset 0. -/
  flagged : Bool := false
  /-- MEM_STATUS.PANIC COMP, GAIN, LEDG; 3 bits; R247, R260; reset 0. -/
  panic : BitVec 3 := 0
  /-- MEM_ECC.CORRECTED, saturating; 20 bits; R260; reset 0. -/
  corrected : Nat := 0
  /-- MEM_ECC.UNCORRECTABLE, saturating; 12 bits; R260; reset 0. -/
  uncorrectable : Nat := 0
  /-- MEM_ECC_ADDR; 32 bits; R260; reset 0. -/
  eccAddr : Nat := 0
  /-- MEM_ECC_RATE.WINDOW, saturating at 4,095; 12 bits; R260; reset 0. -/
  window : Nat := 0
  /-- The window's count has exceeded CE_LIMIT; 1 bit; R256; reset 0. -/
  windowOver : Bool := false
  /-- Granules read from the DRAM since the window began; R256; reset 0. -/
  reads : Nat := 0
  /-- MEM_ECC_RATE.RETRAIN_FAILS, saturating; 8 bits; R260; reset 0. -/
  retrainFails : Nat := 0
  /-- MEM_REFRESH.MAX_DEBT; 4 bits; R260; reset 0. -/
  maxDebt : Nat := 0
  /-- MEM_REFRESH.FORCED, saturating; 16 bits; R260; reset 0. -/
  forced : Nat := 0
  /-- MR4 has been read in this lamp frame; 1 bit; R251; reset 0. -/
  mr4Read : Bool := false
  /-- MEM_ACCESS.FORWARDED, saturating; 16 bits; R260; reset 0. -/
  forwarded : Nat := 0
  /-- MEM_ACCESS PANIC_COMP, PANIC_GAIN, PANIC_LEDG, saturating; 8, 4, 4 bits; R260; reset 0. -/
  panics : List Nat := [0, 0, 0]
  /-- The copy of FB0 and FB1 runs; 1 bit; R259; reset 0. -/
  copying : Bool := false
  /-- The copy is complete: the next tick enters DRAM-less mode; 1 bit; R259; reset 0. -/
  copied : Bool := false
  /-- The fallback halves 0 and 1, by byte offset; 2 × 256 KiB; R258; reset 0. -/
  half0 : SMap Byte := []
  half1 : SMap Byte := []
  /-- The DRAM is in self-refresh; 1 bit; R416; reset 0. -/
  selfRefresh : Bool := false
  /-- Data of the last completed read and its poison mark; 32 bytes; R248, R257; reset DESIGN CHOICE empty (log 9). -/
  readData : Bytes := []
  readPoison : Bool := false
  /-- Draws of Config.unwrittenByte used; a count, the model's own field; R245; reset DESIGN CHOICE 0 (log 5, 19). -/
  draws : Nat := 0
  deriving DecidableEq, Repr

/-- Candidate work on a pixel in a sweep (R264, R269). -/
structure Cand where
  pixel : Nat
  /-- Results so far in order: s_all, then the 12 leave-one-out currents, then verifications. -/
  codes : List Nat
  /-- The finger set chosen after the basis conversions. -/
  best : Option (BitVec 12)
  deriving DecidableEq, Repr, Inhabited

/-- Calibration of one tile (R262 to R281). -/
structure CalTile where
  /-- Pass measurements of passes 0 to 3 by pixel, newest first; 16 bits each; R268; reset none. -/
  meas : SMap (List Nat) := []
  /-- Values m by pixel; R268; reset none. -/
  m : SMap (Option Nat) := []
  /-- M_t of the sweep; 16 bits; R268; reset 0. -/
  median : Nat := 0
  /-- The tile is skipped in the sweep; 1 bit; R267; reset 0. -/
  skip : Bool := false
  /-- The sweep of the tile was discarded; 1 bit; R266; reset 0. -/
  aborted : Bool := false
  /-- Candidates in work by place, pixel 5,632 for a free place; R264; reset none. -/
  cands : List Cand := []
  /-- Next tile-local index to take up; R264; reset 0. -/
  nextCand : Nat := 0
  /-- Accepted masks by pixel; R269; reset none. -/
  accepted : SMap (BitVec 12) := []
  /-- Pixels counted LIMITED in the sweep; R269; reset 0. -/
  limited : Nat := 0
  /-- Sum over passes 4 to 15 of code and of code², and their number; R280; reset 0. -/
  sSum : Nat := 0
  sqSum : Nat := 0
  sqN : Nat := 0
  /-- Tile-local indices whose discarded pass measurement is to be repeated, oldest first; R266; reset none. -/
  owed : List Nat := []
  /-- Number of the next conversion of the lamp frame; R262; reset 0. -/
  nextConv : Nat := 0
  /-- Reference conversions done in the sweep, for the rotation of 17; R270; reset 0. -/
  refTurn : Nat := 0
  /-- Sum and number of conversions of each unit cell; R270; reset 0. -/
  cellSums : List (Nat × Nat) := List.replicate 16 (0, 0)
  /-- ρ_t as numerator and denominator; R268; reset 0 of 1. -/
  rho : Nat × Nat := (0, 1)
  /-- Cell selection chosen for the next trim commit; 16 bits; R270; reset none. -/
  newCells : Option (BitVec 16) := none
  /-- The reference settles in the sweep after a takeover; 1 bit; R272; reset 0. -/
  refSettle : Bool := false
  /-- CAL_TILE.MEDIAN of the last sweep end; 16 bits; R280; reset 0. -/
  rMedian : Nat := 0
  /-- CAL_TILE.ELIGIBLE; 13 bits; R280; reset 0. -/
  rEligible : Nat := 0
  /-- CAL_TILE.SKIP; 1 bit; R280; reset 0. -/
  rSkip : Bool := false
  /-- CAL_TILE.ABORTED; 1 bit; R280; reset 0. -/
  rAborted : Bool := false
  /-- CAL_TILE_TRIM.ACCEPTED; 13 bits; R280; reset 0. -/
  rAccepted : Nat := 0
  /-- CAL_TILE_TRIM.LIMITED; 13 bits; R280; reset 0. -/
  rLimited : Nat := 0
  /-- CAL_TILE_RESID.RESID_3S; 16 bits; R280; reset 0. -/
  rResid : Nat := 0
  /-- CAL_TILE_RESID.REF_STEP; 16 bits signed; R280; reset 0. -/
  rRefStep : Int := 0
  /-- CAL_WEAR_Q.QEFF in C and CAL_WEAR.WEAR; 32 and 13 bits; R280; reset 0 and 0x1000. -/
  rQ : Nat := 0
  rWear : Nat := 4096
  /-- Effective charge Q_t in µC; R277; reset 0, restored from the ledger. -/
  q : Nat := 0
  /-- WEAR_t; 13 bits; R279, R280; reset 0x1000. -/
  wear : Nat := 4096
  /-- WEAR_CAP has been reported; 1 bit; R279; reset 0. -/
  capSent : Bool := false
  deriving DecidableEq, Repr, Inhabited

/-- Calibration (R262 to R281). -/
structure Cal where
  /-- The tiles' calibration state; R262; reset empty. -/
  tiles : SMap CalTile := []
  /-- CAL_STATUS.RESTORED; 1 bit; R280; reset 0. -/
  restored : Bool := false
  /-- CAL_STATUS.STAGING; 1 bit; R280; reset 0. -/
  staging : Bool := false
  /-- CAL_STATUS.STOPPED; 1 bit; R280; reset 0. -/
  stopped : Bool := false
  /-- CAL_STATUS.PASS; 4 bits; R280; reset 0. -/
  pass : Nat := 0
  /-- CAL_STATUS.POINTER; 13 bits; R280; reset 0. -/
  pointer : Nat := 0
  /-- The pass pointer has reached the end of a pass: CAL_PASS_END is due; 1 bit; R263; reset 0. -/
  passEndDue : Bool := false
  /-- Settling sweeps still to run for every tile, 0 to 2; R272; reset 0. -/
  settle : Nat := 0
  /-- Ticks since the end of pass 15; R273; reset 0. -/
  stagingTicks : Nat := 0
  /-- The last tick is a trim-commit tick: TRIM_COMMIT is due; 1 bit; R47, R273; reset 0. -/
  commitDue : Bool := false
  /-- It is the tick of the restored image, wear without step limit; 1 bit; R274; reset 0. -/
  commitFirst : Bool := false
  /-- The trim image of the ledger has been looked for; 1 bit; R274; reset 0. -/
  restoreDone : Bool := false
  /-- CAL_COUNT.COMMITS, saturating; 16 bits; R280; reset 0. -/
  commits : Nat := 0
  /-- CAL_COUNT.STAGE_MISSES, saturating; 16 bits; R280; reset 0. -/
  stageMisses : Nat := 0
  /-- CAL_LAST; 32 bits; R280; reset 0. -/
  lastTick : Nat := 0
  /-- CAL_TARGET.T_ARR; 16 bits; R280; reset 0. -/
  tArr : Nat := 0
  /-- T_ARR of the sweep that runs; R268; reset 0. -/
  tArrNow : Nat := 0
  /-- M_t and IU_NA_t of the tile whose normalised median is T_ARR, 0 before pass 3 ends; R268; reset 0 of 1. -/
  tArrOf : Nat × Nat := (0, 1)
  /-- CAL_TARGET.SKIPPED; 8 bits; R280; reset 0. -/
  skipped : Nat := 0
  /-- CAL_SEL.TILE; 8 bits; R280; reset 0. -/
  sel : Nat := 0
  /-- Conversions until this cycle are discarded after a timebase give-up; R266, R282; reset 0. -/
  discardUntil : Nat := 0
  /-- Draws of Config.freeInt used; a count, the model's own field; R280; reset DESIGN CHOICE 0 (log 19). -/
  draws : Nat := 0
  deriving DecidableEq, Repr

/-- What pixel diagnostics keeps for one pixel (R287 to R294). -/
structure Pix where
  /-- CLASS: 0 GOOD, 1 DEAD, 2 SHORTED, 3 TIED; 2 bits; R290; reset 0. -/
  cls : Nat := 0
  /-- UNMEAS mark; 1 bit; R290; reset 0. -/
  unmeas : Bool := false
  /-- OVERDUE mark; 1 bit; R290, R294; reset 0. -/
  overdue : Bool := false
  /-- The last skip was due to a sector; 1 bit; R294; reset 0. -/
  overdueSect : Bool := false
  /-- A judgement is owed since a skip; 1 bit; R294; reset 0. -/
  owedJudge : Bool := false
  /-- A complete checker cycle is owed since a skip; 1 bit; R294; reset 0. -/
  owedCycle : Bool := false
  /-- A checker phase of the cycle that runs skipped the pixel; 1 bit; R294; reset 0. -/
  skippedCycle : Bool := false
  /-- PENDING mark: the unconfirmed findings, bit 0 open, bit 1 short; 2 bits; R287, R290; reset 0. -/
  pending : Nat := 0
  /-- Findings that a probe made first, bit 0 open, bit 1 short; 2 bits; R287; reset 0. -/
  byProbe : Nat := 0
  /-- Confirmed findings that the HEALTH entry sends, bit 0 open, bit 1 short; 2 bits; R287, R289; reset 0. -/
  confirmed : Nat := 0
  /-- GLITCH increments waiting for the HEALTH entry; R287, R295; reset 0. -/
  glitches : Nat := 0
  /-- NSHORT flags by checker phase in the cycle, bit per phase; 4 bits; R288; reset 0. -/
  nshort : BitVec 4 := 0
  /-- It was unresolved in the last complete cycle; 1 bit; R288; reset 0. -/
  unresolved : Bool := false
  deriving DecidableEq, Repr, Inhabited

/-- A tile as pixel diagnostics sees it (R288, R293). -/
structure DiagTile where
  /-- Checker phases run since the last capture, by chain; R288; reset none. -/
  phases : List (List Nat) := [[], [], [], []]
  /-- The cycle is incomplete; 1 bit; R288; reset 0. -/
  incomplete : Bool := false
  /-- An aggregation episode runs; 1 bit; R293; reset 0. -/
  episode : Bool := false
  /-- The probe window and the checker window of the period that runs are done; 1 bit each; R58, R284, R285; reset 0. -/
  probed : Bool := false
  checked : Bool := false
  deriving DecidableEq, Repr, Inhabited

/-- The statuses that one pass returned: tile, chain, 4 bits a position, the checker phases that ran in the tile between its
capture and the one before on the chain, and by pixel the findings that a probe made (R35, R287, R288). -/
structure Returned where
  tile : Nat
  chain : Nat
  statuses : List Nat
  phases : List Nat
  probes : SMap Nat
  deriving DecidableEq, Repr, Inhabited

/-- Pixel diagnostics (R282 to R297). -/
structure Diag where
  /-- The health store's pixels; R290; reset GOOD without marks. -/
  pix : SMap Pix := []
  /-- The tie table, lower member and direction (true vertical), at most 4,096; R290; reset empty. -/
  ties : List (Nat × Bool) := []
  /-- Per-tile records; R288, R293; reset none. -/
  tiles : SMap DiagTile := []
  /-- The diagnostic counter n_d; R283; reset 0. -/
  nd : Nat := 0
  /-- The frame has begun its period N_base − 1, which carries the windows; 1 bit; R58, R283; reset 0. -/
  windowsRan : Bool := false
  /-- Statuses returned since the last HEALTH entry, oldest first; R295; reset none. -/
  returned : List Returned := []
  /-- DIAG_STATUS.MAP_VALID; 1 bit; R296; reset 0. -/
  mapValid : Bool := false
  /-- DIAG_STATUS.STOPPED; 1 bit; R296; reset 0. -/
  stopped : Bool := false
  /-- DIAG_STATUS.AGG_TILES; 8 bits; R296; reset 0. -/
  aggTiles : Nat := 0
  /-- DIAG_TIED.TIE_FULL, saturating; 16 bits; R296; reset 0. -/
  tieFull : Nat := 0
  /-- DIAG_UNMEAS; 21 bits; R296; reset 0. -/
  unmeas : Nat := 0
  /-- DIAG_MAP_ADDR.PIXEL; 21 bits; R296; reset 0. -/
  mapAddr : Nat := 0
  /-- DIAG_LAST: pixel and class; 21 and 2 bits; R296; reset 0. -/
  lastPixel : Nat := 0
  lastClass : Nat := 0
  /-- DIAG_AGG.EPISODES, saturating; 16 bits; R296; reset 0. -/
  episodes : Nat := 0
  /-- DIAG_AGG.LAST_TILE; 8 bits; R296; reset 0. -/
  aggLast : Nat := 0
  /-- DIAG_GLITCH.UNCONFIRMED, saturating; 16 bits; R296; reset 0. -/
  unconfirmed : Nat := 0
  /-- DIAG_GLITCH.UNATTRIBUTED, saturating; 16 bits; R296; reset 0. -/
  unattributed : Nat := 0
  /-- The last frame of a cycle has ended, its evaluation is due; 1 bit; R288; reset 0. -/
  cycleDue : Bool := false
  /-- The overdue count was above 0 at the last HEALTH entry; 1 bit; R294; reset 0. -/
  wasOverdue : Bool := false
  /-- Pixels inside an active sector in the frame that is lit; R148; reset none. -/
  sectMap : SMap Bool := []
  /-- Those of the frame before, for the groups that still run its last period; R48, R148; reset none. -/
  sectBefore : SMap Bool := []
  deriving DecidableEq, Repr

/-- The state of a duplicated instance (R326). -/
inductive InstState where
  | active | standby | selftest | resync | retired
  deriving DecidableEq, Repr, Inhabited

/-- The last give-up of a pair (R334, R472). -/
structure GaveUp where
  /-- Cycle of it. -/
  at_ : Nat
  /-- The instance that gave up, true for B. -/
  b : Bool
  cause : Nat
  /-- The partner took over. -/
  ok : Bool
  deriving DecidableEq, Repr, Inhabited

/-- A pair of duplicated instances (R326, R333). -/
structure Pair where
  /-- States of A and B; 3 bits each; R326, R337; reset ACTIVE and STANDBY. -/
  a : InstState := .active
  b : InstState := .standby
  /-- Lamp-clock times of the last three give-ups of A and B, newest first, ms; R333; reset none. -/
  gaveA : List Nat := []
  gaveB : List Nat := []
  /-- Takeovers of the pair, saturating; 8 bits; R337; reset 0. -/
  takeovers : Nat := 0
  /-- Instance A, or B, waits in RESYNC and has met its resynchronisation point; 1 bit each; R332; reset 0. -/
  point : Bool := false
  pointB : Bool := false
  /-- The last give-up of the pair, by which give-ups in one KEEP cycle are told; R334, R472; reset none. -/
  last : Option GaveUp := none
  deriving DecidableEq, Repr, Inhabited

/-- The lamp changer (R326 to R338). -/
structure Chg where
  /-- The beam engines; R326; reset A active. -/
  eng : Pair := {}
  /-- The timebases; R326; reset A active. -/
  tb : Pair := {}
  /-- The tile references by tile; R326; reset A active. -/
  refs : SMap Pair := []
  /-- CHG_COUNT.ENG, saturating; 8 bits; R337; reset 0. -/
  cntEng : Nat := 0
  /-- CHG_COUNT.TB, saturating; 8 bits; R337; reset 0. -/
  cntTb : Nat := 0
  /-- CHG_COUNT.REF, saturating; 16 bits; R337; reset 0. -/
  cntRef : Nat := 0
  /-- CHG_LAST.SOURCE; 8 bits; R337; reset 0. -/
  lastSource : Nat := 0
  /-- CHG_LAST.CAUSE; 8 bits; R337; reset 0. -/
  lastCause : Nat := 0
  /-- CHG_LAST.INSTANCE; 1 bit; R337; reset 0. -/
  lastB : Bool := false
  /-- CHG_LAST.FAILED; 1 bit; R337; reset 0. -/
  lastFailed : Bool := false
  /-- CHG_LAST_TICK; 32 bits; R337; reset 0. -/
  lastTick : Nat := 0
  /-- CHG_REF_SEL.TILE; 8 bits; R337; reset 0. -/
  refSel : Nat := 0
  /-- CHG_SELFTEST.START_PASS; 4 bits; R337; reset 0. -/
  startPass : BitVec 4 := 0
  /-- CHG_SELFTEST.DONE; 1 bit; R337; reset 0. -/
  startDone : Bool := false
  /-- CHG_SELFTEST.REF_FAILS; 8 bits; R337; reset 0. -/
  refFails : Nat := 0
  /-- CHG_SELFTEST.RUN_FAILS, saturating; 16 bits; R337; reset 0. -/
  runFails : Nat := 0
  /-- CHG_RETIRED.DARK_TILES: tiles darkened by TAKEOVER_FAIL; 8 bits; R337; reset 0. -/
  darkTiles : Nat := 0
  /-- A takeover restarted the composition of this frame and the rebuild runs; 1 bit; R331; reset 0. -/
  rebuilding : Bool := false
  deriving DecidableEq, Repr

/-- A scan engine, CE2 or CE3 (R345 to R349). -/
structure ScanEng where
  /-- Which of its own entries it visits; 4 bits; R345, R350; reset 0. -/
  pos : Nat := 0
  /-- Bytes of the entry done; R345; reset 0. -/
  done : Nat := 0
  /-- The CRC register over them, once begun; 32 bits; R345; reset 0. -/
  crc : Nat := 0
  /-- CHK_SCANn.RESCAN; 1 bit; R350; reset 0. -/
  rescan : Bool := false
  /-- A granule of the visit was read poisoned; 1 bit; R347; reset 0. -/
  poisoned : Bool := false
  /-- CHK_SCANn.ROUNDS, saturating; 16 bits; R350; reset 0. -/
  rounds : Nat := 0
  deriving DecidableEq, Repr, Inhabited

/-- Check engines (R339 to R351). -/
structure Chk where
  /-- CE2 and CE3; R345; reset at their first entries. -/
  ce2 : ScanEng := {}
  ce3 : ScanEng := {}
  /-- EXP_A copies by entry index, CFG domain; 32 bits each; R344; reset none. -/
  expA : List Nat := []
  /-- EXP_B copies by entry index, KEEP domain; 32 bits each; R344; reset none. -/
  expB : List Nat := []
  /-- CHK_SCAN_CNT.DATA, saturating; 16 bits; R350; reset 0. -/
  data : Nat := 0
  /-- CHK_SCAN_CNT.VALUE, saturating; 16 bits; R350; reset 0. -/
  value : Nat := 0
  /-- CHK_SCAN_CNT2.TRANSIENT, saturating; 16 bits; R350; reset 0. -/
  transient : Nat := 0
  /-- CHK_SCAN_CNT2.POISONED, saturating; 8 bits; R350; reset 0. -/
  poisonedCnt : Nat := 0
  /-- CHK_SCAN_CNT2.SKIPPED, saturating; 8 bits; R350; reset 0. -/
  skipped : Nat := 0
  /-- CHK_LAST.ENGINE; 1 bit; R350; reset 0. -/
  lastCe3 : Bool := false
  /-- CHK_LAST.ENTRY; 4 bits; R350; reset 0. -/
  lastEntry : Nat := 0
  /-- CHK_LAST.VERDICT; 3 bits; R350; reset 0. -/
  lastVerdict : Nat := 0
  /-- CHK_LAST_RESULT; 32 bits; R350; reset 0. -/
  lastResult : Nat := 0
  /-- Messages sent, kind and entry index; R348; reset none. -/
  sent : List (Nat × Nat) := []
  deriving DecidableEq, Repr

/-- A security-engine command as copied when it was written (R368). -/
structure SecJob where
  cmd : Nat
  key : Nat
  resp : List Word
  /-- SIGN_STATUS: the status block as taken (R370). -/
  block : List Word
  deriving DecidableEq, Repr, Inhabited

/-- The security engine's registers and secrets (R352 to R373). -/
structure Sec where
  /-- SEC_STATUS.CLAIMED, read from OTP in START; 1 bit; R373, R461; reset 0 until read. -/
  claimed : Bool := false
  /-- SEC_ROOT0–7, read from OTP in START; 256 bits; R373, R461; reset 0 until read. -/
  rootHash : Bytes := []
  /-- SEC_STATUS.CLAIM_TORN; 1 bit; R355, R373; reset 0. -/
  torn : Bool := false
  /-- SEC_STATUS.KEY_OK; 1 bit; R353, R373; reset 0. -/
  keyOk : Bool := false
  /-- KEY_CHECK has been made; 1 bit; R353; reset 0. -/
  keyChecked : Bool := false
  /-- SEC_NONCE0–7 as a draw of Config.randomByte; 256 bits; R368, R461; reset a new draw. -/
  nonce : Nat := 0
  /-- Draws of Config.randomByte used; a count, the model's own field; R368; reset DESIGN CHOICE 1 (log 19). -/
  draws : Nat := 1
  /-- SEC_AUTH.CMD; 3 bits; R373; reset 0. -/
  cmd : Nat := 0
  /-- SEC_AUTH.KEY; 8 bits; R373; reset 0. -/
  key : Nat := 0
  /-- The command that runs, SEC_AUTH_STAT.BUSY; R368, R373; reset none. -/
  job : Option SecJob := none
  /-- A verified CLAIM is being fused; 1 bit; R354; reset 0. -/
  fusing : Bool := false
  /-- SEC_AUTH_STAT.RESULT; 3 bits; R373; reset 0. -/
  result : Nat := 0
  /-- SEC_AUTH_STAT.FAILS; 8 bits; R369, R373; reset from the ledger, 0 without one. -/
  fails : Nat := 0
  /-- Length of the lockout in force, s, 0 when none; R369; reset 0. -/
  lockLen : Nat := 0
  /-- Cycle at which it began; R369; reset DESIGN CHOICE 0 (log 9). -/
  lockAt : Nat := 0
  /-- SEC_RESP0–35; 36 × 32 bits; R373; reset 0. -/
  resp : List Word := List.replicate 36 0
  /-- SEC_SSTAT0–7; 8 × 32 bits; R373; reset 0. -/
  sstat : List Word := List.replicate 8 0
  /-- SEC_SSIG0–15; 16 × 32 bits; R373; reset 0. -/
  ssig : List Word := List.replicate 16 0
  /-- SEC_CERT.WORD; 8 bits; R373; reset 0. -/
  certWord : Nat := 0
  deriving DecidableEq, Repr

/-- A handshake under way (R359). -/
structure Handshake where
  helloH : Bytes
  helloD : Bytes
  attempt : Byte
  hostPub : Bytes
  mode : Nat
  /-- The MZN1080's ephemeral private key. -/
  priv : Bytes
  at_ : Nat
  deriving DecidableEq, Repr, Inhabited

/-- Session keys of both directions (R359). -/
structure Keys where
  toUnit : Bytes
  toHost : Bytes
  deriving DecidableEq, Repr, Inhabited

/-- Fairway sessions (R359 to R364). -/
structure Ses where
  /-- The keys in force; 2 × 128 bits; R362; reset none. -/
  keys : Option Keys := none
  /-- The previous keys during the overlap; 2 × 128 bits; R362; reset none. -/
  oldKeys : Option Keys := none
  /-- SEC_SESSION.MODE; 2 bits; R373; reset 0. -/
  mode : Nat := 0
  /-- The mode under the previous keys; 2 bits; R362; reset 0. -/
  oldMode : Nat := 0
  /-- The handshake under way; R359; reset none. -/
  hs : Option Handshake := none
  /-- SEC_SESSION.HANDSHAKES, saturating; 16 bits; R373; reset 0. -/
  handshakes : Nat := 0
  /-- SEC_SESSION_CNT.FAILS, saturating; 16 bits; R373; reset 0. -/
  fails : Nat := 0
  /-- SEC_SESSION_CNT.REKEYS, saturating; 16 bits; R373; reset 0. -/
  rekeys : Nat := 0
  /-- REKEY has been sent and no HELLO_H has arrived since; 1 bit; R364; reset 0. -/
  rekeySent : Bool := false
  deriving DecidableEq, Repr

/-- A ledger record to be written (R426). -/
structure LRec where
  /-- 1 STATE, 2 EVENT, 3 TRIM. -/
  kind : Nat
  /-- CAUSE of a STATE record, PART of a TRIM record. -/
  arg : Nat
  /-- LAMP_S and the body as taken. -/
  lampS : Nat
  body : Bytes
  /-- Numbers of the buffer entries that the record carries. -/
  events : List Nat
  /-- The write is the second attempt. -/
  retry : Bool
  deriving DecidableEq, Repr, Inhabited

/-- An entry of the event buffer (R430). -/
structure LEvent where
  msg : Msg
  flags : Nat
  lampS : Nat
  tick : Nat
  /-- Its number in logging order, from 1 on; 0 for an entry rebuilt at START. -/
  no : Nat := 0
  /-- An EVENT record that carries it has been written (R433, R439). -/
  written : Bool := false
  deriving DecidableEq, Repr, Inhabited

/-- A checkpoint trigger that waits (R434): periodic, PFW_N, PARK or another request. -/
structure Trigger where
  periodic : Bool
  pfw : Bool
  park : Bool
  other : Bool
  deriving DecidableEq, Repr, Inhabited

/-- The lifetime ledger (R426 to R441). -/
structure Ledg where
  /-- LEDG_STATUS.STATE_RESTORED; 1 bit; R439; reset 0. -/
  stateRestored : Bool := false
  /-- LEDG_STATUS.TRIM_RESTORED; 1 bit; R439; reset 0. -/
  trimRestored : Bool := false
  /-- Records of the checkpoint that runs, LEDG_STATUS.BUSY while any; R433, R434; reset none. -/
  work : List LRec := []
  /-- What triggered the running checkpoint; R433; reset none. -/
  running : Option Trigger := none
  /-- The trigger that waits; R434; reset none. -/
  waiting : Option Trigger := none
  /-- LEDG_STATUS.TRIM_PENDING: the pending image, 384 record bodies; R432, R439; reset none. -/
  image : Option (List Bytes) := none
  /-- The image whose TRIM records are being written, 384 record bodies; R433, R434; reset none. -/
  writing : Option (List Bytes) := none
  /-- LEDG_SEQ; 32 bits; R439; reset 0. -/
  seq : Nat := 0
  /-- Write pointers of rings 0 and 1, sector index 0 to 1,023; R427; reset 0, restored from the flash. -/
  ptr0 : Nat := 0
  ptr1 : Nat := 0
  /-- The last record written: 4,096 bytes, and its flash address; R426; reset DESIGN CHOICE empty (log 9). -/
  lastRec : Bytes := []
  lastAddr : Nat := 0
  /-- Sectors of rings 0 and 1 that stand erased from their write pointers on; R427; reset 0, until the rings have been read. -/
  erased0 : Nat := 0
  erased1 : Nat := 0
  /-- Sectors of ring 1 that hold the newest complete image, and those of the image being written; R428; reset none, the first
  restored from the flash. -/
  imgSectors : List Nat := []
  curSectors : List Nat := []
  /-- Lamp clock in ms at cycle lampAt; R436; reset 0, restored from the ledger. -/
  lampBase : Nat := 0
  lampAt : Nat := 0
  /-- ANCHOR_UTC, 0 when none; 64 bits; R429, R437; reset 0, restored from the ledger. -/
  anchorUtc : Nat := 0
  /-- ANCHOR_CLOCK; 64 bits; R429, R437; reset 0, restored from the ledger. -/
  anchorClock : Nat := 0
  /-- LEDG_COUNT.CHECKPOINTS, saturating; 16 bits; R439; reset 0. -/
  checkpoints : Nat := 0
  /-- LEDG_COUNT.TRIM_IMAGES, saturating; 16 bits; R439; reset 0. -/
  trimImages : Nat := 0
  /-- LEDG_FAIL.WRITE_FAILS, saturating; 8 bits; R439; reset 0. -/
  writeFails : Nat := 0
  /-- LEDG_FAIL.TAG_FAILS, saturating; 8 bits; R439; reset 0. -/
  tagFails : Nat := 0
  /-- LEDG_FAIL.POISONED, saturating; 8 bits; R439; reset 0. -/
  poisoned : Nat := 0
  /-- The event buffer, oldest first, at most 256; R430; reset empty, restored from the ledger. -/
  events : List LEvent := []
  /-- Entries logged since restart, which number them; LEDG_STATUS.EVENTS counts those of the buffer not yet written; R433, R439;
  reset 0. -/
  logged : Nat := 0
  /-- The records have been read in this START; 1 bit; R428, R430, R436; reset 0. -/
  recordsRead : Bool := false
  /-- STARTS, saturating; 32 bits; R429; reset 0, restored from the ledger. -/
  starts : Nat := 0
  /-- PARKS, saturating; 32 bits; R429; reset 0, restored from the ledger. -/
  parks : Nat := 0
  /-- ARRAY_ON in timebase cycles; R429; reset 0, restored from the ledger. -/
  arrayOn : Nat := 0
  /-- Cycle from which SAFE, asserted, counts into ARRAY_ON; R429; reset none. -/
  safeFrom : Option Nat := none
  /-- TMAX, 1/16 °C; 16 bits signed; R429; reset DESIGN CHOICE −32,768 (log 9: below every reading), restored from the ledger. -/
  tmax : Int := -32768
  /-- THERMAL, 16 counts, saturating; 16 × 32 bits; R429, R431; reset 0, restored from the ledger. -/
  thermal : List Nat := List.replicate 16 0
  /-- Thermal tracking: rising (true) or falling, the extreme so far, the last trough, the last peak; R431; reset DESIGN CHOICE none (log 9). -/
  cycle : Option (Bool × Int × Int × Int) := none
  /-- KINDS, 64 counts, saturating; 64 × 32 bits; R429; reset 0, restored from the ledger. -/
  kinds : List Nat := List.replicate 64 0
  /-- CAL_HIST, newest first, at most 8: LAMP_S, T_ARR, skipped, misses, accepted, LIMITED; R429; reset none, restored from the ledger. -/
  calHist : List (List Nat) := []
  /-- TILE_ON by tile in timebase cycles; R429; reset 0, restored from the ledger. -/
  tileOn : SMap Nat := []
  /-- Masks that TRIM passes have handed over and no LEDGER entry has packed yet, by pixel; R432; reset none. -/
  toPack : SMap (BitVec 12) := []
  deriving DecidableEq, Repr

/-- Where the flash loader stands (R393). -/
inductive Load where
  /-- Before the headers are read. -/
  | idle
  /-- SIGNATURE of the slot is next. -/
  | signature
  /-- Section number `n` of the order of R393 is next. -/
  | sections (n : Nat)
  /-- Every section is verified, or SYMBOLS is skipped or failed. -/
  | done
  /-- Nothing further is read: no image, or the leading light is lit. -/
  | halted
  deriving DecidableEq, Repr, Inhabited

/-- The flash loader and the configuration store (R375 to R407). -/
structure Cfg where
  /-- What was read of slot A and slot B; R391; reset none. -/
  headA : Option SlotHead := none
  headB : Option SlotHead := none
  /-- The slot being loaded or in force is B, from which CFG_STATUS.SLOT follows; 1 bit; R391, R407; reset 0. -/
  slotB : Bool := false
  /-- CFG_STATUS.FALLBACK; 1 bit; R407; reset 0. -/
  fallback : Bool := false
  /-- CFG_STATUS.A_CAND and B_CAND; 1 bit each; R407; reset 0. -/
  candA : Bool := false
  candB : Bool := false
  /-- Reasons why slots A and B are invalid, 0 while they are not; 4 bits each; R405; reset 0. -/
  whyA : Nat := 0
  whyB : Nat := 0
  /-- Where the loader stands; R393; reset before the headers. -/
  load : Load := .idle
  /-- SIGNATURE of the image is verified; 1 bit; R356; reset 0. -/
  signed : Bool := false
  /-- The root and signer public keys of the image; 2 × 512 bits; R356; reset none. -/
  rootKey : Bytes := []
  signerKey : Bytes := []
  /-- Sections verified and in force, bit ID; 14 bits; R407; reset 0. -/
  verified : BitVec 16 := 0
  /-- Content of the verified sections by ID: the plaintext; of GAIN_MAP the 768 bytes of tile gains, of SYMBOLS
  its header and entries, their rest standing in layer memory; R390, R125, R149; reset none. -/
  sects : SMap Bytes := []
  /-- The image's content key; 256 bits; R358; reset none. -/
  contentKey : Option Bytes := none
  /-- SYMBOLS failed or is skipped; 1 bit; R396; reset 0. -/
  symbolsOff : Bool := false
  /-- CFG_STATUS.NO_IMAGE; 1 bit; R407; reset 0. -/
  noImage : Bool := false
  /-- CFG_FAIL: reason, section, slot B; 4, 5, 1 bits; R407; reset 0. -/
  failReason : Nat := 0
  failSection : Nat := 0
  failSlotB : Bool := false
  /-- CFG_START.TICK0 in units of 10 µs; 16 bits; R407; reset 0. -/
  tick0 : Nat := 0
  /-- CFG_START.VERIFIED in units of 10 µs; 16 bits; R407; reset 0. -/
  verifiedAt : Nat := 0
  /-- CFG_STATUS.ALL_VERIFIED; 1 bit; R407; reset 0. -/
  allVerified : Bool := false
  /-- CFG_SECT_SEL.ID; 5 bits; R407; reset 0. -/
  sectSel : Nat := 0
  /-- CFG_FLASH.OCTAL; 1 bit; R407; reset 0. -/
  octal : Bool := false
  /-- CFG_FLASH.CLOCK_MHZ; 8 bits; R407; reset 0. -/
  mhz : Nat := 0
  /-- CFG_FLASH.READ_RETRIES, saturating; 16 bits; R407; reset 0. -/
  retries : Nat := 0
  /-- Repeats of the read under way, before the headers are read of the headers of slots A and B; R375; reset 0. -/
  tries : Nat := 0
  triesB : Nat := 0
  /-- Repeats of the read of the directories of slots A and B; R375; reset 0. -/
  triesDir : Nat := 0
  triesDirB : Nat := 0
  /-- The directory of slot A, or B, did not read; 1 bit each; R375, R391; reset 0. -/
  dirFailA : Bool := false
  dirFailB : Bool := false
  /-- CFG_IMG_ADDR.ADDR; 26 bits; R407; reset 0. -/
  imgAddr : Nat := 0
  /-- CFG_FLASH.IMG_READY; 1 bit; R407; reset 0. -/
  imgReady : Bool := false
  /-- The word fetched for CFG_IMG_DATA; 32 bits; R407; reset 0. -/
  imgWord : Word := 0
  /-- The rollback steps of the image are being fused after a periodic checkpoint; 1 bit; R392; reset 0. -/
  fuseDue : Bool := false
  /-- The leading light has lit in START; 1 bit; R399; reset 0. -/
  startLit : Bool := false
  deriving DecidableEq, Repr

/-- What waits for the KEEP clock: an injection or a drill whose GO was written while it did not run (R466), a tile that joins the
exclusion mask of the leading-light control, the KEEPER_TABLE that takes effect, and the slot that is abandoned with it (R16). -/
inductive KeepWork where
  | inject (head : BitVec 16) (addr : Word)
  | drill (unit_ tile : Nat)
  | exclude (tile : Nat)
  | tableLoaded
  | tableAbandoned
  deriving DecidableEq, Repr, Inhabited

/-- The states of the JTAG TAP (R491), those of IEEE 1149.1 (PRESUMED, log 134). -/
inductive Tap where
  | reset | idle | selectDr | captureDr | shiftDr | exit1Dr | pauseDr | exit2Dr | updateDr
  | selectIr | captureIr | shiftIr | exit1Ir | pauseIr | exit2Ir | updateIr
  deriving DecidableEq, Repr, Inhabited

/-- The TEST block (R466 to R474) and the JTAG TAP (R491). -/
structure Test where
  /-- TEST_STATUS.TEST_EN; 1 bit; R473; reset 0. -/
  testEn : Bool := false
  /-- TEST_CREDIT.HOLD0; 4 bits; R473; reset 0. -/
  hold0 : Nat := 0
  /-- TEST_CREDIT.HOLD1; 6 bits; R473; reset 0. -/
  hold1 : Nat := 0
  /-- TEST_DRAM.COMP_DELAY; 10 bits; R473; reset 0. -/
  compDelay : Nat := 0
  /-- TEST_DRAM.GAIN_DELAY; 10 bits; R473; reset 0. -/
  gainDelay : Nat := 0
  /-- TEST_COMMIT.COMMIT_DELAY; 16 bits; R473; reset 0. -/
  commitDelay : Nat := 0
  /-- TEST_JITTER.JITTER; 5 bits; R473; reset 0. -/
  jitter : Nat := 0
  /-- TEST_JITTER.SEED; 16 bits; R473; reset 0. -/
  seed : Nat := 0
  /-- The jitter LFSR; 16 bits; R470; reset DESIGN CHOICE 0xACE1 (log 9: the seed that SEED 0 loads). -/
  lfsr : Nat := 0xACE1
  /-- TEST_INJECT0.ADDRESS; 32 bits; R473; reset 0. -/
  injAddr : Word := 0
  /-- TEST_INJECT1 SOURCE, KIND, SEV; 16 bits; R473; reset 0. -/
  injHead : BitVec 16 := 0
  /-- TEST_DRILL.UNIT; 2 bits; R473; reset 0. -/
  unit_ : Nat := 0
  /-- TEST_DRILL.TILE; 8 bits; R473; reset 0. -/
  tile : Nat := 0
  /-- TEST_COUNT.DRILLS, saturating; 8 bits; R473; reset 0. -/
  drills : Nat := 0
  /-- TEST_COUNT.DRILL_REFUSED, saturating; 8 bits; R473; reset 0. -/
  drillRefused : Nat := 0
  /-- TEST_COUNT.INJECTED, saturating; 8 bits; R473; reset 0. -/
  injected : Nat := 0
  /-- TEST_COUNT.INJ_REFUSED, saturating; 8 bits; R473; reset 0. -/
  injRefused : Nat := 0
  /-- What waits for the KEEP clock, oldest first; R16, R466; reset none. -/
  later : List KeepWork := []
  /-- State of the TAP; R491; reset DESIGN CHOICE Test-Logic-Reset (log 134). -/
  tap : Tap := .reset
  deriving DecidableEq, Repr

/-- Every block but the cells, layer memory, the fuses and the restart latches. -/
structure Dev where
  /-- Timebase cycles of 5 ns since power-on, the model's own clock; R92, R310, R436; reset 0 at power-on (log 2). -/
  now : Nat := 0
  /-- Cycle of time 0 of the start sequence; R397; reset 0 until START_TIME_ZERO. -/
  timeZero : Nat := 0
  /-- LB_REQ filtered; 1 bit; R401; reset DESIGN CHOICE 0 (log 9). -/
  lb : Bool := false
  /-- HB_REQ filtered; 1 bit; R401; reset DESIGN CHOICE 0 (log 9). -/
  hb : Bool := false
  evt : Evt := {}
  mgmt : Mgmt := {}
  pwr : Pwr := {}
  keep : Keep := {}
  /-- The tile controllers by tile index; R26, R53; reset as Tile. -/
  tiles : SMap Tile := []
  arr : Arr := {}
  frm : Frm := {}
  eng : Eng := {}
  comp : Comp := {}
  link : Link := {}
  fw : Fw := {}
  wit : Wit := {}
  memc : Memc := {}
  cal : Cal := {}
  diag : Diag := {}
  chg : Chg := {}
  chk : Chk := {}
  sec : Sec := {}
  ses : Ses := {}
  ledg : Ledg := {}
  cfg : Cfg := {}
  test : Test := {}
  deriving DecidableEq, Repr

/-- The machine: the commands that wait, what fuses, layer memory and cells hold, what only a restart takes back, and the
blocks. -/
structure State where
  /-- Commands waiting, the next one first; the model's own field; log 1; reset empty. -/
  pending : List Instr := []
  /-- One-time programmable storage; R352, R354, R392; reset as Otp. -/
  otp : Otp := {}
  /-- Layer memory, 896 MiB at 0 to 0x37FF_FFFF; R243, R245; reset nothing written (R245). -/
  mem : Memory := []
  /-- The pixel cells by pixel index; 1,081,344 cells; R30; reset as Cell. -/
  cells : SMap Cell := []
  lat : Latches := {}
  dev : Dev := {}
  deriving DecidableEq, Repr

/-- Why a step can stop with a fault. -/
inductive Fault where
  /-- A port request names an address at which layer memory has no granule: at or above 0x3800_0000, or not a
  multiple of 32 (R243, R246). Raised by MEM_REQUEST. Safe: no such access exists in the part. -/
  | noGranule (addr : Nat)
  deriving DecidableEq, Repr

/-- Why a step can be refused. -/
inductive Refusal where
  /-- The command of this mnemonic has no meaning in the model. Raised by arms of exec only. Safe. -/
  | notModelled (mnemonic : String)
  deriving DecidableEq, Repr

/-- The machine right after reset: power has just been applied (R397, R461). -/
def State.reset : State := {}

end Sys2Proof.Machine
end

