-- ==== Sys2Proof/Machine/Ops.lean ====
section
/-! DEFINITION. The named operations that every family uses: geometry (R3 to R6, R36), events (R450, R451), fault
messages on their way (R300), layer memory by byte and granule, cells and tiles, and the lamp clock. -/

namespace Sys2Proof.Machine

/-! ## Changing one part of the state -/

/-- Change the blocks alone. -/
def State.onDev (s : State) (f : Dev → Dev) : State := { s with dev := f s.dev }

/-! Change one block. -/

/-- Change the state of block `evt`. -/
def Dev.onEvt (d : Dev) (f : Evt → Evt) : Dev := { d with evt := f d.evt }
/-- Change the state of block `mgmt`. -/
def Dev.onMgmt (d : Dev) (f : Mgmt → Mgmt) : Dev := { d with mgmt := f d.mgmt }
/-- Change the state of block `pwr`. -/
def Dev.onPwr (d : Dev) (f : Pwr → Pwr) : Dev := { d with pwr := f d.pwr }
/-- Change the state of block `keep`. -/
def Dev.onKeep (d : Dev) (f : Keep → Keep) : Dev := { d with keep := f d.keep }
/-- Change the state of block `frm`. -/
def Dev.onFrm (d : Dev) (f : Frm → Frm) : Dev := { d with frm := f d.frm }
/-- Change the state of block `eng`. -/
def Dev.onEng (d : Dev) (f : Eng → Eng) : Dev := { d with eng := f d.eng }
/-- Change the state of block `comp`. -/
def Dev.onComp (d : Dev) (f : Comp → Comp) : Dev := { d with comp := f d.comp }
/-- Change the state of block `link`. -/
def Dev.onLink (d : Dev) (f : Link → Link) : Dev := { d with link := f d.link }
/-- Change the state of block `fw`. -/
def Dev.onFw (d : Dev) (f : Fw → Fw) : Dev := { d with fw := f d.fw }
/-- Change the state of block `wit`. -/
def Dev.onWit (d : Dev) (f : Wit → Wit) : Dev := { d with wit := f d.wit }
/-- Change the state of block `memc`. -/
def Dev.onMemc (d : Dev) (f : Memc → Memc) : Dev := { d with memc := f d.memc }
/-- Change the state of block `cal`. -/
def Dev.onCal (d : Dev) (f : Cal → Cal) : Dev := { d with cal := f d.cal }
/-- Change the state of block `chg`. -/
def Dev.onChg (d : Dev) (f : Chg → Chg) : Dev := { d with chg := f d.chg }
/-- Change the state of block `chk`. -/
def Dev.onChk (d : Dev) (f : Chk → Chk) : Dev := { d with chk := f d.chk }
/-- Change the state of block `sec`. -/
def Dev.onSec (d : Dev) (f : Sec → Sec) : Dev := { d with sec := f d.sec }
/-- Change the state of block `ses`. -/
def Dev.onSes (d : Dev) (f : Ses → Ses) : Dev := { d with ses := f d.ses }
/-- Change the state of block `ledg`. -/
def Dev.onLedg (d : Dev) (f : Ledg → Ledg) : Dev := { d with ledg := f d.ledg }
/-- Change the state of block `cfg`. -/
def Dev.onCfg (d : Dev) (f : Cfg → Cfg) : Dev := { d with cfg := f d.cfg }
/-- Change the state of block `test`. -/
def Dev.onTest (d : Dev) (f : Test → Test) : Dev := { d with test := f d.test }
/-- Change the state of block `arr`. -/
def Dev.onArr (d : Dev) (f : Arr → Arr) : Dev := { d with arr := f d.arr }
/-- Change the state of block `diag`. -/
def Dev.onDiag (d : Dev) (f : Diag → Diag) : Dev := { d with diag := f d.diag }

/-- Change one tile controller. -/
def Dev.onTile (d : Dev) (t : Nat) (f : Tile → Tile) : Dev := { d with tiles := SMap.upd {} d.tiles t f }

/-- A tile controller. -/
def Dev.tile (d : Dev) (t : Nat) : Tile := SMap.get {} d.tiles t

/-- Change every tile controller. -/
def Dev.onTiles (d : Dev) (f : Nat → Tile → Tile) : Dev :=
  { d with tiles := SMap.updAll {} d.tiles (List.range 192) f }

/-- Change the restart latches. -/
def State.onLat (s : State) (f : Latches → Latches) : State := { s with lat := f s.lat }

/-- A pixel cell. -/
def State.cell (s : State) (p : Nat) : Cell := SMap.get {} s.cells p

/-! ## Geometry -/

/-- Pixels of the array, columns, rows, tiles (R25, R26). -/
def nPixels : Nat := 1081344
def nCols : Nat := 1536
def nRows : Nat := 704
def nTiles : Nat := 192

/-- Pixel index of (x, y) (R5). -/
def pixelIdx (x y : Nat) : Nat := y * 1536 + x

/-- Tile of a pixel (R5). -/
def tileOf (p : Nat) : Nat := (p / 1536 / 88) * 24 + p % 1536 / 64

/-- Tile-local index ly × 64 + lx of a pixel (R5, R263). -/
def localOf (p : Nat) : Nat := (p / 1536 % 88) * 64 + p % 1536 % 64

/-- The pixel of tile `t` at tile-local index `i`. -/
def pixelAt (t i : Nat) : Nat := pixelIdx ((t % 24) * 64 + i % 64) ((t / 24) * 88 + i / 64)

/-- Chain of a pixel in its tile (R36). -/
def chainOf (p : Nat) : Nat := p % 64 / 16

/-- The pixel of chain `k` of tile `t` at position `j` (R36). -/
def pixelOnChain (t k j : Nat) : Nat := pixelAt t ((j / 16) * 64 + 16 * k + j % 16)

/-- Positions of a chain (R36). -/
def chainLen : Nat := 1408

/-- Quad index of a pixel (R5). -/
def quadOf (p : Nat) : Nat := (p / 1536 / 2) * 768 + p % 1536 / 2

/-- Temperature sensor of a tile (R5). -/
def sensorOf (t : Nat) : Nat := (t / 24 / 2) * 12 + t % 24 / 2

/-- A pixel that carries a warm-white emitter (R6). -/
def isWarm (p : Nat) : Bool := (p % 1536 + p / 1536) % 2 == 0

/-- The 4-neighbours of a pixel (R5). -/
def neighbours (p : Nat) : List Nat :=
  (if p % 1536 = 0 then [] else [p - 1]) ++ (if p % 1536 = 1535 then [] else [p + 1]) ++
  (if p < 1536 then [] else [p - 1536]) ++ (if p / 1536 = 703 then [] else [p + 1536])

/-- Chains that exist, tile × 4 + chain. -/
def tileRow (ty : Nat) : List Nat := (List.range 24).map (fun i => ty * 24 + i)

/-! ## Events and fault messages -/

/-- The reserved events, which are never raised (R450). -/
def reservedEvent (n : Nat) : Bool :=
  (decide (19 ≤ n) && decide (n ≤ 23)) || (decide (48 ≤ n) && decide (n ≤ 51)) || n == 87 || n == 95 || n == 103 ||
  n == 110 || n == 111 || decide (128 ≤ n)

/-- Raise event `n` (R451, R456). -/
def Evt.raise (e : Evt) (n : Nat) : Evt :=
  if reservedEvent n then e
  else { e with pend := e.pend ||| (1#128 <<< n), last := n, raised := satInc 65535 e.raised }

/-- Raise event `n`. -/
def Dev.raise (d : Dev) (n : Nat) : Dev := { d with evt := d.evt.raise n }

/-- Raise event `n` when `c` holds. -/
def Dev.raiseIf (d : Dev) (c : Bool) (n : Nat) : Dev := if c then d.raise n else d

/-- A fault message (R298). -/
def mkMsg (source kind sev addr : Nat) : Msg :=
  { source := BitVec.ofNat 8 source, kind := BitVec.ofNat 6 kind, sev := BitVec.ofNat 2 sev, addr := BitVec.ofNat 32 addr }

/-- Send a fault message towards the FIFO of its source (R300). -/
def Dev.send (d : Dev) (source kind sev addr : Nat) : Dev :=
  { d with keep := { d.keep with transit := d.keep.transit ++ [mkMsg source kind sev addr] } }

/-- Send a message on the direct path of the lamp changer and the Keeper (R300). -/
def Dev.sendDirect (d : Dev) (source kind sev addr : Nat) : Dev :=
  { d with keep := { d.keep with direct := d.keep.direct ++ [mkMsg source kind sev addr] } }

/-- The witness stream stops, with its event and message (R20, R204, R241). -/
def Dev.witnessStop (d : Dev) : Dev :=
  if d.wit.running then
    ((d.onWit (fun w => { w with running := false, waiting := false, statsDue := false, late := [], stops := satInc 65535 w.stops })).raise 38).send
      0xC6 0x24 0 0
  else d.onWit (fun w => { w with waiting := false })

/-! ## Layer memory -/

/-- One past the last address of layer memory (R243). -/
def memTop : Nat := 0x38000000

/-- The canonical form: addresses strictly rising and inside layer memory. -/
def Memory.wf (m : Memory) : Bool := SMap.sorted 0 m && m.all (fun c => decide (c.1 < memTop))

/-- The byte written at an address since the restart, if any. -/
def Memory.read : Memory → Nat → Option Byte
  | [], _ => none
  | (a, b) :: m, k => if k = a then some b else Memory.read m k

/-- Write one byte; an address outside layer memory does not exist and takes nothing. -/
def Memory.write (m : Memory) (a : Nat) (b : Byte) : Memory := if a < memTop then SMap.insert a b m else m

/-- Write a run of bytes from address `a`; what would lie beyond layer memory takes nothing. -/
def Memory.writeAll (m : Memory) (a : Nat) (bs : Bytes) : Memory :=
  let bs := bs.take (memTop - a)
  m.filter (fun c => decide (c.1 < a)) ++ (bs.zipIdx a).map (fun e => (e.2, e.1)) ++
    m.filter (fun c => decide (a + bs.length ≤ c.1))

/-- The pixel health map, which reads as 0 until it is written: the reset of DIAG_MAP_DATA, and GLITCH counts since restart
(R245, R295, R296). -/
def inHealthMap (a : Nat) : Bool := decide (0x36000000 ≤ a) && decide (a < 0x36108000)

/-- A byte as draw `n` reads it: what was written, or a free value (R245, log 5). -/
def Memory.byte (m : Memory) (n a : Nat) : Byte :=
  match m.read a with
  | some b => b
  | none => if inHealthMap a then 0 else Config.unwrittenByte n a

/-- `len` bytes from address `a`. -/
def Memory.bytes (m : Memory) (n a : Nat) : Nat → Bytes
  | 0 => []
  | len + 1 => m.byte n a :: Memory.bytes m n (a + 1) len

/-- The writes that a channel has taken and not yet carried out, oldest first in every granule (R249, R250). -/
def Chan.writes (x : Chan) : List Req := (x.queue ++ x.writeQ).filter (·.write)

/-- Layer memory as a read that enters now finds it: no read returns data older than a write that entered before it (R250). -/
def State.memNow (s : State) : Memory :=
  s.dev.memc.chans.foldl (fun m c => c.writes.foldl (fun m r => m.writeAll r.addr r.data) m) s.mem

/-- A queued write to a granule that a later write reaches carries the later bytes (R250). -/
def Req.patch (a : Nat) (bs : Bytes) (r : Req) : Req :=
  { r with data := r.data.mapIdx (fun i b => if r.write ∧ a ≤ r.addr + i then bs.getD (r.addr + i - a) b else b) }

/-- Write bytes behind every write that has entered (R250). -/
def State.writeMem (s : State) (a : Nat) (bs : Bytes) : State :=
  let patch (c : Chan) : Chan := { c with queue := c.queue.map (Req.patch a bs), writeQ := c.writeQ.map (Req.patch a bs) }
  { s with mem := s.mem.writeAll a bs, dev := s.dev.onMemc (fun m => { m with chans := m.chans.map patch }) }

/-! ## The clock of the model -/

/-- Timebase cycles in one microsecond and one millisecond (R17). -/
def cyclesPerUs : Nat := 200
def cyclesPerMs : Nat := 200000

/-- The lamp clock in ms (R436). -/
def Dev.lampMs (d : Dev) : Nat := d.ledg.lampBase + (d.now - d.ledg.lampAt) / cyclesPerMs

/-- The lamp clock in s (R436, R439). -/
def Dev.lampS (d : Dev) : Nat := d.lampMs / 1000

/-- Bytes of a random draw (R352, R359, R368). -/
def randomBytes (draw : Nat) (n : Nat) : Bytes := (List.range n).map (Config.randomByte draw)

/-- The MZN1080 is in RUN, whatever its power state: tick 0 has fallen (R400). -/
def Dev.inStart (d : Dev) : Bool := !d.frm.ticked

/-- The active beam engine is B (R134). -/
def Dev.engineB (d : Dev) : Bool := d.chg.eng.b == .active

/-- Keeper source of the active beam engine (R146). -/
def Dev.engineSource (d : Dev) : Nat := if d.engineB then 0xC1 else 0xC0

/-- Tiles that are dark. -/
def Dev.isDark (d : Dev) (t : Nat) : Bool := (d.tile t).dark

/-- Tiles that are not dark, in increasing order. -/
def Dev.litTiles (d : Dev) : List Nat := (List.range 192).filter (fun t => !d.isDark t)

end Sys2Proof.Machine
end

