-- ==== Sys2Proof/Machine/Operands.lean ====
section
/-! DEFINITION. The operand forms: words and fields of the light-list sections (R159, R164, R278, R301, R343, R379 to
R389), of layer descriptors (R108), of schedule entries (R160), and the defaults that their layouts state. -/

namespace Sys2Proof.Machine

/-! ## Image header and directory (R378 to R380) -/

/-- The slot being loaded or in force, as it was read. -/
def Cfg.head (c : Cfg) : SlotHead := ((if c.slotB then c.headB else c.headA).getD ⟨[], []⟩)

/-- `n` bytes at offset `i` of a header, as a number. -/
def hdrField (h : SlotHead) (i n : Nat) : Nat := beNat (slice h.header i n)

/-- VERSION (R379). -/
def hdrVersion (h : SlotHead) : Nat := hdrField h 8 4
/-- ROLLBACK (R379). -/
def hdrRollback (h : SlotHead) : Nat := hdrField h 12 1
/-- IMAGE_LEN (R379). -/
def hdrImageLen (h : SlotHead) : Nat := hdrField h 16 4
/-- SERIAL (R379). -/
def hdrSerial (h : SlotHead) : Nat := hdrField h 20 8

/-- The 48 bytes of directory entry `id`, 1 to 14 (R380). -/
def dirEntry (h : SlotHead) (id : Nat) : Bytes := slice h.dir (48 * (id - 1)) 48
/-- ID (R380). -/
def dirId (h : SlotHead) (id : Nat) : Nat := beNat (slice (dirEntry h id) 0 1)
/-- FLAGS (R380). -/
def dirFlags (h : SlotHead) (id : Nat) : Nat := beNat (slice (dirEntry h id) 1 1)
/-- ENC (R380). -/
def dirEnc (h : SlotHead) (id : Nat) : Bool := bit (dirFlags h id) 0
/-- OFFSET (R380). -/
def dirOffset (h : SlotHead) (id : Nat) : Nat := beNat (slice (dirEntry h id) 4 4)
/-- LENGTH (R380). -/
def dirLength (h : SlotHead) (id : Nat) : Nat := beNat (slice (dirEntry h id) 8 4)
/-- HASH (R380). -/
def dirHash (h : SlotHead) (id : Nat) : Bytes := slice (dirEntry h id) 16 32

/-- Length of the plaintext of a section: the stored bytes less the tag (R380). -/
def plainLength (h : SlotHead) (id : Nat) : Nat := dirLength h id - (if dirEnc h id then 16 else 0)

/-! ## Sections in force -/

/-- A section is verified and in force (R21, R407). -/
def Dev.has (d : Dev) (id : Nat) : Bool := d.cfg.verified.getLsbD id

/-- Content of a verified section; empty until it is (R9). -/
def Dev.sect (d : Dev) (id : Nat) : Bytes := SMap.get [] d.cfg.sects id

/-- Word `i` of a verified section; 0 until it is (R9). -/
def Dev.sw (d : Dev) (id i : Nat) : Nat := wordAt (d.sect id) i

/-! ### SAFE_MASK (R383) -/

/-- IU_NA of a tile: 500 when the section sets 0; 0 until SAFE_MASK is verified. -/
def Dev.iuNa (d : Dev) (t : Nat) : Nat :=
  if d.has 1 then (let v := bits (d.sw 1 (178 * t)) 0 10; if v = 0 then 500 else v) else 0
/-- SAFE_CODE of a tile. -/
def Dev.safeCode (d : Dev) (t : Nat) : Nat := bits (d.sw 1 (178 * t)) 16 6
/-- EXPECTED of a tile. -/
def Dev.safeExpected (d : Dev) (t : Nat) : Nat := bits (d.sw 1 (178 * t + 1)) 0 16
/-- SAFE_COUNT of a tile. -/
def Dev.safeCount (d : Dev) (t : Nat) : Nat := bits (d.sw 1 (178 * t + 1)) 16 13
/-- The 704 mask bytes of a tile. -/
def Dev.safeMask (d : Dev) (t : Nat) : Bytes := slice (d.sect 1) (712 * t + 8) 704

/-- Bit `n` of a run of bytes, most significant bit of the first byte first. -/
def bitOfBytes (bs : Bytes) (n : Nat) : Bool := bit (nth 0 bs (n / 8)).toNat (7 - n % 8)

/-- The safe bit the section gives chain position `j` of chain `k`: return order runs from position 1,407 down (R51). -/
def Dev.safeBit (d : Dev) (t k j : Nat) : Bool := bitOfBytes (d.safeMask t) (k * 1408 + (1407 - j))

/-! ### SCHEDULE and BOUNDS (R159, R160, R164) -/

/-- SYNC role: 0 NONE, 1 MASTER, 2 FOLLOWER. -/
def Dev.syncRole (d : Dev) : Nat := bits (d.sw 2 0) 0 2
/-- Word `i` of mode record `m`. -/
def Dev.modeWord (d : Dev) (m i : Nat) : Nat := d.sw 2 (1 + 4 * m + i)
/-- SLOT_CYC of mode `m`. -/
def Dev.slotCyc (d : Dev) (m : Nat) : Nat := bits (d.modeWord m 0) 0 8
/-- N_BASE of mode `m`. -/
def Dev.nBase (d : Dev) (m : Nat) : Nat := bits (d.modeWord m 0) 8 5
/-- PACING of mode `m`: FIXED. -/
def Dev.fixedPacing (d : Dev) (m : Nat) : Bool := bit (d.modeWord m 0) 13
/-- VALID of mode `m`. -/
def Dev.modeValid (d : Dev) (m : Nat) : Bool := bit (d.modeWord m 0) 14
/-- MIN_PL of mode `m`. -/
def Dev.minPl (d : Dev) (m : Nat) : Nat := bits (d.modeWord m 0) 16 2
/-- FIRST of mode `m`. -/
def Dev.modeFirst (d : Dev) (m : Nat) : Nat := bits (d.modeWord m 1) 0 12
/-- COUNT of mode `m`. -/
def Dev.modeCount (d : Dev) (m : Nat) : Nat := bits (d.modeWord m 1) 16 13

/-- A schedule entry (R160). -/
structure Entry where
  start : Nat
  act : Nat
  dur : Nat
  operand : Nat
  /-- A reserved bit is set. -/
  reserved : Bool
  deriving DecidableEq, Repr, Inhabited

/-- Entry `i` of the table in the bytes of a SCHEDULE section. -/
def entryAt (bs : Bytes) (i : Nat) : Entry :=
  let w0 := wordAt bs (17 + 3 * i)
  let w1 := wordAt bs (18 + 3 * i)
  { start := bits w0 0 22, act := bits w0 24 8, dur := bits w1 0 22, operand := wordAt bs (19 + 3 * i),
    reserved := bits w0 22 2 != 0 || bits w1 22 10 != 0 }

/-- Entry `i` of the schedule in force. -/
def Dev.entry (d : Dev) (i : Nat) : Entry := entryAt (d.sect 2) i

/-- Entry index `i` belongs to the mode in force. -/
def Dev.inMode (d : Dev) (i : Nat) : Bool :=
  decide (d.modeFirst d.frm.mode ≤ i) && decide (i < d.modeFirst d.frm.mode + d.modeCount d.frm.mode)

/-- The deadline of an entry (R160). -/
def Entry.deadline (e : Entry) : Nat := e.start + e.dur

/-- The bounds of R164. -/
def Dev.nLayer (d : Dev) : Nat := bits (d.sw 3 0) 0 5
def Dev.bSteps (d : Dev) : Nat := bits (d.sw 3 0) 8 6
def Dev.nSect (d : Dev) : Nat := bits (d.sw 3 0) 16 7
def Dev.nSym (d : Dev) : Nat := bits (d.sw 3 0) 24 6
def Dev.symArea (d : Dev) : Nat := bits (d.sw 3 1) 0 21
def Dev.fetchBatch (d : Dev) : Nat := bits (d.sw 3 2) 0 20
def Dev.linkRate (d : Dev) : Nat := bits (d.sw 3 3) 0 12
def Dev.slackWarn (d : Dev) : Nat := bits (d.sw 3 3) 16 10

/-! ### LAYERS (R387) -/

/-- MIRROR and FLIP (R114). -/
def Dev.mirror (d : Dev) : Bool := bit (d.sw 4 0) 0
def Dev.flip (d : Dev) : Bool := bit (d.sw 4 0) 1

/-- BANK_MASK k: its default when the section sets 0 (R244). -/
def Dev.bankMask (d : Dev) (k : Nat) : Nat :=
  let raw := if k = 0 then bits (d.sw 4 1) 0 15 else if k = 1 then bits (d.sw 4 1) 16 15 else bits (d.sw 4 2) 0 15
  if raw = 0 then (if k = 0 then 0x0249 else if k = 1 then 0x0492 else 0x0924) else raw

/-- CE_LIMIT (R256). -/
def Dev.ceLimit (d : Dev) : Nat := let v := bits (d.sw 4 2) 16 12; if v = 0 then 64 else v
/-- FB0 and FB1 (R258). -/
def Dev.fb (d : Dev) (n : Nat) : Nat := bits (d.sw 4 3) (8 * n) 8
/-- Watermarks in force COMP, GAIN, LEDG: defaults when the section sets 0 (R247). -/
def Dev.wm (d : Dev) (n : Nat) : Nat :=
  let v := bits (d.sw 4 4) (8 * n) 8
  if v = 0 then (if n = 2 then 4 else 8) else v
/-- Initial descriptor of slot `n`. -/
def Dev.initDesc (d : Dev) (n : Nat) : List Nat := (List.range 8).map (fun i => d.sw 4 (8 + 8 * n + i))
/-- Base and size of buffer `b`; size 0 leaves it undeclared. -/
def Dev.bufBase (d : Dev) (b : Nat) : Nat := d.sw 4 (209 + 2 * b)
def Dev.bufSize (d : Dev) (b : Nat) : Nat := d.sw 4 (210 + 2 * b)
def Dev.declared (d : Dev) (b : Nat) : Bool := decide (b < 256) && d.bufSize b != 0
/-- Scan word `i` of R343. -/
def Dev.scanWord (d : Dev) (i : Nat) : Nat := d.sw 4 (136 + i)

/-! ### Descriptors (R108) -/

/-- Word `i` of a descriptor. -/
def dw (w : List Nat) (i : Nat) : Nat := nth 0 w i
def dEn (w : List Nat) : Bool := bit (dw w 0) 0
def dFmt (w : List Nat) : Nat := bits (dw w 0) 1 4
def dBilin (w : List Nat) : Bool := bit (dw w 0) 5
def dBuf (w : List Nat) : Nat := bits (dw w 0) 8 8
def dAlpha (w : List Nat) : Nat := bits (dw w 0) 16 13
def dOffset (w : List Nat) : Nat := dw w 1
def dStride (w : List Nat) : Nat := bits (dw w 2) 0 16
def dTstride (w : List Nat) : Nat := bits (dw w 2) 16 16
def dToff (w : List Nat) : Nat := dw w 3
def dSw (w : List Nat) : Nat := bits (dw w 4) 0 13
def dSh (w : List Nat) : Nat := bits (dw w 4) 16 13
def dDx (w : List Nat) : Nat := bits (dw w 5) 0 11
def dDy (w : List Nat) : Nat := bits (dw w 5) 16 10
def dDw (w : List Nat) : Nat := bits (dw w 6) 0 11
def dDh (w : List Nat) : Nat := bits (dw w 6) 16 10
def dLvalue (w : List Nat) : Nat := bits (dw w 7) 0 20
def dLgain (w : List Nat) : Nat := bits (dw w 7) 20 12

/-- A reserved bit of a descriptor is set (R108). -/
def dReserved (w : List Nat) : Bool :=
  bits (dw w 0) 6 2 != 0 || bits (dw w 0) 29 3 != 0 || bits (dw w 4) 13 3 != 0 || bits (dw w 4) 29 3 != 0 ||
  bits (dw w 5) 11 5 != 0 || bits (dw w 5) 26 6 != 0 || bits (dw w 6) 11 5 != 0 || bits (dw w 6) 26 6 != 0

/-- The format has a tint plane: YT12, YT16, FRBT (R111). -/
def fmtTint (f : Nat) : Bool := f == 3 || f == 4 || f == 9
/-- FRB and FRBT (R111). -/
def fmtFrb (f : Nat) : Bool := f == 8 || f == 9
/-- A4, A8 and M1 (R111). -/
def fmtAlpha (f : Nat) : Bool := f == 5 || f == 6 || f == 7
/-- Bits per pixel (R111). -/
def fmtBpp (f : Nat) : Nat :=
  if f = 0 ∨ f = 6 then 8 else if f = 1 ∨ f = 3 then 12 else if f = 2 ∨ f = 4 then 16 else if f = 7 then 1 else 4

/-! ### BLEND (R386), TINT (R385), LIMITS (R384), WARP (R140), STANDALONE (R389), WEAR_MODEL (R278) -/

/-- NPROG. -/
def Dev.nProg (d : Dev) : Nat := bits (d.sw 5 0) 8 4
/-- The blend order after restart: none FIXED, some k a program. -/
def Dev.initBlend (d : Dev) : Option Nat := if bit (d.sw 5 0) 0 then some (bits (d.sw 5 0) 1 3) else none
/-- Word `i` of program `n`. -/
def Dev.progWord (d : Dev) (n i : Nat) : Nat := d.sw 5 (1 + 32 * n + i)

/-- T_MIN, T_MAX, T_DEFAULT; an empty section takes the values of R381. -/
def Dev.tMin (d : Dev) : Nat := bits (d.sw 8 0) 0 8
def Dev.tMax (d : Dev) : Nat := if d.has 8 && (d.sect 8).isEmpty then 255 else bits (d.sw 8 0) 8 8
def Dev.tDefault (d : Dev) : Nat := if d.has 8 && (d.sect 8).isEmpty then 128 else bits (d.sw 8 0) 16 8

/-- CEILING, TARGET_MV, SYM_CEIL, KNEE, BOOST with their defaults. -/
def Dev.ceilingMa (d : Dev) : Nat := bits (d.sw 9 0) 0 16
def Dev.targetMv (d : Dev) : Nat := if d.has 9 then (let v := bits (d.sw 9 0) 16 9; if v = 0 then 350 else v) else 0
def Dev.symCeil (d : Dev) : Nat := bits (d.sw 9 1) 0 20
def Dev.knee (d : Dev) : Nat := if d.has 9 then (let v := bits (d.sw 9 1) 24 6; if v = 0 then 16 else v) else 0
def Dev.boost (d : Dev) : Nat := bits (d.sw 9 2) 0 11
/-- The foldback curve: TEMP signed in 1/16 °C and FACTOR; the curve of R77 when the section carries none. -/
def Dev.foldback (d : Dev) : List (Int × Nat) :=
  let n := bits (d.sw 9 3) 0 4
  if n = 0 then [(1760, 4096), (2000, 1024)]
  else (List.range n).map (fun i => let w := d.sw 9 (4 + i); (sext 12 w, bits w 16 13))
/-- w_t. -/
def Dev.weight (d : Dev) (t : Nat) : Nat := bits (d.sw 9 (12 + t / 4)) (8 * (t % 4)) 8

/-- FRESH: 2 when the section sets 0. -/
def Dev.fresh (d : Dev) : Nat := if d.has 6 then (let v := bits (d.sw 6 0) 0 3; if v = 0 then 2 else v) else 0
/-- POLICY. -/
def Dev.policy (d : Dev) : Nat := bits (d.sw 6 0) 4 2
/-- H and V of node (i, j). -/
def Dev.nodeH (d : Dev) (i j : Nat) : Int := sext 16 (d.sw 6 (1 + 33 * j + i))
def Dev.nodeV (d : Dev) (i j : Nat) : Int := sext 16 (bits (d.sw 6 (1 + 33 * j + i)) 16 16)

/-- IDLE_BEAM. -/
def Dev.idleBeam (d : Dev) : Bool := bit (d.sw 13 0) 0
/-- LOW and HIGH values of quad `q`, and its dip bit. -/
def Dev.lowByte (d : Dev) (q : Nat) : Nat := (nth 0 (d.sect 13) (32 + q)).toNat
def Dev.highByte (d : Dev) (q : Nat) : Nat := (nth 0 (d.sect 13) (270368 + q)).toNat
def Dev.dipBit (d : Dev) (q : Nat) : Bool := bit (nth 0 (d.sect 13) (540704 + q / 8)).toNat (7 - q % 8)

/-- EN, NQ, NT of WEAR_MODEL. -/
def Dev.wearEn (d : Dev) : Bool := bit (d.sw 11 0) 0
def Dev.wearNq (d : Dev) : Nat := bits (d.sw 11 0) 4 4
def Dev.wearNt (d : Dev) : Nat := bits (d.sw 11 0) 8 3
/-- The temperature points: TEMP and WEIGHT. -/
def Dev.wearTemps (d : Dev) : List (Int × Nat) :=
  (List.range d.wearNt).map (fun i => let w := d.sw 11 (1 + i); (sext 12 w, bits w 16 12))
/-- The uplift points: QEFF in units of 16 C and UPLIFT. -/
def Dev.wearUplifts (d : Dev) : List (Nat × Nat) :=
  (List.range d.wearNq).map (fun i => let w := d.sw 11 (5 + i); (bits w 0 22, bits w 22 10))

/-- Tile gain of a tile: bits [15:0] of its word (R125). -/
def Dev.tileGain (d : Dev) (t : Nat) : Nat := bits (d.sw 7 t) 0 16

/-! ### SYMBOLS (R149, R388) -/

/-- NENT. -/
def Dev.nEnt (d : Dev) : Nat := bits (d.sw 12 0) 0 13
/-- Word `i` of library entry `n`. -/
def Dev.entWord (d : Dev) (n i : Nat) : Nat := d.sw 12 (4 + 4 * n + i)

/-! ### KEEPER_TABLE (R301) -/

/-- COUNT. -/
def Dev.keepCount (d : Dev) : Nat := bits (d.sw 10 0) 0 9
/-- DEFn; 0 selects the built-in default. -/
def Dev.keepDef (d : Dev) (n : Nat) : Nat := bits (d.sw 10 (1 + n)) 0 10

/-- An entry of the table. -/
structure KEntry where
  lo : Nat
  hi : Nat
  kind : Nat
  sev : Nat
  react : Nat
  deriving DecidableEq, Repr, Inhabited

/-- Entry `e` in the bytes of a KEEPER_TABLE section. -/
def kEntryAt (bs : Bytes) (e : Nat) : KEntry :=
  let w := wordAt bs (5 + 2 * e)
  { lo := bits w 0 8, hi := bits w 8 8, kind := bits w 16 6, sev := bits w 22 2, react := bits (wordAt bs (6 + 2 * e)) 0 10 }

/-- The entries in force. -/
def Dev.keepEntries (d : Dev) : List KEntry := (List.range d.keepCount).map (kEntryAt (d.sect 10))

/-! ### KEYS (R357) -/

/-- The counts N_SVC, N_MKR, N_CA, N_DENY, N_WRAP and MIN_MODE. -/
def Dev.nSvc (d : Dev) : Nat := bits (d.sw 14 0) 0 4
def Dev.nMkr (d : Dev) : Nat := bits (d.sw 14 0) 4 4
def Dev.nCa (d : Dev) : Nat := bits (d.sw 14 0) 8 4
def Dev.nDeny (d : Dev) : Nat := bits (d.sw 14 0) 12 5
def Dev.nWrap (d : Dev) : Nat := bits (d.sw 14 0) 17 5
def Dev.minMode (d : Dev) : Nat := bits (d.sw 14 0) 22 2
/-- Public key number `i` of the lists taken together: SERVICE, then MAKER, then host-CA keys. -/
def Dev.pubKey (d : Dev) (i : Nat) : Bytes := slice (d.sect 14) (16 + 64 * i) 64
/-- Denied serial number `i`. -/
def Dev.denied (d : Dev) (i : Nat) : Bytes :=
  slice (d.sect 14) (16 + 64 * (d.nSvc + d.nMkr + d.nCa) + 20 * i) 20
/-- Wrap entry `i`. -/
def Dev.wrapEntry (d : Dev) (i : Nat) : Bytes :=
  slice (d.sect 14) (16 + 64 * (d.nSvc + d.nMkr + d.nCa) + 20 * d.nDeny + 120 * i) 120

/-! ### Timing in force -/

/-- SLOT_CYC, N_BASE and pacing of the mode in force. -/
def Dev.slot (d : Dev) : Nat := d.slotCyc d.frm.mode
def Dev.base (d : Dev) : Nat := d.nBase d.frm.mode
def Dev.fixed (d : Dev) : Bool := d.fixedPacing d.frm.mode

/-- The slot length of the period that phase group 0 runs: in period 0 of a transitional frame the old one (R96). -/
def Dev.slotNow (d : Dev) : Nat := if d.frm.transitional && d.frm.period == 0 then d.slotCyc d.frm.oldMode else d.slot

/-- D_g: the length of group `g`'s transitional period from slots of `a` to slots of `b` cycles (R96). -/
def transLength (a b g : Nat) : Nat := (1040 - 65 * g) * a + 65 * g * b

/-- PWM periods that group `g` has started since the tick (R48, R59). -/
def Frm.started (f : Frm) (g : Nat) : Nat := nth 0 f.starts g

/-- Length in cycles of the period that group `g` runs. Before its first start since the tick it is the last one of the frame
before; its first one is transitional in a transitional frame (R96) and while a follower realigns (R102). -/
def Dev.groupLength (d : Dev) (g : Nat) : Nat :=
  let old := if d.frm.transitional then d.slotCyc d.frm.oldMode else d.slot
  if d.frm.started g = 0 then 1040 * old
  else if d.frm.started g = 1 then
    if d.frm.transitional then transLength old d.slot g else ((1040 * d.slot : Nat) + d.frm.realignNow).toNat
  else 1040 * d.slot

/-- L_g and r_g of that period: cycles of each of its 1,040 slots, and cycles of dark appended to slot 1,039 (R96, R102). -/
def Dev.groupSlot (d : Dev) (g : Nat) : Nat := d.groupLength g / 1040
def Dev.groupResidue (d : Dev) (g : Nat) : Nat := d.groupLength g % 1040

/-- Cycles after the tick at which group `g` starts its period `k` of the frame (R48, R96). -/
def Dev.groupStart (d : Dev) (g k : Nat) : Nat :=
  let old := if d.frm.transitional then d.slotCyc d.frm.oldMode else d.slot
  let moved (n : Nat) : Nat := ((n : Int) + d.frm.realignNow).toNat
  if k = 0 then 65 * g * old else moved (1040 * old + 65 * g * d.slot + 1040 * (k - 1) * d.slot)

/-- Where the period that group `g` runs stands in its lamp frame: its index, that frame's N_base, and whether the frame is
transitional (R58, R87). A group that has started none since the tick runs the last period of the frame before. -/
def Dev.groupPeriod (d : Dev) (g : Nat) : Nat × Nat × Bool :=
  if d.frm.started g = 0 then (d.frm.lastLen - 1, d.frm.prevBase, d.frm.prevTrans)
  else (d.frm.started g - 1, d.base, d.frm.transitional)

/-- The service slots of that period measure for calibration (R58, R96). -/
def Dev.measures (d : Dev) (g : Nat) : Bool :=
  let x := d.groupPeriod g
  decide (x.1 + 1 < x.2.1) && !x.2.2

/-- They carry the probe and checker windows (R58, R96). -/
def Dev.windows (d : Dev) (g : Nat) : Bool :=
  let x := d.groupPeriod g
  x.1 + 1 == x.2.1 && !x.2.2

/-- Placement of a section in the configuration store (R390): the sections that go there in order, each at the first
multiple of 32 at or after the end of the one before it. -/
def storeOrder : List Nat := [2, 3, 4, 5, 6, 8, 9, 10, 11, 13, 14]

/-- Round up to a multiple of 32. -/
def ceil32 (n : Nat) : Nat := (n + 31) / 32 * 32

/-- Store address of section `id`, given the plaintext lengths. -/
def storeAddrIn (len : Nat → Nat) (id : Nat) : List Nat → Nat → Nat
  | [], _ => 0
  | i :: is, a => if i = id then a else storeAddrIn len id is (ceil32 (a + len i))

/-- Store address of section `id` of an image (R390, R407). -/
def storeAddr (h : SlotHead) (id : Nat) : Nat := storeAddrIn (plainLength h) id storeOrder 0

/-- The section lies in the store (R390). -/
def inStore (id : Nat) : Bool := storeOrder.contains id

end Sys2Proof.Machine
end

