-- ==== Sys2Proof/Machine/Flags.lean ====
section
/-! DEFINITION. The flag computations: FAULT_N, ATTN_N, THERM_N, the domains that are on, the schedule floor, the tiles'
ready flags, the light of a cell, and the levels that the registers and other rules read. -/

namespace Sys2Proof.Machine

/-- FAULT_N is driven low (R313, R318). -/
def State.faultN (s : State) : Bool :=
  s.dev.keep.unchecked || s.dev.keep.unc1 || s.dev.keep.unc2 || s.dev.keep.unc3 || s.lat.safe

/-- Some fault of severity 1 or more is uncleared (R312, R314). -/
def Keep.uncleared (k : Keep) : Bool := k.unc1 || k.unc2 || k.unc3

/-- ATTN_N is driven low (R453). -/
def Evt.attn (e : Evt) : Bool := e.pend &&& e.en != 0

/-- FACTOR is below 4,096, ARR_FOLDBACK.ACTIVE (R79, R85). -/
def Arr.therm (a : Arr) : Bool := decide (a.factor < 4096)

/-- The unit is in PARK or wakes with its clocks still stopped (R415, R417, R421). -/
def Pwr.parked (p : Pwr) : Bool := p.state == .park || (p.state == .wake && !p.wakeClocks)

/-- THERM_N is driven low: foldback is active, and the clamp of PARK does not release the pin (R79, R417). -/
def Dev.thermN (d : Dev) : Bool := d.arr.therm && !d.pwr.parked

/-- TDO is driven; in every other state of the TAP it is high-impedance (R491). -/
def Dev.tdoDriven (d : Dev) : Bool := d.test.tap == .shiftDr || d.test.tap == .shiftIr

/-- The levels of the VSEL lands: the code driven, the pulls' 0b011 while VDD_IO is absent, and 0b000 while VDD_AON is (R408, R483). -/
def Pwr.vselLands (p : Pwr) : BitVec 3 := if p.aonLost then 0 else if p.ioLost then 3 else p.vsel

/-- PGOOD_CORE is ignored: VSEL has changed less than 20.0 µs ago (R409). -/
def Dev.ignoresPgood (d : Dev) : Bool := match d.pwr.vselAt with
  | some a => decide (d.now < a + 20 * cyclesPerUs)
  | none => false

/-- PGOOD_CORE is seen asserted (R409). -/
def Dev.seesPgood (d : Dev) : Bool := d.pwr.pgood && !d.ignoresPgood

/-- XS_CK, XS_CS_N, XS_DQ0–7 and XS_RESET_N are high-impedance, XS_CS_N pulled up (R377). -/
def Pwr.xspiHighZ (p : Pwr) : Bool := p.resetLow

/-- CORE, PIX, MEM and CFG are on (R421). -/
def Pwr.mainOn (p : Pwr) : Bool := p.locked && !p.parked

/-- KEEP is on (R397, R421). -/
def Pwr.keepDomain (p : Pwr) : Bool := p.keepOn && !p.parked

/-- KEEP's clock runs: the Keeper and the lamp changer work (R16, R17, R318, R415). -/
def Dev.keeperRuns (d : Dev) : Bool := d.pwr.keepDomain && !d.keep.clockLost

/-- Work of the KEEP domain waits for its clock (R16). -/
def Dev.keepLater (d : Dev) (g : KeepWork) : Dev := d.onTest (fun t => { t with later := t.later ++ [g] })

/-- LRX and LTX are on (R186, R421). -/
def Dev.fairwayOn (d : Dev) : Bool := d.pwr.mainOn && d.link.refclk

/-- The clock domains (R17). -/
inductive Domain where
  | core | pix | mem | lrx | ltx | keep | aon | cfg
  deriving DecidableEq, Repr, Inhabited

/-- The cycle is that of a clamp release: an access is judged as off in it (R422). -/
def Dev.clampReleases (d : Dev) : Bool := d.pwr.clampAt == some d.now

/-- A domain is on, as an access of it is judged (R421, R422). -/
def Dev.domainOn (d : Dev) : Domain → Bool
  | .aon => !d.pwr.aonLost
  | .keep => d.pwr.keepDomain && !d.clampReleases
  | .lrx | .ltx => d.fairwayOn && !d.clampReleases
  | .core | .pix | .mem | .cfg => d.pwr.mainOn && !d.clampReleases

/-- All four DRIVE flags are set (R46, R53). -/
def Tile.driveReady (t : Tile) : Bool := t.drive == 15

/-- All four TRIM flags are set (R47, R53). -/
def Tile.trimStaged (t : Tile) : Bool := t.trim == 15

/-- The composition gate: every tile that is not dark is ready (R88). -/
def Dev.compositionGate (d : Dev) : Bool := (List.range 192).all (fun t => (d.tile t).dark || (d.tile t).driveReady)

/-- The schedule floor of R412: MIN_PL of the mode in force and of the mode of a pending MODE command. -/
def Dev.floor (d : Dev) : Nat :=
  Nat.max (d.minPl d.frm.mode) (match d.frm.modePend with | some c => d.minPl c.mode | none => 0)

/-- The Keeper holds DIP at any severity (R306). -/
def Keep.dipHeld (k : Keep) : Bool := k.dip != 0
/-- The Keeper holds STANDALONE at any severity (R306). -/
def Keep.standaloneHeld (k : Keep) : Bool := k.standalone != 0

/-- The number of the next tick (R38, R92). -/
def Dev.nextTick (d : Dev) : Nat := if d.frm.ticked then (d.frm.tick + 1) % 2 ^ 32 else 0

/-- I_eff in µA (R71). -/
def Dev.ieff (d : Dev) : Nat := d.ceilingMa * 1000 * d.arr.factor / 4096

/-- A session is up (R218, R373). -/
def Ses.up (s : Ses) : Bool := s.keys.isSome

/-- SEC_SESSION.STATE (R373): 0 NONE, 1 HELLO, 2 FINISH, 3 UP, 4 UP with a rekey in progress. HELLO_D follows HELLO_H at
once, so FINISH, the wait for FINISH_H, is what a handshake shows (log 10). -/
def Ses.code (s : Ses) : Nat := if s.up then (if s.hs.isSome || s.rekeySent then 4 else 3) else (if s.hs.isSome then 2 else 0)

/-- SEC_STATUS.LOCKED_OUT (R369). -/
def Sec.lockedOut (s : Sec) : Bool := s.lockLen != 0

/-- TEST_STATUS.ACTIVE (R473). -/
def Test.active (t : Test) : Bool :=
  t.hold0 != 0 || t.hold1 != 0 || t.compDelay != 0 || t.gainDelay != 0 || t.commitDelay != 0 || t.jitter != 0

/-- The link is ACTIVE or in REWIDTH (R205). -/
def Link.carries (l : Link) : Bool := l.state == .active || l.state == .rewidth

/-- Link symbols flow from the host: a frame is received. -/
def Dev.rxOn (d : Dev) : Bool := d.fairwayOn && d.link.state == .active

/-- Content is accepted: over Fairway alone, and once a session is up (R14, R197, R218). -/
def Dev.contentOn (d : Dev) : Bool := d.rxOn && d.ses.up

/-- Width of a set of lanes (R199, R209). -/
def setWidth (s : Nat) : Nat := popcount 4 s

/-- The frames run: in RUN, not parked, the SAFE latch clear (R310, R322, R416). -/
def State.running (s : State) : Bool :=
  s.dev.frm.ticked && !s.lat.safe && s.dev.pwr.mainOn && s.dev.pwr.state != .entry && s.dev.pwr.state != .wake

/-- After T_p tile `t` still runs its last period: its group would start the next one only now (R48, R416). -/
def Dev.finishes (d : Dev) (t : Nat) : Bool :=
  d.frm.started (t % 16) == 0 && decide (d.now < d.frm.tickAt + d.groupStart (t % 16) 0)

/-- The PWM periods of tile `t` run: its frames run, or PARK entry lets it finish its last one (R416). -/
def State.tileRuns (s : State) (t : Nat) : Bool :=
  s.running || (s.dev.frm.ticked && !s.lat.safe && s.dev.pwr.mainOn && s.dev.pwr.state == .entry && s.dev.finishes t)

/-! ## The light of a cell -/

/-- What the copies of SYS_STATUS copy from other domains than AON: ACCESS, SAFE, FAULT and bits 11 to 20 (R459). -/
def State.sysSources (s : State) : Nat :=
  let d := s.dev
  packNat [(s.lat.level.toNat, 5, 2), (b1 s.lat.safe, 8, 1), (b1 s.faultN, 9, 1), (b1 (d.comp.content == .standalone), 11, 1),
    (b1 d.eng.dip, 12, 1), (b1 d.memc.dramLess, 13, 1), (b1 d.ses.up, 14, 1), (b1 s.lat.perturbed, 15, 1),
    (b1 d.cfg.noImage, 16, 1), (b1 d.arr.therm, 17, 1), (b1 d.engineB, 18, 1), (b1 (d.chg.tb.b == .active), 19, 1),
    (b1 d.sec.claimed, 20, 1)]

/-- The copies whose sources lie in KEEP: SAFE, FAULT and TIMEBASE (R457, R459). -/
def keepCopies : Nat := 2 ^ 8 + 2 ^ 9 + 2 ^ 19

/-- Their latches in AON: while the domain of its source is off each keeps what it held when that went off, in START its reset value
(R421, R459, R460). -/
def State.sysCopies (s : State) : Nat :=
  let p := s.dev.pwr
  let shown (on : Bool) : Nat := if on then s.sysSources else p.sysHeld
  Nat.lor (Nat.land (shown p.keepDomain) keepCopies) (Nat.land (shown p.mainOn) (0x1FFBE0 - keepCopies))

/-- Every series switch is held open: by the power-on clamp until START ends, unless the leading light has lit in START (R397,
R399), and by the clamp of PARK (R415, R417). -/
def State.clamped (s : State) : Bool := if s.dev.inStart then !s.dev.cfg.startLit else s.dev.pwr.parked

/-- What a pixel shows: its current code and the number of its period's 1,040 slots in which it conducts. An isolated cell and a
cell of a dark tile conduct in no mode (R33, R306). While SAFE is asserted a cell whose safe bit is set conducts at its tile's
SAFE_CODE without interruption, in a tile outside the exclusion mask, and every other cell is dark (R15, R34, R319). Otherwise the
word that the cell sampled at its tile's last period start gives code and on-time (R31, R48, R57); in PARK entry once the tile has
finished its period, in a wake, and from its resumption boundary to the group's period 0, no period runs (R416, R419, R420). The light of a pixel over a period goes as code × slots × F / 1,040 (R60);
what service slots add stands in Light.lean. -/
def State.light (s : State) (p : Nat) : Nat × Nat :=
  let c := s.cell p
  let t := s.dev.tile (tileOf p)
  if s.clamped || c.isolate || t.dark then (0, 0)
  else if s.lat.safe then (if c.safe && !t.excluded then (s.dev.safeCode (tileOf p), 1040) else (0, 0))
  else if s.dev.pwr.state == .wake || (s.dev.pwr.state == .entry && !s.dev.finishes (tileOf p)) || (s.dev.frm.resumed && s.dev.frm.started (tileOf p % 16) == 0) then (0, 0)
  else (bits c.sampled.toNat 10 6, bits c.sampled.toNat 0 10)

/-- F of a trim mask at a pixel, in ten-thousandths: the currents of the enabled fingers over ten times the nominal finger
current (R31, R32). What a finger of the part carries is a free value (log 101). -/
def trimFactor (p : Nat) (mask : BitVec 12) : Nat :=
  sumNat ((List.range 12).map (fun n => if mask.getLsbD n then Config.fingerCurrent p n else 0))

/-- The tile reference in control is B (R326). -/
def Chg.refActiveB (c : Chg) (t : Nat) : Bool := (SMap.get {} c.refs t).b == .active

/-- The cell selection of a tile's active reference (R270, R330). -/
def Dev.activeCells (d : Dev) (t : Nat) : Nat := (if d.chg.refActiveB t then (d.tile t).cellsB else (d.tile t).cellsA).toNat

/-- What a tile's active reference carries with the unit cells selected, in twelve-thousandths of Iu: its own cells, so that the
level follows a takeover (R27, R270, R330). What a unit cell of the part carries is a free value (log 131). -/
def Dev.refFactor (d : Dev) (t : Nat) : Nat :=
  sumNat ((List.range 16).map (fun n => if bit (d.activeCells t) n then Config.unitCell t (d.chg.refActiveB t) n else 0))

/-- Parts of 1 nA in which code × Iu × F is a whole number. -/
def naParts : Nat := 120000000

/-- The current of code `code` through the fingers of `mask` at pixel `p`, code × Iu × F, in parts of 1 nA (R27, R31, R330). -/
def Dev.pixelParts (d : Dev) (p code : Nat) (mask : BitVec 12) : Nat :=
  code * d.iuNa (tileOf p) * d.refFactor (tileOf p) * trimFactor p mask

/-- That current in whole nA. -/
def Dev.pixelNa (d : Dev) (p code : Nat) (mask : BitVec 12) : Nat := d.pixelParts p code mask / naParts

/-- The current of a conducting pixel, code × Iu × F of the active trim mask, in nA (R31, R34). -/
def State.currentNa (s : State) (p : Nat) : Nat := s.dev.pixelNa p (s.light p).1 (s.cell p).trim

/-- Cycles in which a pixel conducts, and the length of its tile's period: T × L of 1,040 × L + r, in a transitional period as
in every other (R97, R102); without interruption in the leading light (R34). -/
def State.duty (s : State) (p : Nat) : Nat × Nat :=
  let g := tileOf p % 16
  if (s.light p).2 = 1040 then (s.dev.groupLength g, s.dev.groupLength g)
  else ((s.light p).2 * s.dev.groupSlot g, s.dev.groupLength g)

end Sys2Proof.Machine
end

