-- ==== Sys2Proof/Machine/Tokens.lean ====
section
/-! DEFINITION. What Fairway's families share: reply packets and their queue (R237, R238), readiness and buffer tokens
(R89, R227, R232, R234), commit results, and what leaving the link or a session discards (R205, R236, R364). -/

namespace Sys2Proof.Machine

/-! ## Replies (R237, R238) -/

/-- A word of a packet body, most significant byte first (R226). -/
def word32 (n : Nat) : Bytes := toBe 4 (n % 2 ^ 32)

/-- A packet: type, 0, length, body (R225). -/
def packet (type_ : Nat) (body : Bytes) : Bytes := toBe 1 type_ ++ [0] ++ toBe 2 body.length ++ body

/-- Queue a reply packet; a full queue drops it (R238). -/
def Dev.queueReply (d : Dev) (p : Bytes) : Dev :=
  if d.fw.replies.length < 256 then d.onFw (fun f => { f with replies := f.replies ++ [p] })
  else (d.onFw (fun f => { f with replyDropped := satInc 65535 f.replyDropped, overflow := f.overflow + 1 })).raise 37

/-- A reply: Fairway receive queues it; while LRX stands still it waits for that clock (R17, R18, R237; DEDUCED, log 138). -/
def Dev.reply (d : Dev) (type_ : Nat) (ws : List Nat) : Dev :=
  let p := packet type_ (ws.flatMap word32)
  if d.fairwayOn then d.queueReply p else d.onFw (fun f => { f with crossing := f.crossing ++ [p] })

/-- REJECT (R237). -/
def Dev.reject (d : Dev) (type_ reason idx : Nat) : Dev :=
  d.reply 0x83 [packNat [(type_, 0, 8), (reason, 8, 8), (idx, 16, 8)]]

/-- COMMIT_RESULT (R237): outcome 0 ON_TIME, 1 LATE, 2 REFUSED. -/
def Dev.commitResult (d : Dev) (isMode : Bool) (sent outcome reason now : Nat) : Dev :=
  d.reply 0x82 [sent, packNat [(b1 isMode, 0, 1), (outcome, 1, 2), (reason, 3, 3)], now]

/-! ## Readiness (R89, R227) -/

/-- The generation that a buffer's last completed write holds is `wgen` (R231). -/
def Fw.holds (f : Fw) (b wgen : Nat) : Bool :=
  let x := SMap.get {} f.bufs b
  x.hasReady && x.ready == wgen

/-- A slot that a commit names is ready (R227). -/
def Dev.slotReady (d : Dev) (dep : Nat × Nat × Bool) : Bool :=
  match (nth {} d.eng.slots dep.1).staged with
  | none => true
  | some w => !dEn w || dep.2.2 || d.fw.holds (dBuf w) dep.2.1

/-- Every layer the commit names is ready. -/
def Dev.commitReady (d : Dev) (c : Commit) : Bool := c.deps.all d.slotReady

/-! ## Buffer tokens (R232) -/

/-- An enabled descriptor names the buffer. -/
def names (w : List Nat) (b : Nat) : Bool := dEn w && dBuf w == b

/-- The in-force term; the initial descriptors are in force from the end of START. -/
def Dev.inForce (d : Dev) (b : Nat) : Bool := d.frm.ticked && d.eng.slots.any (fun s => names s.cur b)

/-- A commit's named slots include a staged descriptor that names the buffer. -/
def Dev.refers (d : Dev) (b : Nat) (c : Commit) : Bool :=
  c.deps.any (fun dep => match (nth {} d.eng.slots dep.1).staged with
    | some w => names w b
    | none => false)

/-- The pending references. -/
def Dev.pendingRefs (d : Dev) (b : Nat) : Nat := d.frm.commits.countP (d.refers b)

/-- The token count. -/
def Dev.tokens (d : Dev) (b : Nat) : Nat := b1 (d.inForce b) + d.pendingRefs b

/-- Every buffer whose count has fallen to 0 since `was` gets a RELEASE reply (R234). -/
def Dev.releases (d was : Dev) : Dev :=
  ((List.range 256).filter (fun b => decide (0 < was.tokens b) && d.tokens b == 0)).foldl (fun d b => d.reply 0x86 [b]) d

/-- A generation loses a frame (R231). -/
def Buf.lose (b : Buf) : Buf := if b.gen.isSome && !b.gotLast then { b with lost := true } else b

/-! ## Freed VC1 credits (R220 to R224, R469) -/

/-- Freed VC1 credits are returned, but for what HOLD1 withholds, and for seven in any eight receive frame slots (R223). -/
def Fw.returnVc1 (f : Fw) (hold1 : Nat) : Fw :=
  let k := Nat.min (f.kept1 - hold1) (7 - sumNat f.rises)
  { f with
    kept1 := f.kept1 - k, limit1 := (f.limit1 + k) % 256
    rises := match f.rises with
      | [] => [k]
      | r :: rs => (r + k) :: rs }

/-- Freed VC1 credits. -/
def Dev.freeVc1 (d : Dev) (n : Nat) : Dev := d.onFw (fun f => ({ f with kept1 := f.kept1 + n } : Fw).returnVc1 d.test.hold1)

/-- A frame fully written frees its receive buffer, unless the credits of the time it came from are void since (R224); while LRX stands
still Fairway receive does not see it (R17). -/
def Dev.vc1Written (d : Dev) : Dev :=
  let done (w : Vc1Write) : Bool := w.data.isEmpty && w.inFlight == 0
  let n := d.fw.writes.countP (fun w => done w && w.owes)
  if !d.fairwayOn || !d.fw.writes.any done then d
  else (d.onFw (fun f => { f with writes := f.writes.filter (fun w => !done w), held1 := f.held1 - n })).freeVc1 n

/-- LRX runs again: what has waited for its clock enters the reply queue, and frames that layer memory has taken free their buffers
(R17, R18, R238; DEDUCED, log 138). -/
def Dev.lrxResume (d : Dev) : Dev :=
  if d.fairwayOn then
    let d' := d.onFw (fun f => { f with crossing := [] })
    (d.fw.crossing.foldl (fun d p => d.queueReply p) d').vc1Written
  else d

/-! ## Leaving the link (R205, R236, R364) -/

/-- Commits, MODE commands and staged sets are discarded, with the references they hold; commands that COMMIT_DELAY holds
back are pending too (R205). -/
def Dev.discardPending (d : Dev) : Dev :=
  let d' := d.onFrm (fun f => { f with commits := [], modePend := none, delayed := [] })
  (d'.onEng (fun e => { e with sectStaged := none, symStaged := none })).releases d

/-- The session ends: its keys and numbers are erased, and with the link that carried it a handshake under way, which is no failure
of R363: SEC_SESSION.STATE becomes 0 (R216, R364, R461; DEDUCED, log 151). R216 gives LAST the value −1 under new keys, and the manual
none while no session is up: here it is −1 again once a session has ended (DEDUCED, log 149). A VC0 packet of which a part has arrived is dropped without PARTIAL
and event 35, which R225 gives for lost frames (DESIGN CHOICE, log 130). -/
def Dev.endSession (d : Dev) : Dev :=
  let d := d.onSes (fun s => { s with keys := none, oldKeys := none, mode := 0, oldMode := 0, rekeySent := false, hs := none })
  let d := d.onFw (fun f => { f with rxNext := 0, rxNextOld := 0, txNext := 0, partPkt := none })
  d.witnessStop

/-- The witness runs from the first lit frame: the transmit link is at width 2 and a session is up, SAFE not set (R204). -/
def Dev.witnessWait (d : Dev) (safe : Bool) : Dev :=
  if !d.wit.running && d.link.txSet == 3 && d.ses.up && !safe then d.onWit (fun w => { w with waiting := true }) else d

/-- What leaving ACTIVE or REWIDTH for BACKOFF or DOWN does (R205, R210, R364). -/
def Dev.leaveActive (d : Dev) : Dev := (d.discardPending.endSession).raise 25

end Sys2Proof.Machine
end

