-- ==== Sys2Proof/Machine/Commits.lean ====
section
/-! DEFINITION. Commits and MODE commands (R92 to R96): the target rules, acceptance, what is refused, and what a tick
makes of them. Times are cycles of the model's clock; the lead of R92 is 200 µs, 40,000 cycles. -/

namespace Sys2Proof.Machine

/-- The lead of R92. -/
def lead : Nat := 40000

/-- An acceptance at cycle `at_` leads a boundary at cycle `b` by 200 µs or more. -/
def onTime (at_ b : Nat) : Bool := decide (at_ + lead ≤ b)

/-- Distance of a target from N, the number of the next tick; before tick 0 no number has wrapped (R92, R400). -/
def Dev.targetDist (d : Dev) (target : Nat) : Int :=
  if d.frm.ticked then sext 32 (target + 2 ^ 32 - d.nextTick) else (target : Int)

/-- The number `k` ticks after the next tick. -/
def Dev.tickAfter (d : Dev) (k : Nat) : Nat := (d.nextTick + k) % 2 ^ 32

/-- The target rules: the new target and whether it is late, or the reason of a refusal, 0 STALE or 1 FAR (R92, R400). -/
def Dev.screen (d : Dev) (target : Nat) : Except Nat (Nat × Bool) :=
  let x := d.targetDist target
  if x ≤ -2 then .error 0
  else if 2 ≤ x then .error 1
  else if x = -1 then .ok (d.nextTick, true)
  else if x = 0 ∧ d.frm.ticked = false then .ok (1, true)
  else .ok (target, false)

/-- Retargeted as late (R92, R103). -/
def Dev.noteLate (d : Dev) : Dev := (d.onFrm (fun f => { f with late := satInc 4095 f.late })).raise 64

/-- Refused, with reason 0 STALE, 1 FAR, 2 DUP or 3 MODE (R92, R103, R237). -/
def Dev.refuseCommit (d : Dev) (isMode : Bool) (sent now reason : Nat) : Dev :=
  ((d.onFrm (fun f => { f with refused := satInc 255 f.refused, reason := reason })).raise 65).commitResult isMode sent 2 reason now

/-- What a commit took passes to the one pending for its new target, whose own governs (R92). -/
def Commit.pass (o c : Commit) : Commit :=
  { o with
    sect := if o.sect.isSome then o.sect else c.sect
    sym := if o.sym.isSome then o.sym else c.sym
    blend := if o.blend.isSome then o.blend else c.blend }

/-- A commit is pending for a target. -/
def Frm.holds (f : Frm) (target : Nat) : Bool := f.commits.any (fun c => c.target == target)

/-- A commit takes the staged sector set, symbol set and blend order (R110, R136, R150). -/
def Commit.take (c : Commit) (e : Eng) : Commit := { c with sect := e.sectStaged, sym := e.symStaged, blend := e.blendStaged }

/-- They are then no longer staged. -/
def Dev.taken (d : Dev) : Dev := d.onEng (fun e => { e with sectStaged := none, symStaged := none, blendStaged := none })

/-- Enter a commit in the pending table, judged now; `took` says that it has taken the staged sets before (R92, R136): one that
COMMIT_DELAY held and that is refused here loses what it took for STALE and FAR and passes it on for DUP (log 40). -/
def Dev.enterCommit (d : Dev) (c : Commit) (took : Bool) : Dev :=
  match d.screen c.target with
  | .error r => d.refuseCommit false c.sent c.target r
  | .ok (t, late) =>
    let d := if late then d.noteLate else d
    if d.frm.holds t then
      let d := if took then
          d.onFrm (fun f => { f with commits := f.commits.map (fun o => if o.target = t then o.pass c else o) })
        else d
      d.refuseCommit false c.sent t 2
    else
      let c := { (if took then c else c.take d.eng) with target := t, at_ := d.now }
      let d := if took then d else d.taken
      (d.onFrm (fun f => { f with commits := f.commits ++ [c] })).commitResult false c.sent (b1 late) 0 t

/-- Enter a MODE command: the target rules, then DUP, then MODE (R94, R412). -/
def Dev.enterMode (d : Dev) (sent m : Nat) : Dev :=
  match d.screen sent with
  | .error r => d.refuseCommit true sent sent r
  | .ok (t, late) =>
    let d := if late then d.noteLate else d
    if d.frm.modePend.isSome then d.refuseCommit true sent t 2
    else if !d.modeValid m || decide (d.pwr.level.toNat < d.minPl m) then d.refuseCommit true sent t 3
    else
      (d.onFrm (fun f => { f with modePend := some { target := t, sent := sent, mode := m, at_ := d.now } })).commitResult
        true sent (b1 late) 0 t

/-- A COMMIT packet is accepted: at once, or after COMMIT_DELAY, with the staged sets as they are now (R469). -/
def Dev.acceptCommit (d : Dev) (target : Nat) (deps : List (Nat × Nat × Bool)) : Dev :=
  let c : Commit := { target := target, deps := deps, sect := none, sym := none, blend := none, at_ := d.now, sent := target }
  if d.test.commitDelay = 0 then d.enterCommit c false
  else
    let x : Delayed := { isMode := false, commit := c.take d.eng, mode := 0, due := d.now + d.test.commitDelay * cyclesPerUs }
    d.taken.onFrm (fun f => { f with delayed := f.delayed ++ [x] })

/-- A MODE packet is accepted. -/
def Dev.acceptMode (d : Dev) (target m : Nat) : Dev :=
  if d.test.commitDelay = 0 then d.enterMode target m
  else
    let c : Commit := { target := target, deps := [], sect := none, sym := none, blend := none, at_ := d.now, sent := target }
    d.onFrm (fun f => { f with delayed := f.delayed ++
      [{ isMode := true, commit := c, mode := m, due := d.now + d.test.commitDelay * cyclesPerUs }] })

/-- The command held back that is due first, of two the older. -/
def firstDue : List Delayed → Option Delayed
  | [] => none
  | x :: xs =>
    match firstDue xs with
    | some y => some (if y.due < x.due then y else x)
    | none => some x

/-- DELAYED_COMMIT_ENTRY: the command held back that is due first enters the pending table, judged then (R469). -/
def execDelayedCommitEntry (s : State) : Host.Outcome State Fault Refusal :=
  .next (s.onDev (fun d =>
    match (if d.pwr.mainOn then firstDue d.frm.delayed else none) with
    | none => d
    | some x =>
      let d := d.onFrm (fun f => { f with delayed := f.delayed.erase x })
      if x.isMode then d.enterMode x.commit.sent x.mode else d.enterCommit x.commit true))

/-! ## Gates (R88, R89, R96) -/

/-- A mode change to another slot length is pending for the next tick (R96). -/
def Dev.slotChange (d : Dev) : Option ModeCmd :=
  match d.frm.modePend with
  | some m => if m.target = d.nextTick ∧ d.slotCyc m.mode ≠ d.slot then some m else none
  | none => none

/-- The content gate of a boundary at cycle `b`; `limit` says that it is the limit (R88, R91, R96). At the limit with a
slot-length change accepted less than 200 µs before, which is then late and starts no transitional frame, the usual gate is
judged (log 103). -/
def Dev.contentGate (d : Dev) (b : Nat) (limit : Bool) : Bool :=
  let usual := d.fixed || d.comp.content == .standalone ||
    d.frm.commits.any (fun c => c.target == d.nextTick && onTime c.at_ b && d.commitReady c)
  match d.slotChange with
  | some m => if onTime m.at_ b then true else if limit then usual else false
  | none => usual

/-! ## A tick's commits (R91, R92, R94 to R96) -/

/-- The MODE command that targets tick `n`: in effect, or late (R92, R94). The second result says that the tick starts a
transitional frame. -/
def Dev.tickMode (d : Dev) (n : Nat) : Dev × Bool :=
  match d.frm.modePend with
  | some m =>
    if m.target ≠ n then (d, false)
    else if onTime m.at_ d.now then
      let trans := d.slotCyc m.mode ≠ d.slot
      (d.onFrm (fun f => { f with
        mode := m.mode, oldMode := f.mode, modePend := none, modeChanges := satInc 65535 f.modeChanges }), trans)
    else
      let t := (n + 1) % 2 ^ 32
      ((d.noteLate.onFrm (fun f => { f with modePend := some { m with target := t } })).commitResult true m.sent 1 0 t, false)
  | none => (d, false)

/-- At the tick that starts a transitional frame every pending target moves one tick later (R96). -/
def Frm.shift (f : Frm) : Frm :=
  { f with
    commits := f.commits.map (fun c => { c with target := (c.target + 1) % 2 ^ 32 })
    modePend := f.modePend.map (fun m => { m with target := (m.target + 1) % 2 ^ 32 }) }

/-- The commit that targets tick `n`: applied when it was accepted 200 µs before, else late (R92). -/
def Dev.tickCommit (d : Dev) (n : Nat) : Dev × Option Commit :=
  match d.frm.commits.find? (fun c => c.target == n) with
  | none => (d, none)
  | some c =>
    let rest := d.frm.commits.filter (fun c => c.target != n)
    let d := d.onFrm (fun f => { f with commits := rest })
    if onTime c.at_ d.now then (d, some c)
    else
      let t := (n + 1) % 2 ^ 32
      let d := d.noteLate
      if d.frm.holds t then
        ((d.onFrm (fun f => { f with commits := f.commits.map (fun o => if o.target = t then o.pass c else o) })).refuseCommit
          false c.sent t 2, none)
      else ((d.onFrm (fun f => { f with commits := f.commits ++ [{ c with target := t }] })).commitResult false c.sent 1 0 t, none)

/-- What a tick does to a slot that its commit names (R90, R91, R110); a frame of the standalone beam leaves every run
unchanged (R128). -/
def Slot.apply (x : Slot) (ready beam : Bool) : Slot :=
  if ready then
    { x with cur := x.staged.getD x.cur, staged := none, staleRun := if beam then x.staleRun else 0 }
  else if beam then x
  else { x with staleRun := satInc 255 x.staleRun, staleTotal := satInc 255 x.staleTotal }

/-- The standalone beam is composed from a tick although a commit is applied at it (R205, R306). -/
def Dev.beamHeld (d : Dev) : Bool := d.keep.standaloneHeld || !d.link.carries

/-- Descriptors, sets and blend order of an applied commit become current (R110, R128, R136, R144, R150, R154). Every slot that
begins a stale run raises LAYER_STALE (R128, R135). -/
def Dev.applyCommit (d : Dev) (c : Commit) : Dev :=
  let begun := c.deps.countP (fun dep => !d.slotReady dep && (nth {} d.eng.slots dep.1).staleRun == 0)
  let beam := d.beamHeld
  let ready (dep : Nat × Nat × Bool) : Bool := d.slotReady dep
  let ceil (i : List Nat) : Nat :=
    if d.eng.libReady then Nat.min (bits (d.entWord (bits (dw i 0) 0 12) 2) 0 20) d.symCeil else d.symCeil
  let above := (c.sym.map (fun s => s.insts.countP (fun i => decide (ceil i < bits (dw i 1) 0 20)))).getD 0
  let d := d.onEng (fun e => { e with
    slots := c.deps.foldl (fun sl dep => updNth sl dep.1 (fun x => x.apply (ready dep) beam)) e.slots
    sect := if c.sect.isSome then c.sect else e.sect
    sectAge := if c.sect.isSome then 0 else e.sectAge
    sym := if c.sym.isSome then c.sym else e.sym
    symAge := if c.sym.isSome then 0 else e.symAge
    symClamped := satAdd 65535 e.symClamped above
    blend := c.blend.getD e.blend })
  if beam then d else (List.range begun).foldl (fun d _ => d.raise 53) d

end Sys2Proof.Machine
end

