-- ==== Sys2Proof/Machine/Crc.lean ====
section
/-! DEFINITION. Cyclic redundancy checks (R340, R341): the CE0–CE3 computation for widths 8, 16, 24 and 32, with
reflections, final XOR and fold word, and the named parameter sets of the rules. Check.lean configures the engines. -/

namespace Sys2Proof.Machine

/-- Reverse the low `w` bits. -/
def reflect : Nat → Nat → Nat
  | 0, _ => 0
  | w + 1, n => (n % 2) * 2 ^ w + reflect w (n / 2)

/-- One bit of a CRC of width `w`, most significant bit first. -/
def crcBit (w poly r : Nat) (inBit : Bool) : Nat :=
  let top := bit r (w - 1)
  let sh := (r * 2) % 2 ^ w
  if top != inBit then Nat.xor sh poly else sh

/-- The bits of a byte-wide value from bit `n` − 1 down to 0. -/
def crcBits (w poly : Nat) : Nat → Nat → Nat → Nat
  | 0, r, _ => r
  | n + 1, r, v => crcBits w poly n (crcBit w poly r (bit v n)) v

/-- One byte. -/
def crcByte (w poly r : Nat) (refIn : Bool) (b : Byte) : Nat :=
  crcBits w poly 8 r (if refIn then reflect 8 b.toNat else b.toNat)

/-- A CRC of width `w` over a run of bytes (R340). -/
def crcCalc (w poly init : Nat) (refIn refOut : Bool) (xorOut : Nat) (bs : Bytes) : Nat :=
  let r := bs.foldl (fun r b => crcByte w poly r refIn b) (init % 2 ^ w)
  Nat.xor (if refOut then reflect w r else r) xorOut % 2 ^ w

/-- CRC-8 of the management port (R444). -/
def crc8 (bs : Bytes) : Nat := crcCalc 8 0x07 0 false false 0 bs

/-- CRC-16 of chains, safe masks and ordered sets: polynomial 0x1021, initial value 0xFFFF (R40, R51, R195). -/
def crc16 (bs : Bytes) : Nat := crcCalc 16 0x1021 0xFFFF false false 0 bs

end Sys2Proof.Machine
end

