-- ==== Sys2Proof/Machine/Health.lean ====
section
/-! DEFINITION. The health store of pixel diagnostics: statuses returned by passes (R287, R288), and the isolations and
ties that reactions make (R289 to R291). The windows, the HEALTH entry and the map stand in Diagnostics.lean. -/

namespace Sys2Proof.Machine

/-- The record of a pixel. -/
def Dev.pix (d : Dev) (p : Nat) : Pix := SMap.get {} d.diag.pix p

/-- Change the record of a pixel. -/
def Dev.onPix (d : Dev) (p : Nat) (f : Pix → Pix) : Dev :=
  { d with diag := { d.diag with pix := SMap.upd {} d.diag.pix p f } }

/-- The pixel is isolated by class: DEAD or SHORTED (R292). -/
def Pix.isolated (x : Pix) : Bool := x.cls == 1 || x.cls == 2

/-- A tile as pixel diagnostics sees it. -/
def Dev.dtile (d : Dev) (t : Nat) : DiagTile := SMap.get {} d.diag.tiles t

/-- Change it. -/
def Dev.onDtile (d : Dev) (t : Nat) (f : DiagTile → DiagTile) : Dev :=
  { d with diag := { d.diag with tiles := SMap.upd {} d.diag.tiles t f } }

/-- The overdue mark falls once a judgement and a complete cycle have followed the last skip (R294). -/
def Pix.settle (x : Pix) : Pix :=
  if x.overdue && !x.owedJudge && !x.owedCycle then { x with overdue := false, overdueSect := false } else x

/-- An open or short judgement has been made on the pixel (R294). -/
def Pix.judged (x : Pix) : Pix := ({ x with owedJudge := false } : Pix).settle

/-- What a capture with status `st`, of whose findings probes made `own`, does to a pixel's open and short findings, each for itself
(R287): the same finding again confirms it, a capture that judges the pixel free of it clears it. The second result counts the
findings cleared unconfirmed. -/
def Pix.capture (x : Pix) (st own : Nat) : Pix × Nat :=
  let found := Nat.land st 3
  let x := { x with unmeas := bit st 3 }
  if found != 0 || !bit st 3 then
    let again := Nat.land x.pending found
    let gone := popcount 2 (x.pending - again)
    let fresh := found - Nat.land found (Nat.lor again x.confirmed)
    ({ x with confirmed := Nat.lor x.confirmed again, pending := fresh, glitches := x.glitches + gone
              byProbe := Nat.land own fresh }, gone)
  else (x, 0)

/-- Attribution of a returned NSHORT (R288): to the one checker phase `phs` that ran since the previous capture on the chain. -/
def Dev.nshortReturned (d : Dev) (t p : Nat) (phs : List Nat) : Dev :=
  match phs with
  | [ph] => d.onPix p (fun x => { x with nshort := x.nshort ||| (1#4 <<< ph) })
  | _ => (d.onDtile t (fun y => { y with incomplete := true })).onDiag (fun g =>
      { g with unattributed := satInc 65535 g.unattributed })

/-- One returned status, with its findings that probes made (R35, R287, R288). An isolated pixel is judged no more. -/
def Dev.statusReturned (d : Dev) (t p st own : Nat) (phs : List Nat) : Dev :=
  if (d.pix p).isolated then d.onPix p (fun x => { x with unmeas := bit st 3 })
  else
    let r := (d.pix p).capture st own
    let d := d.onPix p (fun _ => if bit st 3 && Nat.land st 3 == 0 then r.1 else r.1.judged)
    let d := d.onDiag (fun g => { g with unconfirmed := satAdd 65535 g.unconfirmed r.2 })
    if bit st 2 then d.nshortReturned t p phs else d

/-- The statuses a pass returned, by position, reach pixel diagnostics, where they wait for the next HEALTH entry (R35, R52,
R288, R295). -/
def Dev.forwardStatus (d : Dev) (t k : Nat) (sts : List Nat) (phs : List Nat) (own : SMap Nat) : Dev :=
  if d.diag.stopped then d
  else d.onDiag (fun g => { g with
    returned := g.returned ++ [{ tile := t, chain := k, statuses := sts, phases := phs, probes := own }] })

/-- The HEALTH entry processes what one pass returned (R287, R288, R295). -/
def Dev.processStatus (d : Dev) (r : Returned) : Dev :=
  (List.range chainLen).foldl (fun d j =>
    let p := pixelOnChain r.tile r.chain j
    d.statusReturned r.tile p (nth 0 r.statuses j) (SMap.get 0 r.probes p) r.phases) d

/-- It processes all that were returned since the entry before, in order (R295). -/
def Dev.processReturned (d : Dev) : Dev :=
  d.diag.returned.foldl Dev.processStatus (d.onDiag (fun g => { g with returned := [] }))

/-! ## Classes, ties and isolations (R289 to R291) -/

/-- The partner of a tied pixel, if it is tied. -/
def Dev.partner (d : Dev) (p : Nat) : Option Nat :=
  match d.diag.ties.find? (fun e => e.1 == p || (if e.2 then e.1 + 1536 else e.1 + 1) == p) with
  | some e => let q := if e.2 then e.1 + 1536 else e.1 + 1
              some (if e.1 = p then q else e.1)
  | none => none

/-- Request an ISOLATE pass for the chain of a pixel (R162, R291). -/
def Dev.needIsolate (d : Dev) (p : Nat) : Dev :=
  d.onTile (tileOf p) (fun t => { t with isoDue := t.isoDue ||| (1#4 <<< chainOf p) })

/-- Give a pixel the class DEAD (1) or SHORTED (2), with its event (R291, R297). -/
def Dev.setIsolated (d : Dev) (p cls : Nat) : Dev :=
  let d := d.onPix p (fun x => { x with cls := cls, pending := 0, confirmed := 0 })
  let d := d.onDiag (fun g => { g with lastPixel := p, lastClass := cls })
  (d.raise (if cls = 1 then 80 else 81)).needIsolate p

/-- Isolate a pixel; one that is DEAD or SHORTED keeps its class, and the partner of a TIED one goes with it (R289, R291). -/
def Dev.isolate (d : Dev) (p cls : Nat) : Dev :=
  if (d.pix p).isolated then d
  else match d.partner p with
    | some q =>
      let d := d.onDiag (fun g => { g with ties := g.ties.filter (fun e => !(e.1 == p || e.1 == q)) })
      (d.setIsolated p cls).setIsolated q cls
    | none => d.setIsolated p cls

/-- The members of a pair as ADDRESS names them: bits [20:0] the lower, bit 31 the direction; none when the partner lies
beyond the end of the row or below row 703, or the pixel beyond the array (R289, R306). -/
def pairOf (addr : Nat) : Option (Nat × Nat × Bool) :=
  let p := bits addr 0 21
  let v := bit addr 31
  if nPixels ≤ p then none
  else if v then (if p / 1536 = 703 then none else some (p, p + 1536, true))
  else (if p % 1536 = 1535 then none else some (p, p + 1, false))

/-- Tie a pair of GOOD pixels; with the tie table full both are isolated as SHORTED (R290, R291, R306). -/
def Dev.tie (d : Dev) (p q : Nat) (v : Bool) : Dev :=
  if d.diag.ties.length < 4096 then
    let d := (d.onPix p (fun x => { x with cls := 3 })).onPix q (fun x => { x with cls := 3 })
    let d := d.onDiag (fun g => { g with ties := g.ties ++ [(p, v)], lastPixel := q, lastClass := 3 })
    d.raise 82
  else
    let d := (d.isolate p 2).isolate q 2
    (d.onDiag (fun g => { g with tieFull := satInc 65535 g.tieFull })).raise 83

end Sys2Proof.Machine
end

