-- ==== Sys2Proof/Machine/Array.lean ====
section
/-! DEFINITION. Chains and passes (R36 to R52): starting a pass, its header check, its trailer, cuts, and the safe-mask
verification. -/

namespace Sys2Proof.Machine

/-- A pass runs on chain `k` of tile `t` (R44). -/
def Dev.passOn (d : Dev) (t k : Nat) : Option Pass := d.arr.passes.find? (fun p => p.tile == t && p.chain == k)

/-- Count a refused, failed, discarded or cut pass (R54). -/
def Dev.countFail (d : Dev) : Dev := d.onArr (fun a => { a with passFail := satInc 65535 a.passFail })

/-- OP code of a purpose (R38). -/
def Purpose.op : Purpose → Nat
  | .drive => 1 | .trim => 2 | .isolate => 3 | .safe => 4 | .readback => 5

/-- SEL of a purpose: a readback returns the safe bits, the others the active drive word (R38, R51, log 11). -/
def Purpose.sel : Purpose → Nat
  | .readback => 2 | _ => 0

/-- The header element of a pass (R38). -/
def passHeader (op k sel frame : Nat) : BitVec 20 :=
  BitVec.ofNat 20 (op * 65536 + k * 16384 + sel * 4096 + frame % 256)

/-- The field that SEL returns (R38). -/
def Cell.selected (c : Cell) (sel : Nat) : Nat :=
  if sel = 0 then c.active.toNat else if sel = 1 then c.shadow.toNat
  else if sel = 2 then c.trim.toNat + 4096 * b1 c.safe + 8192 * b1 c.isolate else c.shadowTrim.toNat

/-- The status a capture returns: UNMEAS and the findings; an isolated cell always 0b1000 (R35). -/
def Cell.returned (c : Cell) : Nat := if c.isolate then 8 else 8 * b1 (!c.judgedLast && !c.probed) + c.status.toNat

/-- A capture clears the findings (R35). -/
def Cell.captured (c : Cell) : Cell := { c with status := 0, probed := false, probeFound := 0 }

/-- The bytes of an element in a CRC (R40). -/
def elemBytes (e : Nat) : Bytes := [BitVec.ofNat 8 (e / 65536 % 16), BitVec.ofNat 8 (e / 256), BitVec.ofNat 8 e]

/-- The inbound or return CRC over header and elements in clock order, the tile index as fold word (R40). -/
def passCrc (t : Nat) (header : Nat) (elems : List Nat) : Nat :=
  crc16 (toBe 4 t ++ elemBytes header ++ elems.flatMap elemBytes)

/-- Why the tile controller refuses a header that arrives on chain `k` (R41): OP reserved, CHAIN another chain, FRAME not
that of the next tick, SAFE outside START. -/
def Dev.refuses (d : Dev) (k : Nat) (h : Nat) : Bool :=
  let op := bits h 16 4
  op == 0 || decide (5 < op) || bits h 14 2 != k || bits h 0 8 != d.nextTick % 256 || (op == 4 && !d.inStart)

/-- A READ of a tile's readback has given no verdict: the readback is repeated on all four chains, and READs of it that still run
give none (R51). -/
def Dev.voidReadback (d : Dev) (t : Nat) : Dev :=
  (d.onTile t (fun x => { x with reads := [none, none, none, none], readDue := if d.inStart then x.readDue else 15 })).onArr
    (fun a => { a with passes := a.passes.map (fun p =>
      if p.tile == t && p.purpose == .readback then { p with void := true } else p) })

/-- A refused pass (R41, R454). -/
def Dev.refusePass (d : Dev) (t k : Nat) : Dev :=
  let d := d.onTile t (fun x => { x with hdrRefused := satInc 255 x.hdrRefused })
  (d.countFail.raise 78).send t 0x01 1 (t * 4 + k)

/-- Start a pass (R37): the header is checked as disturbed by `flip`, every cell captures its status and the selected
field, and its status is cleared. A dark tile's chains run no pass (R306); one pass runs on a chain at a time (R44). -/
def State.startPass (s : State) (t k : Nat) (pu : Purpose) (data : List (BitVec 16)) (flip : BitVec 20) : State :=
  if s.dev.isDark t || (s.dev.passOn t k).isSome then s
  else
    let sent := passHeader pu.op k pu.sel s.dev.nextTick
    let rec_ := sent ^^^ flip
    if s.dev.refuses k rec_.toNat then
      s.onDev (fun d => if pu == .readback then (d.refusePass t k).voidReadback t else d.refusePass t k)
    else
      let ps := (List.range chainLen).map (pixelOnChain t k)
      let sel := bits rec_.toNat 12 2
      let cap := ps.map (fun p => let c := s.cell p
                                  BitVec.ofNat 20 (c.returned * 65536 + c.selected sel))
      let pass : Pass := { tile := t, chain := k, purpose := pu, sent := sent, header := rec_, data := data, captured := cap
                           phases := nth [] (s.dev.dtile t).phases k
                           probes := ps.foldl (fun m p => SMap.set 0 m p (s.cell p).probeFound) [] }
      { s with cells := SMap.updAll {} s.cells ps (fun _ c => c.captured),
               dev := (s.dev.onArr (fun a => { a with passes := a.passes ++ [pass] })).onDtile t (fun y =>
                 { y with phases := setNth y.phases k [] }) }

/-! ## Payloads -/

/-- Payloads of a SAFE pass (R38, R383). -/
def Dev.safeData (d : Dev) (t k : Nat) : List (BitVec 16) :=
  (List.range chainLen).map (fun j => if d.safeBit t k j then 1 else 0)

/-- Payloads of an ISOLATE pass: 1 for every pixel the health store holds as isolated (R291). -/
def Dev.isolateData (d : Dev) (t k : Nat) : List (BitVec 16) :=
  (List.range chainLen).map (fun j => if (d.pix (pixelOnChain t k j)).isolated then 1 else 0)

/-- The calibration record of a tile. -/
def Dev.calTile (d : Dev) (t : Nat) : CalTile := SMap.get {} d.cal.tiles t

/-- Payloads of a TRIM pass: the accepted mask or the active mask of every position (R273). -/
def State.trimData (s : State) (t k : Nat) : List (BitVec 16) :=
  (List.range chainLen).map (fun j =>
    let p := pixelOnChain t k j
    let acc := SMap.get 0 (s.dev.calTile t).accepted (localOf p)
    (if acc = 0 then (s.cell p).trim else acc).setWidth 16)

/-- Payloads of a READ pass (R38). -/
def readData : List (BitVec 16) := List.replicate chainLen 0

/-! ## Trailer -/

/-- Elements as received: flips at data clocks 1 to 1,408 (R37). -/
def flipElems (elems : List Nat) (flips : List (Nat × BitVec 20)) : List Nat :=
  elems.mapIdx (fun i e => flips.foldl (fun e f => if f.1 = i + 1 then Nat.xor e f.2.toNat else e) e)

/-- The field of a cell that an OP writes takes a payload (R38). -/
def Cell.apply (c : Cell) (op pay : Nat) : Cell :=
  if op = 1 then { c with shadow := BitVec.ofNat 16 pay }
  else if op = 2 then { c with shadowTrim := BitVec.ofNat 12 pay }
  else if op = 3 then { c with isolate := c.isolate || bit pay 0 }
  else if op = 4 then { c with safe := bit pay 0 }
  else c

/-- The tile's flags and needs after a pass of `op` has applied on chain `k` (R45, R162). -/
def Tile.applied (t : Tile) (op k : Nat) (isoLeft : Bool) : Tile :=
  if op = 1 then { t with drive := t.drive ||| (1#4 <<< k) }
  else if op = 2 then { t with trim := t.trim ||| (1#4 <<< k), trimDue := t.trimDue &&& ~~~(1#4 <<< k) }
  else if op = 3 then { t with isoDue := if isoLeft then t.isoDue else t.isoDue &&& ~~~(1#4 <<< k) }
  else t

/-- A pixel of the chain is isolated by class and not yet by its cell (R291). -/
def State.isoLeft (s : State) (t k : Nat) : Bool :=
  (List.range chainLen).any (fun j => let p := pixelOnChain t k j
                                      (s.dev.pix p).isolated && !(s.cell p).isolate)

/-- A tile joins the exclusion mask of the leading-light control (R319, R325). -/
def Dev.exclude (d : Dev) (t : Nat) : Dev :=
  if (d.tile t).excluded then d else (d.onTile t (fun x => { x with excluded := true })).raise 16

/-- The same, of the array sequencer: the leading-light control takes the tile into the mask once its clock runs (R16; DEDUCED, log 152). -/
def Dev.joinMask (d : Dev) (t : Nat) : Dev := if d.keeperRuns then d.exclude t else d.keepLater (.exclude t)

/-- CRC over the safe bits returned by the four READ passes (R51). -/
def packBits : List Bool → Bytes
  | a :: b :: c :: e :: f :: g :: h :: i :: bs =>
    BitVec.ofNat 8 (128 * b1 a + 64 * b1 b + 32 * b1 c + 16 * b1 e + 8 * b1 f + 4 * b1 g + 2 * b1 h + b1 i) :: packBits bs
  | _ => []

def safeCrc (t : Nat) (bs : Bytes) : Nat := crc16 (toBe 4 t ++ bs)

/-- The tile has its start verdict: verified, or failed twice (R52). -/
def Tile.startJudged (x : Tile) : Bool := x.safeVerified || x.excluded || x.startFails == 2

/-- Every tile that is not dark has its start verdict (R52, R54). -/
def Dev.startVerified (d : Dev) : Bool := (List.range 192).all (fun t => (d.tile t).dark || (d.tile t).startJudged)

/-- The header disturbance of a chain. -/
def hdrFlip (hdr : List HdrErr) (t k : Nat) : BitVec 20 :=
  match hdr.find? (fun h => h.tile == t && h.chain == k) with
  | some h => h.flip
  | none => 0

/-- A tile's four chains run no pass. -/
def Dev.tileIdle (d : Dev) (t : Nat) : Bool := (List.range 4).all (fun k => (d.passOn t k).isNone)

/-- Start READ passes on the four chains of a tile, their headers disturbed as `hdr` says (R41, R51, R52). -/
def State.startReads (s : State) (t : Nat) (hdr : List HdrErr) : State :=
  let s := { s with dev := s.dev.onTile t (fun x => { x with reads := [none, none, none, none] }) }
  (List.range 4).foldl (fun s k => s.startPass t k .readback readData (hdrFlip hdr t k)) s

/-- The READ passes of a tile in START; where all four are refused the readback is repeated, its headers as they are sent (R51, R52). -/
def State.readPasses (s : State) (t : Nat) (hdr : List HdrErr := []) : State :=
  let s := s.startReads t hdr
  if s.dev.tileIdle t then s.startReads t [] else s

/-- Start SAFE passes on the four chains of a tile; where all four are refused the tile is verified at once (R41, R52). -/
def State.safePasses (s : State) (t : Nat) (hdr : List HdrErr := []) : State :=
  let s := (List.range 4).foldl (fun s k => s.startPass t k .safe (s.dev.safeData t k) (hdrFlip hdr t k)) s
  if s.dev.tileIdle t then s.readPasses t else s

/-- The readback round ends when no tile owes a READ; the next falls due 1,024 lamp frames after the frame in which its last READ ran
(R52). -/
def Dev.roundCheck (d : Dev) : Dev :=
  if d.arr.roundOn && (List.range 192).all (fun t => (d.tile t).dark || (d.tile t).readDue == 0) then
    d.onArr (fun a => { a with roundOn := false, framesLeft := 1024 - a.sinceRead })
  else d

/-- Passes leave their chains; a READ among them ran in this frame (R52). -/
def Arr.drop (a : Arr) (gone : Pass → Bool) : Arr :=
  { a with
    passes := a.passes.filter (fun p => !gone p)
    sinceRead := if a.passes.any (fun p => gone p && p.purpose == .readback) then 0 else a.sinceRead }

/-- The verdict on a tile whose four READ passes have returned (R51, R52): a match verifies the mask. In START a mismatch
is written and verified once more, and a second one excludes the tile; in RUN a mismatch excludes it, and a failure of the
tile's SAFE path is reported (R320). -/
def State.readbackVerdict (s : State) (t : Nat) (pathBad : Bool) (hdr : List HdrErr) : State :=
  let x := s.dev.tile t
  if x.reads.all Option.isSome then
    let got := safeCrc t (packBits (x.reads.flatMap (fun o => o.getD [])))
    let ok := got == s.dev.safeExpected t
    let d := s.dev.onTile t (fun y => { y with readback := got, safeVerified := ok, safeFailed := !ok,
                                               reads := [none, none, none, none], readDue := 0 })
    let path (d : Dev) : Dev := if pathBad && !d.inStart then d.send 0xCC 0x26 1 t else d
    if ok then
      { s with dev := path ((d.onArr (fun a => { a with startDone := a.startDone || (d.inStart && d.startVerified) })).roundCheck) }
    else if d.inStart then
      if x.startFails = 0 then
        ({ s with dev := d.onTile t (fun y => { y with startFails := 1 }) } : State).safePasses t hdr
      else
        let d := ((d.onTile t (fun y => { y with startFails := 2 })).joinMask t).send t 0x06 1 got
        { s with dev := d.onArr (fun a => { a with startDone := a.startDone || d.startVerified }) }
    else { s with dev := path (((d.joinMask t).send t 0x07 1 got).roundCheck) }
  else s

/-- The safe bits a READ pass returned, in return order (R51). -/
def safeBits (elems : List Nat) : List Bool := elems.map (fun e => bit e 12)

/-- What follows when a SAFE or READ pass of START has ended: after the last SAFE pass the mask is read back, and a READ
that gave no verdict is repeated with the tile's other chains (R51, R52). -/
def State.afterStartPass (s : State) (t : Nat) (pu : Purpose) (hdr : List HdrErr) : State :=
  if s.dev.inStart && s.dev.tileIdle t then
    match pu with
    | .safe => s.readPasses t hdr
    | .readback =>
      if (s.dev.tile t).startJudged || (s.dev.tile t).reads.all Option.isSome then s
      else s.readPasses t hdr
    | _ => s
  else s

/-- The chain entries that have begun for a tile row end when no pass of their kind is left on it (R172, R176). -/
def Dev.chainEnded (d : Dev) (ty : Nat) : Dev :=
  let left (drive : Bool) := d.arr.passes.any (fun p => p.tile / 24 == ty && (p.purpose == .drive) == drive)
  let fin := d.now - d.frm.tickAt
  { d with frm := { d.frm with begun := d.frm.begun.map (fun e =>
      let en := d.entry e.1
      if e.2.isNone && bits en.operand 0 3 == ty && ((en.act == 2 && !left true) || (en.act == 3 && !left false))
      then (e.1, some fin) else e) } }

/-- The end of clock 1,409 of the pass on chain `k` of tile `t` (R37, R40 to R43): on a good inbound CRC every cell applies;
on a good return CRC the statuses go to pixel diagnostics. A TRIM pass whose payloads carry a bit of [15:12] fails as one with an
invalid mask does (log 122). -/
def State.endPass (s : State) (t k : Nat) (err : PassErr) : State :=
  match (if s.dev.pwr.mainOn then s.dev.passOn t k else none) with
  | none => s
  | some p =>
    let s := s.onDev (fun d => d.onArr (fun a => a.drop (fun q => q.tile == t && q.chain == k)))
    -- inbound: data clock i carries position 1,408 − i
    let out := p.data.reverse.map (fun w => w.toNat)
    let got := flipElems out err.inb
    let trailer := Nat.xor (passCrc t p.sent.toNat out) err.inTrailer.toNat
    let op := bits p.header.toNat 16 4
    let inOk := passCrc t p.header.toNat got == trailer
    let good := inOk && (op != 2 || got.all (fun e => popcount 12 e == 10 && bits e 12 4 == 0))
    let s :=
      if good then
        let pays := got.reverse
        let cells := ((List.range chainLen).map (pixelOnChain t k)).zip pays
        let s := { s with cells := cells.foldl (fun (m : SMap Cell) (e : Nat × Nat) => SMap.upd {} m e.1 (fun c => c.apply op (bits e.2 0 16))) s.cells }
        let left := s.isoLeft t k
        let s := s.onDev (fun d => d.onTile t (fun x => x.applied op k left))
        if op = 2 then
          let packed := cells.foldl (fun m (e : Nat × Nat) => SMap.set 0 m e.1 (BitVec.ofNat 12 e.2)) s.dev.ledg.toPack
          s.onDev (fun d => { d with ledg := { d.ledg with toPack := packed } })
        else s
      else s.onDev (fun d => ((d.onTile t (fun x => { x with crcFail := satInc 255 x.crcFail })).countFail.raise 78).send
        t 0x02 1 (t * 4 + k))
    -- outbound
    let ret := p.captured.reverse.map (fun w => w.toNat)
    let back := flipElems ret err.out
    let rtrailer := Nat.xor (passCrc t p.header.toNat ret) err.outTrailer.toNat
    let retOk := passCrc t p.sent.toNat back == rtrailer
    let s :=
      if retOk then s.onDev (fun d => d.forwardStatus t k (back.reverse.map (fun e => bits e 16 4)) p.phases p.probes)
      else s.onDev (fun d => ((d.onTile t (fun x => { x with returnFail := satInc 255 x.returnFail })).countFail.raise 78).send
        t 0x03 0 (t * 4 + k))
    let s :=
      if p.void then s
      else if p.purpose == .readback && good && retOk then
        (s.onDev (fun d => d.onTile t (fun x => { x with reads := setNth x.reads k (some (safeBits back)),
                                                         readDue := x.readDue &&& ~~~(1#4 <<< k) }))).readbackVerdict t err.pathBad err.hdr
      else if p.purpose == .readback then
        s.onDev (fun d => d.voidReadback t)
      else s
    (s.afterStartPass t p.purpose err.hdr).onDev (fun d => d.chainEnded (t / 24))

/-! ## Cuts and abandoned passes -/

/-- The tile counts a pass that did not complete; a readback begins again on all four chains (R51, R54). -/
def Tile.countCut (x : Tile) (pu : Purpose) : Tile :=
  let x := { x with cut := satInc 255 x.cut }
  if pu == .readback then { x with reads := [none, none, none, none], readDue := 15 } else x

/-- A tick cuts the passes that run (R44, R49, R454). Their reports do nothing further at the schedule monitor, which judges their
entries at their deadlines (log 125). -/
def Dev.cutPasses (d : Dev) : Dev :=
  let ps := d.arr.passes
  let d := d.onArr (fun a => a.drop (fun _ => true))
  ps.foldl (fun d p =>
    let d := d.onTile p.tile (fun x => x.countCut p.purpose)
    (d.countFail.raise 78).send p.tile 0x04 0 (p.tile * 4 + p.chain)) d

/-- Passes abandoned under R90 and R331: counted in CUT, not reported (R454). -/
def Dev.abandonPasses (d : Dev) : Dev :=
  let ps := d.arr.passes
  let d := d.onArr (fun a => a.drop (fun _ => true))
  ps.foldl (fun d p => (d.onTile p.tile (fun x => x.countCut p.purpose)).countFail) d

/-- The chain entries of the frame for which a pass of tile `t` still runs (R161, R162). -/
def Dev.entriesOn (d : Dev) (t : Nat) : List Nat :=
  let runs (drive : Bool) : Bool := d.arr.passes.any (fun p => p.tile == t && (p.purpose == .drive) == drive)
  (d.frm.begun.filter (fun e =>
    let en := d.entry e.1
    e.2.isNone && bits en.operand 0 3 == t / 24 && ((en.act == 2 && runs true) || (en.act == 3 && runs false)))).map (·.1)

/-- Passes of a tile that becomes dark: stopped without applying, neither counted nor reported (R306). Such a pass has not ended, so that
its entry misses its deadline (R172); nothing of the entry is left to run, and its successors go on (DEDUCED, log 106). -/
def Dev.stopPasses (d : Dev) (t : Nat) : Dev :=
  (d.onFrm (fun f => { f with stopped := f.stopped ++ d.entriesOn t })).onArr (fun a => a.drop (fun p => p.tile == t))

/-- Clear the DRIVE flags of all tiles (R45, R90, R331). -/
def Dev.clearDrive (d : Dev) : Dev := d.onTiles (fun _ x => { x with drive := 0 })

/-- A tile becomes a dark tile until restart; REPEATED_TILES counts tiles that are not dark (R54, R306, R319, R454). -/
def Dev.darken (d : Dev) (t : Nat) : Dev :=
  if d.isDark t then d
  else
    let rep := (d.tile t).repeated
    let d := (d.stopPasses t).onTile t (fun x => { x with dark := true, repeated := false, readDue := 0, isoDue := 0, trimDue := 0 })
    let d := (d.exclude t).raise 79
    let d := (d.chainEnded (t / 24)).roundCheck
    d.onArr (fun a => { a with repeatedTiles := a.repeatedTiles - b1 rep, startDone := a.startDone || (d.inStart && d.has 1 && d.startVerified) })

end Sys2Proof.Machine
end

