-- ==== Sys2Proof/WellFormed.lean ====
section
/-! DEFINITION. Which terms of Instr spell a command that can reach the block: operands inside the ranges that their rules
give. A meaning is total all the same; the checks say what the host and the surroundings can send. -/

namespace Sys2Proof

/-- A tile index (R5). -/
def tileOk (t : Nat) : Bool := decide (t < 192)

/-- A tile-local pixel index (R5). -/
def localOk (i : Nat) : Bool := decide (i < 5632)

/-- A receive lane (R184). -/
def laneOk (n : Nat) : Bool := decide (n < 4)

/-- Index of a schedule entry (R159). -/
def entryOk (i : Nat) : Bool := decide (i < 4096)

/-- The unit exists (R326). -/
def UnitRef.ok : UnitRef → Bool
  | .tileRef t _ => tileOk t
  | _ => true

/-- The causes for which a unit's own checks make it give up (R327). -/
def UnitRef.causes : UnitRef → List Nat
  | .engine _ => [1, 2, 3, 4]
  | .timebase _ => [1, 2, 5]
  | .tileRef _ _ => [2, 5]

/-- The bytes of a slot that are read (R378). -/
def SlotHead.ok (h : SlotHead) : Bool := h.header.length == 64 && h.dir.length == 672

/-- The work of a schedule entry or of a rebuild (R105, R174). -/
def Work.ok : Work → Bool
  | .entry i => entryOk i
  | .rebuild b0 n => decide (b0 < 192) && decide (n ≤ 88)

/-- A granule address of layer memory (R243, R246). -/
def granuleOk (a : Nat) : Bool := decide (a < 0x38000000) && a % 32 == 0

/-- A port request (R246, R248). -/
def MemOp.ok : MemOp → Bool
  | .read _ a => granuleOk a
  | .write _ a data => granuleOk a && data.length == 32
  | .fww => true

/-- A disturbed header: its chain (R36). -/
def HdrErr.ok (h : HdrErr) : Bool := tileOk h.tile && decide (h.chain < 4)

/-- A disturbed pass (R37): data clocks 1 to 1,408. -/
def PassErr.ok (e : PassErr) : Bool :=
  (e.inb ++ e.out).all (fun f => decide (1 ≤ f.1) && decide (f.1 ≤ 1408)) && e.hdr.all HdrErr.ok

/-- Samples of one tile. -/
def samplesOk (xs : List PixSample) : Bool := xs.all (fun x => localOk x.idx)

/-- A Fairway frame on the wire (R212). -/
def frameOk (f : Bytes) : Bool := f.length == 2076

/-- A block on a lane, 8,192 UI (R187). -/
def blockOk (b : Line) : Bool := b.length == 8192

/-- What a loss of lock is judged by (R192). -/
def LossCause.ok : LossCause → Bool
  | .violations bs => decide (bs.length ≤ 64) && bs.all blockOk
  | .commas bs => bs.length == 3 && bs.all blockOk
  | .clockRecovery => true

/-- The packet body is whole words (R225). -/
def bodyOk (b : Bytes) : Bool := b.length % 4 == 0 && decide (b.length ≤ 4092)

/-- The command can reach the block. -/
def wellFormed : Instr → Bool
  | .flashHeaderRead a b _ mhz => (a.map SlotHead.ok).getD true && (b.map SlotHead.ok).getD true && decide (mhz.toNat ≤ 200)
  | .signatureVerified sig => sig.length == 256
  | .sectionVerified _ hdr => hdr.all HdrErr.ok
  | .trimImageRestore recs hdr => recs.all (fun r => r.2.length == 4096 && r.1 % 4096 == 0) && hdr.all HdrErr.ok
  | .startSelftestDone failed => failed.all (fun f => f.1.ok)
  | .tickZero _ temps => temps.length == 48
  | .tick temps => temps.length == 48
  | .limitTick temps => temps.length == 48
  | .pwmPeriodStart g => decide (g < 16)
  | .drivePulseSample t vled mv xs => tileOk t && decide (vled < 8192) && decide (mv < 1024) && samplesOk xs
  | .conversion t _ code => tileOk t && decide (code < 65536)
  | .probeWindow t xs => tileOk t && samplesOk xs
  | .checkerWindow t above => tileOk t && above.all localOk
  | .passApply t k e => tileOk t && decide (k < 4) && e.ok
  | .compose w _ poison corrected fetched => w.ok && (poison ++ corrected ++ fetched).all granuleOk
  | .chainDrive w hdr bb => w.ok && hdr.all HdrErr.ok && bb.all (fun e => decide (e.p < 1081344))
  | .chainAux w hdr => w.ok && hdr.all HdrErr.ok
  | .refresh i _ _ _ => entryOk i
  | .ledger i _ poison corrected => entryOk i && (poison ++ corrected).all granuleOk
  | .scan i _ _ poison corrected => entryOk i && (poison ++ corrected).all granuleOk
  | .health i _ poison corrected => entryOk i && (poison ++ corrected).all granuleOk
  | .retrain i _ _ _ => entryOk i
  | .entryDeadline i => entryOk i
  | .refclkPresent windows _ => decide (100 ≤ windows.length)
  | .laneLock lane _ bs b => laneOk lane && (bs ++ [b]).all blockOk
  | .laneLoss lane c => laneOk lane && c.ok
  | .ftsA lane b x => laneOk lane && blockOk b && x.taps.length == 3
  | .ftsB lane b at_ => laneOk lane && blockOk b && at_.length == 4
  | .widthSet lane b => laneOk lane && blockOk b
  | .widthAck lane b => laneOk lane && blockOk b
  | .restoreSet lane b => laneOk lane && blockOk b
  | .releaseSet lane b => laneOk lane && blockOk b
  | .idleFrame f bs => frameOk f && bs.all (fun b => laneOk b.1 && blockOk b.2)
  | .vc0Frame f => frameOk f
  | .vc1Frame f => frameOk f
  | .witnessFrame bb => bb.all (fun e => decide (e.p < 1081344))
  | .helloH f => frameOk f
  | .finishH f => frameOk f
  | .abort f => frameOk f
  | .generationComplete b => decide (b < 256)
  | .layer b => bodyOk b
  | .sectorSet b => bodyOk b
  | .symbolSet b => bodyOk b
  | .commit b => bodyOk b
  | .mode b => bodyOk b
  | .blend b => bodyOk b
  | .time b => bodyOk b
  | .giveUp u cause => u.ok && u.causes.contains cause
  | .standbyParityFault u => u.ok
  | .selftestPass u => u.ok
  | .selftestFail u _ => u.ok
  | .resync u => u.ok
  | .memRequest op => op.ok
  | .memTransferDone ch _ _ levels => decide (ch < 2) && levels.length == 3
  | .refreshDue ch => decide (ch < 2)
  | .fallbackCopyDone poison corrected => (poison ++ corrected).all (fun a => decide (a < 0x38000000) && a % 8 == 0)
  | _ => true

end Sys2Proof
end

