-- ==== Sys2Proof/Machine/Changer.lean ====
section
/-! DEFINITION. The lamp changer (R326 to R338): the state of the duplicated instances, give-up and takeover, self-test,
resynchronisation and retirement. -/

namespace Sys2Proof.Machine

/-! ## Instances -/

/-- Keeper source ID under which a unit is reported (R299, R5). -/
def unitSource : UnitRef → Nat
  | .engine b => 0xC0 + b1 b
  | .timebase b => 0xC2 + b1 b
  | .tileRef t _ => t

/-- Instance B of its pair. -/
def unitB : UnitRef → Bool
  | .engine b => b
  | .timebase b => b
  | .tileRef _ b => b

/-- The other instance of the pair. -/
def unitPartner : UnitRef → UnitRef
  | .engine b => .engine (!b)
  | .timebase b => .timebase (!b)
  | .tileRef t b => .tileRef t (!b)

/-- The unit exists. -/
def unitExists : UnitRef → Bool
  | .tileRef t _ => decide (t < 192)
  | _ => true

/-- The pair of a unit. -/
def Chg.pair (c : Chg) : UnitRef → Pair
  | .engine _ => c.eng
  | .timebase _ => c.tb
  | .tileRef t _ => SMap.get {} c.refs t

/-- Change the pair of a unit. -/
def Chg.onPair (c : Chg) (u : UnitRef) (f : Pair → Pair) : Chg :=
  match u with
  | .engine _ => { c with eng := f c.eng }
  | .timebase _ => { c with tb := f c.tb }
  | .tileRef t _ => { c with refs := SMap.upd {} c.refs t f }

/-- State of one instance. -/
def Pair.inst (p : Pair) (b : Bool) : InstState := if b then p.b else p.a

/-- Set the state of one instance. -/
def Pair.setInst (p : Pair) (b : Bool) (st : InstState) : Pair := if b then { p with b := st } else { p with a := st }

/-- An instance has met its resynchronisation point (R332). -/
def Pair.met (p : Pair) (b : Bool) : Bool := if b then p.pointB else p.point

/-- Note that of one instance. -/
def Pair.setPoint (p : Pair) (b v : Bool) : Pair := if b then { p with pointB := v } else { p with point := v }

/-- The instance a unit names is in a state. -/
def Chg.is (c : Chg) (u : UnitRef) (st : InstState) : Bool := (c.pair u).inst (unitB u) == st

/-- Code of an instance state (R326). -/
def InstState.code : InstState → Nat
  | .active => 0 | .standby => 1 | .selftest => 2 | .resync => 3 | .retired => 4

/-- Some instance of a pair is SELFTEST or RESYNC (R334, R413). -/
def Pair.busy (p : Pair) : Bool :=
  p.a == .selftest || p.a == .resync || p.b == .selftest || p.b == .resync

/-- Some duplicated unit is SELFTEST or RESYNC (R413). -/
def Chg.busy (c : Chg) : Bool := c.eng.busy || c.tb.busy || c.refs.any (fun e => e.2.busy)

/-- Give-up times of an instance, drills excepted (R333). -/
def Pair.gave (p : Pair) (b : Bool) : List Nat := if b then p.gaveB else p.gaveA

/-- Record a give-up time (R333). -/
def Pair.record (p : Pair) (b : Bool) (ms : Nat) : Pair :=
  if b then { p with gaveB := (ms :: p.gaveB).take 3 } else { p with gaveA := (ms :: p.gaveA).take 3 }

/-- The give-up at `ms` is the third of the instance within 3,600 s (R333). -/
def Pair.third (p : Pair) (b : Bool) (ms : Nat) : Bool :=
  match p.gave b with
  | _ :: old :: _ => decide (ms - old ≤ 3600000)
  | _ => false

/-! ## Takeover -/

/-- A tile-reference takeover discards the tile's sweep data (R266) and makes its reference settle (R272, R275). Where the tile's TRIM
passes are being staged, R266 does not say what becomes of the accepted masks that stand in shadow masks: here a chain staged before
the takeover keeps them and commits them, and a chain staged after it carries the active masks (DEDUCED, log 146). -/
def Dev.calAbort (d : Dev) (t : Nat) : Dev :=
  (d.onCal (fun c => { c with tiles := SMap.upd {} c.tiles t (fun x => { x with
    meas := [], m := [], median := 0, cands := [], accepted := [], limited := 0, sSum := 0, sqSum := 0, sqN := 0, owed := []
    rho := (0, 1), cellSums := List.replicate 16 (0, 0), newCells := none, aborted := true, refSettle := true }) })).raise 94

/-- Composition is complete and every DRIVE pass of the frame has applied (R331). -/
def Dev.frameBuilt (d : Dev) : Bool := d.comp.batches == BitVec.allOnes 88 && d.compositionGate

/-- The composition of the frame begins again from batch 0. -/
def Comp.restart (c : Comp) (engineB : Bool) : Comp :=
  { c with
    batches := 0, sums := [], kts := [], tloss := 0, tquads := 0, clip := 0, demand := 0, delivered := 0
    gen := c.gen + 1, rebuilt := true, engineB := engineB, loaded := 0, sectMap := [] }

/-- A beam-engine takeover restarts the frame in composition, unless it is built (R331, R174, R132). -/
def Dev.engineTakeover (d : Dev) (newB : Bool) : Dev :=
  if d.comp.content == .none || d.frameBuilt then d
  else
    let d := d.clearDrive.abandonPasses
    let d := d.onComp (fun c => c.restart newB)
    let d := d.onFrm (fun f => { f with suspended := true })
    let d := d.onWit (fun w => { w with next := 0 })
    let d := d.onChg (fun c => { c with rebuilding := true })
    (d.raise 71).raise 102

/-- What follows a timebase give-up, with a takeover or without one: conversions and judgements of the next 50.0 µs are discarded
(R266, R282). -/
def Dev.disturb (d : Dev) (u : UnitRef) : Dev :=
  match u with
  | .timebase _ => d.onCal (fun c => { c with discardUntil := d.now + 50 * cyclesPerUs })
  | _ => d

/-- What a takeover onto the partner does beyond the states (R329 to R331, R266). -/
def Dev.takeover (d : Dev) (u : UnitRef) : Dev :=
  match u with
  | .engine b => d.engineTakeover (!b)
  | .timebase _ => d
  | .tileRef t b => (d.onTile t (fun x => { x with refSel := !b })).calAbort t

/-- Count a takeover of the unit's pair (R337). -/
def Chg.countTakeover (c : Chg) (u : UnitRef) : Chg :=
  let c := c.onPair u (fun p => { p with takeovers := satInc 255 p.takeovers })
  match u with
  | .engine _ => { c with cntEng := satInc 255 c.cntEng }
  | .timebase _ => { c with cntTb := satInc 255 c.cntTb }
  | .tileRef _ _ => { c with cntRef := satInc 65535 c.cntRef }

/-- CHG_LAST and CHG_LAST_TICK (R337). -/
def Chg.recordLast (c : Chg) (u : UnitRef) (cause tick : Nat) (failed : Bool) : Chg :=
  { c with lastSource := unitSource u, lastCause := cause, lastB := unitB u, lastFailed := failed, lastTick := tick }

/-- An engine or a timebase (R334). -/
def unitCentral : UnitRef → Bool
  | .tileRef _ _ => false
  | _ => true

/-- GIVE_UP of a unit on the direct path (R300, R328). -/
def Dev.sendGiveUp (d : Dev) (u : UnitRef) (cause : Nat) : Dev := d.sendDirect (unitSource u) 0x10 2 cause

/-- A give-up of an instance is counted: at its third within 3,600 s it is RETIRED, which is sent (R333). -/
def Dev.countGiveUp (d : Dev) (u : UnitRef) : Dev :=
  let b := unitB u
  let ms := d.lampMs
  let third := (d.chg.pair u).third b ms
  let d := d.onChg (fun c => c.onPair u (fun p => if third then (p.record b ms).setInst b .retired else p.record b ms))
  if third then (d.sendDirect (unitSource u) 0x13 1 0).raise 101 else d

/-- The instance leaves service: SELFTEST, or RETIRED at its third give-up within 3,600 s (R328, R333). A drill is not counted. -/
def Dev.leaveService (d : Dev) (u : UnitRef) (cause : Nat) : Dev :=
  let d := d.onChg (fun c => c.onPair u (fun p => p.setInst (unitB u) .selftest))
  if cause = 0x11 then d else d.countGiveUp u

/-- The lamp changer clamps a tile off for want of a reference; TAKEOVER_FAIL has darkened it (R334, R337). -/
def Dev.clampTile (d : Dev) (t : Nat) : Dev :=
  (d.darken t).onChg (fun c => { c with darkTiles := c.darkTiles + b1 (!d.isDark t) })

/-- Which cause stands when several name one give-up of a KEEP cycle: the unit's own before KEEPER, KEEPER before DRILL (R334,
R472). -/
def causeRank (cause : Nat) : Nat := if cause = 0x11 then 0 else if cause = 0x10 then 1 else 2

/-- The pair of `u` has given up in this KEEP cycle, which is this cycle of the model's clock: what the give-up was (R334, log 133). -/
def Dev.gaveUpNow (d : Dev) (u : UnitRef) : Option GaveUp := (d.chg.pair u).last.filter (fun g => g.at_ == d.now)

/-- A further cause for the give-up that an instance has made in this KEEP cycle: there is one give-up, under the cause that stands,
counted once, and a drill that gives way to another cause is counted after all (R334, R472). -/
def Dev.giveUpAgain (d : Dev) (u : UnitRef) (cause : Nat) : Dev :=
  match d.gaveUpNow u with
  | some g =>
    if g.b == unitB u && decide (causeRank g.cause < causeRank cause) then
      let old := mkMsg (unitSource u) 0x10 2 g.cause
      let d := d.onKeep (fun k => { k with direct := k.direct.map (fun m => if m = old then mkMsg (unitSource u) 0x10 2 cause else m) })
      let d := d.onChg (fun c => { (c.onPair u (fun p => { p with last := some { g with cause := cause } })) with
        lastCause := if c.lastSource == unitSource u && c.lastB == unitB u then cause else c.lastCause })
      if g.cause = 0x11 then d.countGiveUp u else d
    else d
  | none => d

/-- An active instance gives up with a cause code (R327, R328, R334); `safe` says that SAFE is asserted. An instance that
is not active does not give up; where it has done so in this KEEP cycle, the cause is settled. -/
def Dev.giveUp (d : Dev) (safe : Bool) (u : UnitRef) (cause : Nat) : Dev :=
  if !unitExists u then d
  else if !d.chg.is u .active then d.giveUpAgain u cause
  else if safe && unitCentral u then
    (d.onChg (fun c => c.recordLast u cause d.frm.tick false)).sendGiveUp u cause
  else
    let ok := d.chg.is (unitPartner u) .standby
    let d := d.onChg (fun c => c.recordLast u cause d.frm.tick (!ok))
    let d := (d.sendGiveUp u cause).disturb u
    let d := d.onChg (fun c => c.onPair u (fun p => { p with last := some { at_ := d.now, b := unitB u, cause := cause, ok := ok } }))
    let d := d.leaveService u cause
    if ok then
      let d := d.onChg (fun c => (c.onPair u (fun p => p.setInst (!unitB u) .active)).countTakeover u)
      (d.raise 96).takeover u
    else
      let d := (d.sendDirect (unitSource u) 0x11 (if unitCentral u then 3 else 1) 0).raise 97
      match u with
      | .tileRef t _ => if safe then d.clampTile t else d
      | _ => d

/-- An instance checks itself, and the lamp changer hears of it: an engine and a timebase while their clock runs, a tile reference
with KEEP alone (R16, R27, R318, R327, R415). -/
def Dev.selfChecks (d : Dev) (u : UnitRef) : Bool := d.keeperRuns && (d.pwr.mainOn || !unitCentral u)

/-- GIVE_UP: a self-check of R327 fails in the active instance, with one of the causes of its unit. -/
def execGiveUp (u : UnitRef) (cause : Nat) (s : State) : Host.Outcome State Fault Refusal :=
  .next (s.onDev (fun d =>
    if d.selfChecks u && (UnitRef.causes u).contains cause then d.giveUp s.lat.safe u cause else d))

/-- STANDBY_PARITY_FAULT: a standby leaves service without a takeover; it is reported and counted as a give-up with cause
0x02 (R327). -/
def execStandbyParityFault (u : UnitRef) (s : State) : Host.Outcome State Fault Refusal :=
  .next (s.onDev (fun d =>
    if d.selfChecks u && unitExists u && d.chg.is u .standby then
      ((d.onChg (fun c => c.recordLast u 2 d.frm.tick false)).sendGiveUp u 2).leaveService u 2
    else d))

/-! ## Self-test and resynchronisation (R332) -/

/-- SELFTEST_PASS: an isolated instance waits for its resynchronisation point. -/
def execSelftestPass (u : UnitRef) (s : State) : Host.Outcome State Fault Refusal :=
  .next (s.onDev (fun d =>
    if d.keeperRuns && unitExists u && d.chg.is u .selftest then
      (d.onChg (fun c => c.onPair u (fun p => (p.setInst (unitB u) .resync).setPoint (unitB u) false))).raise 98
    else d))

/-- SELFTEST_FAIL: the instance is retired (R332). -/
def execSelftestFail (u : UnitRef) (test : Nat) (s : State) : Host.Outcome State Fault Refusal :=
  .next (s.onDev (fun d =>
    if d.keeperRuns && unitExists u && d.chg.is u .selftest then
      let d := d.onChg (fun c => { c.onPair u (fun p => p.setInst (unitB u) .retired) with runFails := satInc 65535 c.runFails })
      ((d.sendDirect (unitSource u) 0x12 1 test).raise 99).raise 101
    else d))

/-- RESYNC: at its resynchronisation point, which the last tick was, the instance becomes STANDBY (R332). -/
def execResync (u : UnitRef) (s : State) : Host.Outcome State Fault Refusal :=
  .next (s.onDev (fun d =>
    if d.keeperRuns && unitExists u && d.chg.is u .resync && (d.chg.pair u).met (unitB u) then
      (d.onChg (fun c => c.onPair u (fun p => (p.setInst (unitB u) .standby).setPoint (unitB u) false))).raise 100
    else d))

/-- A tick is the resynchronisation point of timebases and tile references, and of an engine when it applies a commit
(R332). -/
def Chg.tickPoints (c : Chg) (applied : Bool) : Chg :=
  let mark (p : Pair) : Pair := { p with point := p.point || p.a == .resync, pointB := p.pointB || p.b == .resync }
  { c with
    eng := if applied then mark c.eng else c.eng
    tb := mark c.tb
    refs := SMap.mapAll {} (fun _ p => mark p) c.refs }

/-! ## Start self-tests (R326) -/

/-- One instance fails its start self-test: it is retired, and its partner is in control if it passes. -/
def Dev.startFail (d : Dev) (u : UnitRef) (test : Nat) : Dev :=
  if !unitExists u || d.chg.is u .retired then d
  else
    let b := unitB u
    let other := (d.chg.pair u).inst (!b)
    let d := d.onChg (fun c => c.onPair u (fun p =>
      let p := p.setInst b .retired
      if other == .retired then p else p.setInst (!b) .active))
    let d := ((d.sendDirect (unitSource u) 0x12 1 test).raise 99).raise 101
    match u with
    | .tileRef t b => d.onTile t (fun x => { x with refSel := if other == .retired then x.refSel else !b })
    | _ => d

/-- Both instances of a pair are retired. -/
def Pair.lost (p : Pair) : Bool := p.a == .retired && p.b == .retired

/-- START_SELFTEST_DONE: the start self-tests are complete; `failed` names the instances that failed and the failing test
(R326, R332). A pair without an instance in control sends TAKEOVER_FAIL under its first instance; a tile without a reference is dark,
at once where SAFE, asserted or about to be, keeps the Keeper from applying the reaction (R308, R334, log 112). -/
def execStartSelftestDone (failed : List (UnitRef × Nat)) (s : State) : Host.Outcome State Fault Refusal :=
  .next (s.onDev (fun d =>
    if !d.inStart || d.chg.startDone || !d.pwr.mainOn || !d.keeperRuns then d
    else
      let d := failed.foldl (fun d f => d.startFail f.1 f.2) d
      let c := d.chg
      let pass := b1 (c.eng.a != .retired) + 2 * b1 (c.eng.b != .retired) + 4 * b1 (c.tb.a != .retired) + 8 * b1 (c.tb.b != .retired)
      let bad := c.refs.filter (fun e => e.2.a == .retired || e.2.b == .retired)
      let d := d.onChg (fun c => { c with startDone := true, startPass := BitVec.ofNat 4 pass, refFails := bad.length })
      let d := if c.eng.lost then d.sendDirect 0xC0 0x11 3 0 else d
      let d := if c.tb.lost then d.sendDirect 0xC2 0x11 3 0 else d
      let clamp := s.lat.safe || c.eng.lost || c.tb.lost
      bad.foldl (fun d e =>
        if e.2.lost then
          let d := d.sendDirect e.1 0x11 1 0
          if clamp then d.clampTile e.1 else d
        else d) d))

end Sys2Proof.Machine
end

