-- ==== Sys2Proof/Machine/Ledger.lean ====
section
/-! DEFINITION. The lifetime ledger (R426 to R441): record bodies, checkpoints, their triggers and the write of one
record. -/

namespace Sys2Proof.Machine

/-! ## Records (R426, R429, R430) -/

/-- Timebase cycles in one second. -/
def cyclesPerS : Nat := 200000000

/-- A fault message in its six bytes (R298). -/
def Msg.bytes (m : Msg) : Bytes := toBe 1 m.source.toNat ++ toBe 1 (m.kind.toNat * 4 + m.sev.toNat) ++ toBe 4 m.addr.toNat

/-- An EVENT entry (R430). -/
def LEvent.bytes (e : LEvent) : Bytes := e.msg.bytes ++ toBe 1 e.flags ++ [0] ++ toBe 4 e.lampS ++ toBe 4 e.tick

/-- A CAL_HIST entry (R429). -/
def calHistBytes (h : List Nat) : Bytes :=
  toBe 4 (nth 0 h 0) ++ toBe 2 (nth 0 h 1) ++ toBe 1 (nth 0 h 2) ++ toBe 1 (nth 0 h 3) ++ toBe 4 (nth 0 h 4) ++ toBe 4 (nth 0 h 5)

/-- Fill a run with zeros up to `n` bytes, and cut it there. -/
def padTo (n : Nat) (bs : Bytes) : Bytes := (bs ++ List.replicate (n - bs.length) 0).take n

/-- The least of a count and the largest value of its field. -/
def capped (mx n : Nat) : Nat := Nat.min mx n

/-- Cycles for which SAFE has been asserted (R429). -/
def Dev.safeOn (d : Dev) : Nat := (d.ledg.safeFrom.map (fun c => d.now - c)).getD 0

/-- The body of a STATE record (R429). -/
def Dev.stateBody (d : Dev) : Bytes :=
  let l := d.ledg
  toBe 4 l.starts ++ toBe 4 l.parks ++ toBe 4 (capped 0xFFFFFFFF ((l.arrayOn + d.safeOn) / cyclesPerS)) ++ toBe 2 (lowBits 16 l.tmax) ++
  toBe 1 d.sec.fails ++ [0] ++ toBe 8 l.anchorUtc ++ toBe 8 l.anchorClock ++
  (List.range 16).flatMap (fun i => toBe 4 (nth 0 l.thermal i)) ++
  (List.range 64).flatMap (fun i => toBe 4 (nth 0 l.kinds i)) ++
  padTo 128 (l.calHist.flatMap calHistBytes) ++
  (List.range 192).flatMap (fun t => toBe 4 (capped 0xFFFFFFFF (SMap.get 0 l.tileOn t / cyclesPerS))) ++
  (List.range 192).flatMap (fun t => toBe 8 (SMap.get {} d.cal.tiles t).q)

/-- The entries of the event buffer not yet written, oldest first (R430, R433, R439). -/
def Ledg.unwrittenEvents (l : Ledg) : List LEvent := l.events.filter (fun e => !e.written)

/-- An EVENT record with the entries of these numbers has been written (R433, R439). -/
def Ledg.eventsWritten (l : Ledg) (nos : List Nat) : Ledg :=
  { l with events := l.events.map (fun e => { e with written := e.written || nos.contains e.no }) }

/-- An EVENT record of some entries. -/
def eventRec (lampS : Nat) (es : List LEvent) : LRec :=
  { kind := 2, arg := 0, lampS := lampS, body := toBe 2 es.length ++ es.flatMap LEvent.bytes, events := es.map (·.no), retry := false }

/-- The up to two EVENT records of a checkpoint (R430, R433). -/
def eventRecs (lampS : Nat) (es : List LEvent) : List LRec :=
  if es.isEmpty then []
  else eventRec lampS (es.take 253) :: (if (es.drop 253).isEmpty then [] else [eventRec lampS (es.drop 253)])

/-- The 384 TRIM records of an image (R428, R432). -/
def trimRecs (lampS : Nat) (image : List Bytes) : List LRec :=
  image.mapIdx (fun p b => { kind := 3, arg := p, lampS := lampS, body := b, events := [], retry := false })

/-- The bytes of a record with number `seq` (R426). -/
def recordBytes (privKey : Bytes) (r : LRec) (seq : Nat) : Bytes :=
  let cause := if r.kind = 1 then r.arg else 0
  let part := if r.kind = 3 then r.arg else 0
  let head := toBe 4 0x55524F53 ++ toBe 1 r.kind ++ toBe 1 cause ++ toBe 2 part ++ toBe 4 seq ++ toBe 4 r.lampS
  let content := head ++ padTo 4064 r.body
  let tagged := content ++ (Config.hmacSha256 (Config.ledgerKey privKey) content).take 8 ++ toBe 4 0
  tagged ++ toBe 4 (crcCalc 32 0x04C11DB7 0xFFFFFFFF true true 0xFFFFFFFF (toBe 4 seq ++ tagged))

/-! ## Checkpoints (R433, R434) -/

/-- The loader holds the xSPI bus (R404). -/
def Cfg.holdsBus (c : Cfg) : Bool := !(c.load == .done || c.load == .halted)

/-- CAUSE of a STATE record; of a merged trigger the strongest (R426, R434, log 12). -/
def Trigger.cause (t : Trigger) : Nat := if t.pfw then 1 else if t.park then 2 else if t.periodic then 0 else 3

/-- A trigger merges into one that waits (R434). -/
def Trigger.merge (a b : Trigger) : Trigger :=
  { periodic := a.periodic || b.periodic, pfw := a.pfw || b.pfw, park := a.park || b.park, other := a.other || b.other }

/-- Begin a checkpoint: its content is taken in this cycle (R433). -/
def Dev.beginCheckpoint (d : Dev) (t : Trigger) : Dev :=
  let now := d.lampS
  let l := d.ledg
  let state : LRec := { kind := 1, arg := t.cause, lampS := now, body := d.stateBody, events := [], retry := false }
  let withImage := t.periodic && !t.pfw
  let trims := if withImage then (l.image.map (trimRecs now)).getD [] else []
  { d with ledg := { l with
      running := some t
      work := state :: eventRecs now l.unwrittenEvents ++ trims
      writing := if withImage then l.image else none, curSectors := []
      image := if withImage then none else l.image } }

/-- The TRIM image being written is abandoned: it is begun again at the next periodic checkpoint, unless a newer one is
pending (R434). -/
def Ledg.stopImage (l : Ledg) : Ledg :=
  { l with image := if l.image.isSome then l.image else l.writing, writing := none, curSectors := [] }

/-- What stands for the trigger of a checkpoint that PFW_N stopped, while its record in progress is still written (R434). -/
def stoppedTrigger : Trigger := { periodic := false, pfw := false, park := false, other := false }

/-- A checkpoint is triggered (R433, R434). -/
def Dev.checkpoint (d : Dev) (t : Trigger) : Dev :=
  match d.ledg.running with
  | none =>
    if d.cfg.holdsBus && !t.pfw then
      d.onLedg (fun l => { l with waiting := some ((l.waiting.map (·.merge t)).getD t) })
    else d.beginCheckpoint ((d.ledg.waiting.map (·.merge t)).getD t) |>.onLedg (fun l => { l with waiting := none })
  | some run =>
    if t.pfw then
      let t := (d.ledg.waiting.map (·.merge t)).getD t
      let t := { t with park := t.park || run.park }
      let d := d.onLedg (fun l => { l.stopImage with waiting := none })
      match d.ledg.work with
      | [] => d.beginCheckpoint t
      | [r] => if r.kind = 3 then d.beginCheckpoint t else d.onLedg (fun l => { l with waiting := some t })
      | r :: _ =>
        if r.kind = 3 then d.beginCheckpoint t
        else d.onLedg (fun l => { l with work := [r], running := some stoppedTrigger, waiting := some t })
    else d.onLedg (fun l => { l with waiting := some ((l.waiting.map (·.merge t)).getD t) })

/-- The trigger of a request of PARK prepare, and of SAFE entry or a lockout (R433). -/
def parkTrigger : Trigger := { periodic := false, pfw := false, park := true, other := false }
def otherTrigger : Trigger := { periodic := false, pfw := false, park := false, other := true }

/-- A trigger that waited begins once no checkpoint runs and the loader does not hold the bus; PFW_N takes it (R404, R434). -/
def Dev.busFreed (d : Dev) : Dev :=
  match d.ledg.running, d.ledg.waiting with
  | none, some t =>
    if d.cfg.holdsBus && !t.pfw then d else (d.beginCheckpoint t).onLedg (fun l => { l with waiting := none })
  | _, _ => d

/-- The running checkpoint has written its last record, or was stopped after the one in progress (R434, R439). -/
def Dev.checkpointDone (d : Dev) : Dev :=
  let stopped := d.ledg.running == some stoppedTrigger
  let park := (d.ledg.running.map (·.park)).getD false
  let d := if stopped then d else
    (d.onLedg (fun l => { l with checkpoints := satInc 65535 l.checkpoints })).raise 120
  let d := if park && !stopped then d.onPwr (fun p => { p with parkWritten := p.parkWritten || p.state == .prepare }) else d
  (d.onLedg (fun l => { l with running := none })).busFreed

/-- The image that is pending or being written is given up: none of its records is written any more (R432). -/
def Dev.dropImage (d : Dev) : Dev :=
  if d.ledg.image.isNone && d.ledg.writing.isNone then d
  else
    let d := d.onLedg (fun l => { l with
      image := none, writing := none, curSectors := [], work := l.work.filter (fun r => r.kind != 3) })
    if d.ledg.running.isSome && d.ledg.work.isEmpty then d.checkpointDone else d

/-- The sector of ring 1 that is written next: the first from the write pointer on that holds nothing of the newest complete image,
nor of the one being written (R428, log 113). -/
def Ledg.trimSector (l : Ledg) : Nat :=
  (((List.range 1024).map (fun k => (l.ptr1 + k) % 1024)).find? (fun n =>
    !(l.imgSectors.contains n || l.curSectors.contains n))).getD l.ptr1

/-- Where the next record of a kind goes: flash address, and the pointers after it (R376, R427). -/
def Ledg.place (l : Ledg) (kind : Nat) : Nat × Ledg :=
  if kind = 3 then (0x3C00000 + 4096 * l.trimSector, { l with ptr1 := (l.trimSector + 1) % 1024, erased1 := l.erased1 - 1 })
  else (0x3800000 + 4096 * l.ptr0, { l with ptr0 := (l.ptr0 + 1) % 1024, erased0 := l.erased0 - 1 })

/-- Sectors are erased ahead of the write pointers in the background: four stand ready in ring 0, the next one in ring 1 (R427,
log 113). -/
def Ledg.eraseAhead (l : Ledg) : Ledg := { l with erased0 := Nat.max 4 l.erased0, erased1 := Nat.max 1 l.erased1 }

/-- A TRIM record has been written into the sector at an address; with part 383 the image is the newest complete one (R428). -/
def Ledg.trimWritten (l : Ledg) (addr part : Nat) : Ledg :=
  let cur := l.curSectors ++ [(addr - 0x3C00000) / 4096]
  if part = 383 then
    { l with imgSectors := cur, curSectors := [], trimImages := satInc 65535 l.trimImages, writing := none }
  else { l with curSectors := cur }

/-- A record has been programmed and read back, the same (`ok`) or different (R427). -/
def Dev.recordWritten (d : Dev) (privKey : Bytes) (ok : Bool) : Dev :=
  match d.ledg.work with
  | [] => d
  | r :: rest =>
    let pl := d.ledg.place r.kind
    let l := pl.2.eraseAhead
    if ok then
      let seq := (l.seq + 1) % 2 ^ 32
      let l := { (l.eventsWritten r.events) with
        seq := seq, lastAddr := pl.1, lastRec := recordBytes privKey r seq, work := rest }
      let d := { d with ledg := l }
      let d := if r.kind = 3 then (d.onLedg (fun l => l.trimWritten pl.1 r.arg)).raiseIf (r.arg == 383) 121 else d
      if rest.isEmpty then d.checkpointDone else d
    else if r.retry then
      let left := if r.kind = 3 then [] else rest
      let l := { l with work := left, writeFails := satInc 255 l.writeFails }
      let l := if r.kind = 3 then l.stopImage else l
      let d := (({ d with ledg := l } : Dev).send 0xCB 0x3A 1 pl.1).raise 122
      if left.isEmpty then d.checkpointDone else d
    else { d with ledg := { l with work := { r with retry := true } :: rest } }

/-- 600 s of lamp clock in RUN have passed since the last periodic checkpoint (R433), which this row says; fusing of rollback steps follows the
first one after first light, while SAFE is clear (R392). -/
def State.periodicCheckpoint (s : State) : State :=
  let d := s.dev
  if d.frm.ticked && d.pwr.mainOn then
    let d := d.checkpoint { periodic := true, pfw := false, park := false, other := false }
    let due := decide (s.otp.rollback < hdrRollback d.cfg.head) && !s.lat.safe
    { s with dev := d.onCfg (fun c => { c with fuseDue := c.fuseDue || due }) }
  else s

/-- PERIODIC_CHECKPOINT. -/
def execPeriodicCheckpoint (s : State) : Host.Outcome State Fault Refusal := .next s.periodicCheckpoint

/-- PFW_N_FALL: the filtered falling edge of PFW_N in RUN (R433); in PARK it causes no write (R415). -/
def execPfwNFall (s : State) : Host.Outcome State Fault Refusal :=
  .next (s.onDev (fun d =>
    if d.frm.ticked && d.pwr.mainOn then d.checkpoint { periodic := false, pfw := true, park := false, other := false } else d))

/-- A read of the flash has ended that the loader does not make: the next one begins its repeats anew (R375). -/
def Cfg.readEnds (c : Cfg) : Cfg := { c with tries := if c.holdsBus then c.tries else 0 }

/-- RECORD_WRITTEN, which ends the read of the record that was programmed; in PARK nothing is written (R375, R415, R427). -/
def execRecordWritten (ok : Bool) (s : State) : Host.Outcome State Fault Refusal :=
  .next (if s.dev.pwr.mainOn then s.onDev (fun d => (d.onCfg Cfg.readEnds).recordWritten s.otp.privKey ok) else s)

/-- ROLLBACK_FUSE: one counter step of 1.00 ms is fused (R392); steps follow one another until the two values are equal. A
torn step reads as fused or as not fused: this row is a step that reads as fused. -/
def execRollbackFuse (s : State) : Host.Outcome State Fault Refusal :=
  let want := hdrRollback s.dev.cfg.head
  if s.dev.cfg.fuseDue && !s.lat.safe && s.dev.pwr.mainOn && decide (s.otp.rollback < want) then
    .next { s with
      otp := { s.otp with rollback := s.otp.rollback + 1 }
      dev := s.dev.onCfg (fun c => { c with fuseDue := decide (s.otp.rollback + 1 < want) }) }
  else .next s

end Sys2Proof.Machine
end

