-- ==== Sys2Proof/Machine/Keeper.lean ====
section
/-! DEFINITION. The Keeper (R298 to R322): message arrival, classification, logging, reactions, consequence windows, the
leading light, clearing, and the Keeper's own checks. -/

namespace Sys2Proof.Machine

/-! ## Kinds (R299) -/

/-- Kind codes that are never sent. -/
def kindReserved (k : Nat) : Bool :=
  k == 0 || (decide (0x27 ≤ k) && decide (k ≤ 0x2F)) || k == 0x3E || k == 0x3F

/-- A tile source. -/
def srcTile (src : Nat) : Bool := decide (src < 0xC0)
/-- The sources 0xC0 to 0xC3. -/
def srcUnit (src : Nat) : Bool := decide (0xC0 ≤ src) && decide (src ≤ 0xC3)

/-- R299 lists a source among the senders of a kind (log 30). -/
def kindSender (k src : Nat) : Bool :=
  if k ≤ 0x0F then srcTile src && k != 0
  else if k ≤ 0x13 then srcTile src || srcUnit src
  else if k = 0x14 then src == 0xC0 || src == 0xC1
  else if k = 0x15 ∨ k = 0x16 then src == 0xCD
  else if k = 0x17 then src == 0xC4 || src == 0xCE
  else if k = 0x18 ∨ k = 0x19 then src == 0xC4
  else if k = 0x1A then src == 0xC4 || src == 0xC5
  else if k = 0x1B ∨ k = 0x1C then src == 0xC4
  else if k ≤ 0x22 then src == 0xC5
  else if k = 0x23 then src == 0xC8
  else if k = 0x24 then src == 0xC6
  else if k = 0x25 then src == 0xCF
  else if k = 0x26 then src == 0xCC
  else if k < 0x30 then false
  else if k ≤ 0x3B then decide (0xC7 ≤ src) && decide (src ≤ 0xCB)
  else if k ≤ 0x3D then src == 0xFF
  else false

/-! ## Arrival (R300) -/

/-- KEEPER_MESSAGE: the oldest message on its way reaches the FIFO of its source, or is dropped when it holds four. -/
def Dev.keeperMessage (d : Dev) : Dev :=
  match d.keep.transit with
  | [] => d
  | m :: rest =>
    let d := d.onKeep (fun k => { k with transit := rest })
    if (d.keep.fifos.filter (fun x => x.source == m.source)).length < 4 then
      d.onKeep (fun k => { k with fifos := k.fifos ++ [m] })
    else (d.onKeep (fun k => { k with dropped := satInc 255 k.dropped })).raise 14

/-- The oldest message of every source, and what stays (R300). -/
def takeHeads : List Msg → List Msg → List Msg → List Msg × List Msg
  | [], heads, rest => (heads, rest)
  | m :: ms, heads, rest =>
    if heads.any (fun x => x.source == m.source) then takeHeads ms heads (rest ++ [m])
    else takeHeads ms (heads ++ [m]) rest

/-- The direct path brings every message; a TAKEOVER_FAIL comes one KEEP cycle after the GIVE_UP of its unit (R328). -/
def takeDirect (ms : List Msg) : List Msg × List Msg :=
  ms.partition (fun m => !(m.kind == 0x11 && ms.any (fun g => g.kind == 0x10 && g.source == m.source)))

/-! ## Classification (R302 to R305) -/

/-- A classified message. -/
structure Class where
  msg : Msg
  sev : Nat
  react : Nat
  hardwired : Bool
  defaulted : Bool
  /-- SAFE_CAUSE if it sets SAFE. -/
  cause : Nat
  deriving DecidableEq, Repr, Inhabited

/-- The built-in defaults (R305). -/
def builtinReact (sev : Nat) : Nat := if sev = 0 then 0x001 else if sev = 3 then 0x207 else 0x007

/-- Classify a message (R302). -/
def Dev.classify (d : Dev) (m : Msg) : Class :=
  let src := m.source.toNat
  let k := m.kind.toNat
  let sev := m.sev.toNat
  if src = 0xFF then
    { msg := m, sev := 3, react := 0x207, hardwired := true, defaulted := false, cause := if k = 0x3D then 4 else 3 }
  else if k = 0x11 ∧ srcTile src then { msg := m, sev := 1, react := 0x27, hardwired := true, defaulted := false, cause := 2 }
  else if k = 0x11 ∧ srcUnit src then { msg := m, sev := 3, react := 0x207, hardwired := true, defaulted := false, cause := 2 }
  else if d.keep.tableLoaded then
    match d.keepEntries.find? (fun e => decide (e.lo ≤ src) && decide (src ≤ e.hi) && e.kind == k) with
    | some e => { msg := m, sev := e.sev, react := e.react, hardwired := false, defaulted := false, cause := 1 }
    | none =>
      let df := d.keepDef sev
      { msg := m, sev := sev, react := if df = 0 then builtinReact sev else df, hardwired := false, defaulted := true, cause := 1 }
  else { msg := m, sev := sev, react := builtinReact sev, hardwired := false, defaulted := true, cause := 1 }

/-- The order of handling (R309): severity highest first, then source, then kind. -/
def Class.before (a b : Class) : Bool :=
  decide (b.sev < a.sev) || (a.sev == b.sev && (decide (a.msg.source.toNat < b.msg.source.toNat) ||
    (a.msg.source == b.msg.source && decide (a.msg.kind.toNat < b.msg.kind.toNat))))

/-! ## Consequence windows (R316) -/

/-- The pixels that ADDRESS of a pixel kind names, of a pair both members (R299, R289, log 13). -/
def Msg.pixels (m : Msg) : List Nat :=
  let k := m.kind.toNat
  let p := bits m.addr.toNat 0 21
  if !(srcTile m.source.toNat) then []
  else if k = 0x0B ∨ k = 0x0D then [p, if bit m.addr.toNat 31 then p + 1536 else p + 1]
  else if 0x09 ≤ k ∧ k ≤ 0x0C then [p]
  else []

/-- A window covers a message. -/
def Window.covers (w : Window) (m : Msg) : Bool :=
  let src := m.source.toNat
  let k := m.kind.toNat
  match w with
  | .pixels ps tiles =>
    m.pixels.any (fun p => ps.contains p || ps.any (fun q => (neighbours q).contains p)) || (k == 0x08 && tiles.contains src)
  | .tile t => src == t || k == 0x15 || k == 0x16
  | .timebase => srcTile src || srcUnit src || src == 0xCD
  | .engine => src == 0xC0 || src == 0xC1 || src == 0xC4 || src == 0xC6 || src == 0xCD || src == 0xCE
  | .beam => src == 0xC0 || src == 0xC1
  | .all => true

/-- The window of a give-up of the unit with this source. -/
def giveUpWindow (src : Nat) : Option Window :=
  if srcTile src then some (.tile src)
  else if src = 0xC0 ∨ src = 0xC1 then some .engine
  else if src = 0xC2 ∨ src = 0xC3 then some .timebase
  else none

/-- Open a window. -/
def Dev.openWindow (d : Dev) (w : Window) : Dev := d.onKeep (fun k => { k with windows := k.windows ++ [w] })

/-- CONSEQUENCE_WINDOW_CLOSE: the oldest window closes 100 µs of the KEEP clock after it opened. -/
def Dev.closeWindow (d : Dev) : Dev := d.onKeep (fun k => { k with windows := k.windows.drop 1 })

/-! ## Time stamps (R310) -/

/-- What a clock of limited accuracy counts in `t` cycles: the free count, held to ± 1/`acc` (log 8). -/
def looseCount (draw acc t : Nat) : Nat := Nat.min (t + t / acc) (Nat.max (t - t / acc) (Config.keepCount draw t))

/-- Cycles that the KEEP clock has counted since the last tick the KEEP domain has seen, or since time 0 before tick 0: without those
in which it stood still (R310, R318). -/
def Dev.keepSince (d : Dev) : Nat :=
  let k := d.keep
  d.now - (if k.ticked then k.tickAt else d.timeZero) - k.stood - (if k.clockLost then d.now - k.lostAt else 0)

/-- µs since the last tick the KEEP domain has seen, or since time 0 before tick 0, on the KEEP clock. -/
def Dev.keepUs (d : Dev) : Nat :=
  let since := d.keepSince
  Nat.min 65535 (looseCount d.keep.draws 10 since / cyclesPerUs)

/-! ## Logging (R306, R310, R311, R430) -/

/-- The history entry of a message. -/
def Dev.histOf (d : Dev) (c : Class) (conseq : Bool) : Hist :=
  { msg := c.msg, sev := BitVec.ofNat 2 c.sev, conseq := conseq, hardwired := c.hardwired, defaulted := c.defaulted
    preTick := !d.keep.ticked, seq := BitVec.ofNat 16 (d.keep.received + 1)
    tick := if d.keep.ticked then d.keep.tick else 0, us := d.keepUs }

/-- Flag byte of an event-buffer entry (R430). -/
def Hist.flags (h : Hist) : Nat := h.sev.toNat + 4 * b1 h.conseq + 8 * b1 h.hardwired + 16 * b1 h.defaulted + 32 * b1 h.preTick

/-- A logged message goes to the ledger (R430, R429). -/
def Dev.ledgerLog (d : Dev) (h : Hist) : Dev :=
  let e : LEvent := { msg := h.msg, flags := h.flags, lampS := d.lampS, tick := h.tick, no := d.ledg.logged + 1 }
  d.onLedg (fun l => { l with
    events := (l.events ++ [e]).drop (l.events.length + 1 - 256)
    logged := l.logged + 1
    kinds := updNth l.kinds h.msg.kind.toNat (satInc 0xFFFFFFFF) })

/-- The message enters the history queue (R310, R311, R325). -/
def Dev.log (d : Dev) (h : Hist) : Dev :=
  let full := decide (16 ≤ d.keep.hist.length)
  let d := d.raiseIf (full && !d.keep.wrapped) 15
  let d := d.onKeep (fun k => { k with
    hist := (h :: k.hist).take 16
    received := wrapAdd k.received 1
    overwritten := if full then wrapAdd k.overwritten 1 else k.overwritten
    wrapped := k.wrapped || full
    sevCnt := if h.conseq then k.sevCnt else updNth k.sevCnt h.sev.toNat (satInc 255)
    conseq := if h.conseq then satInc 65535 k.conseq else k.conseq })
  d.ledgerLog h

/-! ## Entering the leading light (R322) -/

/-- What stops when the SAFE latch is set: chains, witness, calibration and diagnostics (R322, R266, R282, R241). In START
the passes that write and verify the safe mask go on until the leading light lights (R399). -/
def Dev.stopForSafe (d : Dev) : Dev :=
  let d := d.onArr (fun a => { a with passes := if d.inStart then a.passes else [], roundOn := false })
  let d := d.witnessStop
  let d := d.onLedg (fun l => { l with safeFrom := some d.now })
  let d := d.onCal (fun c => { c with stopped := true, commitDue := false, passEndDue := false })
  d.onDiag (fun g => { g with stopped := true })

/-- Set the SAFE latch with its cause; event KEEP_SAFE and the checkpoint follow at once (R322, R323). A latch that is set
stays as it is. -/
def State.setSafe (s : State) (cause : Nat) : State :=
  if s.lat.safe then s
  else
    let s := s.onLat (fun l => { l with safe := true, safeCause := BitVec.ofNat 3 cause })
    s.onDev (fun d => (d.raise 11).stopForSafe.checkpoint otherTrigger)

/-! ## Reactions (R306 to R308) -/

/-- Isolate pixels named by ADDRESS, and open their window, which covers the tie partners isolated with them (R291, R306, R316). -/
def Dev.reactIsolate (d : Dev) (m : Msg) : Dev :=
  let src := m.source.toNat
  let k := m.kind.toNat
  let p := bits m.addr.toNat 0 21
  if !(srcTile src) then d
  else if k = 0x09 ∨ k = 0x0A ∨ k = 0x0C then
    if nPixels ≤ p ∨ tileOf p ≠ src ∨ (d.pix p).isolated then d
    else
      let both := p :: (match d.partner p with | some q => [q] | none => [])
      (d.isolate p (if k = 0x09 then 1 else 2)).openWindow (.pixels both (both.map tileOf))
  else if k = 0x0D then
    match pairOf m.addr.toNat with
    | some (p, q, _) =>
      if tileOf p ≠ src ∨ ((d.pix p).isolated ∧ (d.pix q).isolated) then d
      else
        let all := p :: q :: ([p, q].filter (fun x => !(d.pix x).isolated)).filterMap d.partner
        let d := (d.isolate p 2).isolate q 2
        let d := (d.onDiag (fun g => { g with tieFull := satInc 65535 g.tieFull })).raise 83
        d.openWindow (.pixels all (all.map tileOf))
    | none => d
  else d

/-- Tie the pair named by ADDRESS (R306, R316). -/
def Dev.reactTie (d : Dev) (m : Msg) : Dev :=
  if m.kind = 0x0B then
    match pairOf m.addr.toNat with
    | some (p, q, v) =>
      if tileOf p = m.source.toNat ∧ (d.pix p).cls = 0 ∧ (d.pix q).cls = 0 then
        (d.tie p q v).openWindow (.pixels [p, q] [tileOf p, tileOf q])
      else d
    | none => d
  else d

/-- The source tile becomes dark (R306, R316); a tile darkened by TAKEOVER_FAIL is counted (R337). -/
def Dev.reactDark (d : Dev) (m : Msg) : Dev :=
  let t := m.source.toNat
  if srcTile t && !d.isDark t then
    let d := (d.darken t).openWindow (.tile t)
    if m.kind = 0x11 then d.onChg (fun c => { c with darkTiles := c.darkTiles + 1 }) else d
  else d

/-- Instance B of the pair of `u` was in control as this KEEP cycle began; `b` says whether it is now (R334). -/
def Dev.inControl (d : Dev) (u : UnitRef) (b : Bool) : Bool := match d.gaveUpNow u with
  | some g => g.b
  | none => b

/-- The target of GIVE_UP (R307): of a tile, of CE0 and of CE1 the instance in control. -/
def Dev.giveUpTarget (d : Dev) (m : Msg) : Option UnitRef :=
  let src := m.source.toNat
  if m.kind = 0x10 then none
  else if srcTile src then some (.tileRef src (d.inControl (.tileRef src false) (d.chg.refActiveB src)))
  else if src = 0xC0 then some (.engine false)
  else if src = 0xC1 then some (.engine true)
  else if src = 0xC2 then some (.timebase false)
  else if src = 0xC3 then some (.timebase true)
  else if src = 0xCD ∨ src = 0xCE then some (.engine (d.inControl (.engine false) d.engineB))
  else none

/-- The target gives up with cause KEEPER (R307, R327). -/
def Dev.reactGiveUp (d : Dev) (m : Msg) : Dev :=
  match d.giveUpTarget m with
  | some u =>
    if d.chg.is u .active then
      let d := d.giveUp false u 0x10
      match giveUpWindow (unitSource u) with
      | some w => d.openWindow w
      | none => d
    else d.giveUpAgain u 0x10
  | none => d

/-- DIP or STANDALONE is held at the message's severity (R306, R325). -/
def Dev.reactDip (d : Dev) (sev : Nat) : Dev :=
  ((d.raiseIf (!d.keep.dipHeld) 17).onKeep (fun k => { k with dip := k.dip ||| (1#4 <<< sev) })).openWindow .beam
def Dev.reactStandalone (d : Dev) (sev : Nat) : Dev :=
  ((d.raiseIf (!d.keep.standaloneHeld) 18).onKeep (fun k => { k with standalone := k.standalone ||| (1#4 <<< sev) })).openWindow .beam

/-- The reactions other than LOG, ATTN, FAULT_PIN and SAFE. -/
def Dev.react (d : Dev) (c : Class) : Dev :=
  let d := if bit c.react 3 then d.reactIsolate c.msg else d
  let d := if bit c.react 4 then d.reactTie c.msg else d
  let d := if bit c.react 5 then d.reactDark c.msg else d
  let d := if bit c.react 6 then d.reactGiveUp c.msg else d
  let d := if bit c.react 7 then d.reactDip c.sev else d
  if bit c.react 8 then d.reactStandalone c.sev else d

/-- ATTN, the first fault and FAULT_PIN (R306, R312, R313). Event 11 is that of the SAFE latch (R325). -/
def Dev.attnFirstPin (d : Dev) (c : Class) (h : Hist) : Dev :=
  let d := d.raiseIf (bit c.react 1 && decide (c.sev < 3)) (8 + c.sev)
  let d := if decide (1 ≤ c.sev) && d.keep.first.isNone && !d.keep.uncleared then
      (d.onKeep (fun k => { k with first := some h })).raise 12
    else d
  if bit c.react 2 then
    d.onKeep (fun k => { k with unc1 := k.unc1 || c.sev == 1, unc2 := k.unc2 || c.sev == 2, unc3 := k.unc3 || c.sev == 3 })
  else d

/-- Handle one message of the cycle; `open_` are the windows that were open when it was taken (R308, R309, R316). -/
def State.handle (s : State) (open_ : List Window) (c : Class) : State :=
  let conseq := c.sev != 3 && !c.hardwired && open_.any (fun w => w.covers c.msg)
  let h := s.dev.histOf c conseq
  let s := s.onDev (fun d => d.log h)
  let s := if c.msg.kind = 0x10 then
      match giveUpWindow c.msg.source.toNat with
      | some w => s.onDev (fun d => d.openWindow w)
      | none => s
    else s
  if conseq then s
  else
    let s := s.onDev (fun d => d.attnFirstPin c h)
    if s.lat.safe then s
    else
      let s := s.onDev (fun d => d.react c)
      if bit c.react 9 then (s.setSafe c.cause).onDev (fun d => d.openWindow .all) else s

/-- KEEPER_TAKE: in one KEEP cycle every head is taken, classified, ordered and handled (R300, R302, R309). -/
def State.keeperTake (s : State) : State :=
  let heads := takeHeads s.dev.keep.fifos [] []
  let direct := takeDirect s.dev.keep.direct
  let taken := heads.1 ++ direct.1
  if taken.isEmpty then s
  else
    let open_ := s.dev.keep.windows
    let cs := sortBy Class.before (taken.map s.dev.classify)
    let s := s.onDev (fun d => d.onKeep (fun k => { k with fifos := heads.2, direct := direct.2 }))
    let s := cs.foldl (fun s c => s.handle open_ c) s
    s.onDev (fun d => d.onKeep (fun k => { k with draws := k.draws + 1 }))

/-- KEEPER_MESSAGE. -/
def execKeeperMessage (s : State) : Host.Outcome State Fault Refusal :=
  .next (if s.dev.keeperRuns then s.onDev Dev.keeperMessage else s)

/-- KEEPER_TAKE. -/
def execKeeperTake (s : State) : Host.Outcome State Fault Refusal :=
  .next (if s.dev.keeperRuns then s.keeperTake else s)

/-- CONSEQUENCE_WINDOW_CLOSE. -/
def execConsequenceWindowClose (s : State) : Host.Outcome State Fault Refusal :=
  .next (if s.dev.keeperRuns then s.onDev Dev.closeWindow else s)

/-! ## The Keeper's own checks (R313, R317, R318) -/

/-- KEEPER_PARITY: a parity error sends KEEPER_PARITY on the direct path, which asserts SAFE when it is taken (R302, R317). -/
def execKeeperParity (offset : Nat) (s : State) : Host.Outcome State Fault Refusal :=
  .next (if s.dev.keeperRuns then s.onDev (fun d => d.sendDirect 0xFF 0x3C 3 offset) else s)

/-- KEEP_CLOCK_LOSS: the AON monitor sets the SAFE latch without a KEEP clock; in PARK it is off (R318, R415). -/
def execKeepClockLoss (s : State) : Host.Outcome State Fault Refusal :=
  .next (if s.dev.pwr.keepDomain && !s.dev.keep.clockLost then
      (s.setSafe 0).onDev (fun d => d.onKeep (fun k => { k with clockLost := true, lostAt := d.now }))
    else s)

/-- KEEPER_REGISTER_CHECK: the Keeper has checked its own registers after its oscillator started (R313, R419). -/
def execKeeperRegisterCheck (s : State) : Host.Outcome State Fault Refusal :=
  .next (s.onDev (fun d => if d.keeperRuns then d.onKeep (fun k => { k with unchecked := false }) else d))

/-! ## The table (R302, R394) -/

/-- KEEPER_TABLE takes effect (R302, R323). -/
def Dev.takeTable (d : Dev) : Dev := d.onKeep (fun k => { k with tableLoaded := true })

/-- The Keeper at reset but for its history and counters, the messages it has not taken, its clock, and TABLE_LOADED, which once set
stays set (R7). -/
def Keep.abandon (k : Keep) : Keep :=
  { transit := k.transit, fifos := k.fifos, direct := k.direct, hist := k.hist, histSel := k.histSel, histView := k.histView
    wrapped := k.wrapped, received := k.received, overwritten := k.overwritten, dropped := k.dropped, conseq := k.conseq
    sevCnt := k.sevCnt, unchecked := k.unchecked, clockLost := k.clockLost, tick := k.tick, tickAt := k.tickAt
    lostAt := k.lostAt, stood := k.stood, tableShown := k.tableLoaded || k.tableShown
    ticked := k.ticked, draws := k.draws }

/-! ## Clearing (R314) and the history selector (R323) -/

/-- Clear severity 1 or 2 with its holds (R314); when no fault is left uncleared KEEP_FIRST is released, unless SAFE is set
(R312, log 14). -/
def State.keepClear (s : State) (one two : Bool) : State :=
  let k := s.dev.keep
  let any := (one && k.unc1) || (two && k.unc2)
  let mask : BitVec 4 := (if one then 2 else 0) ||| (if two then 4 else 0)
  let k := { k with
    unc1 := k.unc1 && !one, unc2 := k.unc2 && !two
    dip := k.dip &&& ~~~mask, standalone := k.standalone &&& ~~~mask }
  let k := if (one || two) && !k.uncleared && !s.lat.safe then { k with first := none } else k
  s.onDev (fun d => ({ d with keep := k } : Dev).raiseIf any 13)

/-- Copy an entry of the history queue into KEEP_HIST0–3 (R323). -/
def Dev.histSelect (d : Dev) (i : Nat) : Dev :=
  d.onKeep (fun k => { k with histSel := i, histView := k.hist[i]?, wrapped := false })

end Sys2Proof.Machine
end

