-- ==== Sys2Proof/Machine/Pixel.lean ====
section
/-! DEFINITION. The arithmetic of one pixel or quad: sample expansion and scaling (R113, R115), the block codec (R179), the
blend step (R122), tint split (R67, R68), global factor (R72), dither threshold (R64), hybrid split (R61, R62), tile clamp
(R70, R73, R74), sector coverage (R141 to R143) and symbol evaluation (R152, R153). -/

namespace Sys2Proof.Machine

/-- Full scale of a request. -/
def fullScale : Nat := 1048575

/-! ## Expansion (R113) -/

def expandY8 (s : Nat) : Nat := s * 4096 + s * 16 + s / 16
def expandY12 (s : Nat) : Nat := s * 256 + s / 16
def expandY16 (s : Nat) : Nat := s * 16 + s / 4096
def expandA8 (s : Nat) : Nat := if s = 255 then 4096 else s * 16 + s / 16
def expandA4 (s : Nat) : Nat := if s = 15 then 4096 else s * 273
def expandM1 (b : Bool) : Nat := if b then 4096 else 0

/-! ## Scaling (R115) -/

/-- The step from one destination pixel to the next, in 1/65,536 source pixels. -/
def scaleStep (src dst : Nat) : Nat := src * 65536 / dst

/-- Nearest source coordinate of destination index `i`. -/
def nearest (src dst i : Nat) : Nat :=
  let st := scaleStep src dst
  Nat.min ((i * st + st / 2) / 65536) (src - 1)

/-- Bilinear source coordinates and fraction of destination index `i`. -/
def bilinear (src dst i : Nat) : Nat × Nat × Nat :=
  let st := scaleStep src dst
  let pos := i * st + st / 2 - 32768
  let ix := pos / 65536
  (Nat.min ix (src - 1), Nat.min (ix + 1) (src - 1), pos / 16 % 4096)

/-- Mix two samples in 1/4,096. -/
def mix (a b f : Nat) : Nat := (a * (4096 - f) + b * f) / 4096

/-! ## The fixed-rate block codec (R178, R179) -/

/-- Interleaved order value of column `i` and row `j` of a block. -/
def frbRho (i j : Nat) : Nat :=
  let a := Nat.xor i j
  (List.range 3).foldl (fun acc k => acc + b1 (bit a k) * 2 ^ (5 - 2 * k) + b1 (bit j k) * 2 ^ (4 - 2 * k)) 0

/-- Value of pixel (i, j) before the mean correction. -/
def frbRaw (w i j : Nat) : Nat :=
  let q := 2 ^ bits w 242 2
  let off := bits w (238 - 4 * j) 4
  let code := bits w (189 - 3 * (8 * j + i)) 3
  bits w 244 12 + (off + code) * q + q / 2

/-- Decoded 12-bit value of pixel (i, j) of the block in the 256-bit word `w`. -/
def frbDecode (w i j : Nat) : Nat :=
  let dsum := sumNat ((List.range 64).map (fun k => frbRaw w (k % 8) (k / 8)))
  let delta : Int := (bits w 192 18 : Nat) - (dsum : Nat)
  let k0 : Int := delta / 64
  let rem : Int := delta - 64 * k0
  let d : Int := (frbRaw w i j : Nat) + k0 + (if (frbRho i j : Int) < rem then 1 else 0)
  (if d < 0 then 0 else if 4095 < d then 4095 else d).toNat

/-! ## Blending (R122) -/

/-- Apply a result `r` at opacity `a` to an accumulator. -/
def blendMix (r a acc : Nat) : Nat := (r * a + acc * (4096 - a)) / 4096

/-- The result of a blend operation and the opacity it is applied with. -/
def blendOp (op v a acc oth : Nat) : Nat × Nat :=
  if op = 1 then (v, a)
  else if op = 2 then (acc * (v + 1) / 1048576, a)
  else if op = 3 then (Nat.min acc v, a)
  else if op = 4 then (Nat.max acc v, a)
  else if op = 5 then (Nat.min (acc + v) fullScale, a)
  else if op = 6 then (acc - v, a)
  else (if 2048 ≤ a then oth else acc, 4096)

/-- One step of a program on the accumulators (X, Y); `slot n` is the sample of an enabled slot, `sym` the symbol sample. -/
def blendStep (slot : Nat → Option (Nat × Nat)) (sym : Nat × Nat) (xy : Nat × Nat) (step : Nat) : Nat × Nat :=
  let op := bits step 0 4
  let y := bit step 4
  let src := bits step 5 5
  let acc := if y then xy.2 else xy.1
  let oth := if y then xy.1 else xy.2
  let sample : Option (Nat × Nat) :=
    if src ≤ 15 then slot src
    else if src = 16 then some (oth, 4096)
    else if src = 17 then some (bits step 12 20, 4096)
    else some sym
  match sample with
  | none => xy
  | some va =>
    let ra := blendOp op va.1 va.2 acc oth
    let r := blendMix ra.1 ra.2 acc
    if y then (xy.1, r) else (r, xy.2)

/-- The steps of a program: its words up to its first END, or all 32 (R121). -/
def programSteps (ws : List Nat) : List Nat := ws.takeWhile (fun w => bits w 0 4 != 0)

/-! ## Tint split (R67, R68) -/

/-- Cool weight of a tint value clamped to [lo, hi]. -/
def coolWeight (lo hi tau : Nat) : Nat :=
  let t := Nat.min hi (Nat.max lo tau)
  if t = 255 then 256 else t

/-- Split `y` between two pixels of requests r0 and r1. -/
def splitPair (y r0 r1 : Nat) : Nat × Nat :=
  let o0 := if r0 + r1 = 0 then y / 2 else y * r0 / (r0 + r1)
  (o0, y - o0)

/-- Stage 3 on a quad: outputs w0, w1, c0, c1 before the clamp. -/
def tintSplit (wc w0 w1 c0 c1 : Nat) : List Nat :=
  let y := w0 + w1 + (c0 + c1)
  let yw := y * (256 - wc) / 256
  let w := splitPair yw w0 w1
  let c := splitPair (y - yw) c0 c1
  [w.1, w.2, c.1, c.2]

/-- Tint loss of a quad's outputs (R69). -/
def tintLoss (os : List Nat) : Nat := sumNat (os.map (fun o => o - fullScale))

/-! ## Current budget (R70 to R74) -/

/-- Demand of a tile in µA. -/
def tileDemand (iu s : Nat) : Nat := iu * 64449 * s / 1090518000000

/-- The global factor G. -/
def globalFactor (dprev ieff : Nat) : Nat := if ieff < dprev then 4096 * ieff / dprev else 4096

/-- TILE_MAX of a tile of weight `w` of `total`. -/
def tileMax (ieff w total : Nat) : Nat := 11 * ieff * w / (10 * total)

/-- The clamp factor of a tile. -/
def clampFactor (d g mx : Nat) : Nat := if mx < d * g / 4096 then 4096 * mx * 4096 / (d * g) else 4096

/-- Stage 7 on a drive word. -/
def clampWord (k w : Nat) : Nat :=
  let t := bits w 0 10 * k / 4096
  if t = 0 then 0 else bits w 10 6 * 1024 + t

/-! ## Dither and hybrid split (R61 to R64) -/

/-- The dither threshold of pixel (x, y) in the frame lit at tick `n`. -/
def ditherThr (x y n : Nat) : Nat :=
  let u0 := x % 64
  let v0 := y % 64
  let r := n % 4
  let u := if r = 0 then u0 else if r = 1 then 63 - v0 else if r = 2 then 63 - u0 else v0
  let v := if r = 0 then v0 else if r = 1 then u0 else if r = 2 then 63 - v0 else 63 - u0
  let a := Nat.xor u v
  (List.range 6).foldl (fun acc k => acc + b1 (bit a k) * 2 ^ (11 - 2 * k) + b1 (bit v k) * 2 ^ (10 - 2 * k)) 0

/-- The current code of a request. -/
def currentCode (knee l : Nat) : Nat :=
  let w := l * 64449
  let d := fullScale
  if w ≤ knee * 1023 * d then knee else (w + 1023 * d - 1) / (1023 * d)

/-- The drive word of a request. -/
def driveWord (l knee thr : Nat) : Nat :=
  let w := l * 64449
  let c := currentCode knee l
  let den := fullScale * c
  let t := w / den
  let f12 := (w - t * den) * 4096 / den
  let t := if thr < f12 then t + 1 else t
  if t = 0 then 0 else c * 1024 + t

/-! ## Sectors (R138, R141 to R143) -/

/-- Fields of a box. -/
def boxH0 (b : List Nat) : Int := sext 16 (dw b 0)
def boxH1 (b : List Nat) : Int := sext 16 (bits (dw b 0) 16 16)
def boxV0 (b : List Nat) : Int := sext 16 (dw b 1)
def boxV1 (b : List Nat) : Int := sext 16 (bits (dw b 1) 16 16)
def boxTrans (b : List Nat) : Nat := bits (dw b 2) 0 13
def boxFeather (b : List Nat) : Nat := bits (dw b 2) 16 4

/-- Interpolate a node angle at beam position (u, v), scaled by 2,112. -/
def warpScaled (node : Nat → Nat → Int) (u v : Nat) : Int :=
  let ci := u / 48
  let fu : Int := (u % 48 : Nat)
  let cj := v / 44
  let fv : Int := (v % 44 : Nat)
  node ci cj * (48 - fu) * (44 - fv) + node (ci + 1) cj * fu * (44 - fv) +
  node ci (cj + 1) * (48 - fu) * fv + node (ci + 1) (cj + 1) * fu * fv

/-- Distance of a scaled angle outside an interval. -/
def outside (a lo hi : Int) : Nat := (if a < lo then lo - a else if hi < a then a - hi else 0).toNat

/-- Coverage of a box, given the distances outside it and the pitches of the cell. -/
def boxCover (ex ey dh dv feather : Nat) : Nat :=
  let d := Nat.max (ex * 4 / (dh * 11)) (ey / (dv * 3))
  if ex = 0 ∧ ey = 0 then 4096
  else if feather = 0 then 0
  else if 16 * feather ≤ d then 0
  else 4096 - d * 256 / feather

/-- ab of a box at beam position (u, v). -/
def boxSample (nodeH nodeV : Nat → Nat → Int) (u v : Nat) (b : List Nat) : Nat :=
  let ci := u / 48
  let cj := v / 44
  let dh := (nodeH (ci + 1) cj - nodeH ci cj).natAbs
  let dv := (nodeV ci (cj + 1) - nodeV ci cj).natAbs
  let ex := outside (warpScaled nodeH u v) (boxH0 b * 2112) (boxH1 b * 2112)
  let ey := outside (warpScaled nodeV u v) (boxV0 b * 2112) (boxV1 b * 2112)
  boxCover ex ey dh dv (boxFeather b) * (4096 - boxTrans b) / 4096

/-! ## Symbols (R150, R152, R153) -/

/-- A homography coefficient of an instance: word 5 to 13. -/
def symH (i : List Nat) (k : Nat) : Int := sext 32 (dw i (5 + k))

/-- The sprite position that beam position (u, v) evaluates to, if it lies in a sprite of `w` by `h`. -/
def symPos (i : List Nat) (w h u v : Nat) : Option (Nat × Nat) :=
  let uu : Int := (2 * u + 1 : Nat)
  let vv : Int := (2 * v + 1 : Nat)
  let ns := symH i 0 * uu + symH i 1 * vv + symH i 2
  let nt := symH i 3 * uu + symH i 4 * vv + symH i 5
  let dd := symH i 6 * uu + symH i 7 * vv + symH i 8
  if dd ≤ 0 ∨ ns < 0 ∨ nt < 0 then none
  else
    let s := (ns / dd).toNat
    let t := (nt / dd).toNat
    if s < w ∧ t < h then some (s, t) else none

/-- (u, v) lies in the evaluation rectangle. -/
def symInRect (i : List Nat) (u v : Nat) : Bool :=
  let dx := bits (dw i 3) 0 11
  let dy := bits (dw i 3) 16 10
  decide (dx ≤ u) && decide (u < dx + bits (dw i 4) 0 11) && decide (dy ≤ v) && decide (v < dy + bits (dw i 4) 16 10)

/-- Combine one instance's value and coverage into (P, A). -/
def symOver (pa : Nat × Nat) (v a : Nat) : Nat × Nat :=
  ((v * a + pa.1 * (4096 - a)) / 4096, a + pa.2 * (4096 - a) / 4096)

/-- The symbol-layer sample of (P, A). -/
def symSample (pa : Nat × Nat) : Nat × Nat := if pa.2 = 0 then (0, 0) else (Nat.min (pa.1 * 4096 / pa.2) fullScale, pa.2)

/-! ## Gain, wear and neighbour compensation (R124, R126, R292) -/

/-- Stage 1 and stage 2 products before their clamps. -/
def gainProduct (l0 g : Nat) : Nat := l0 * g / 16384
def wearProduct (l1 w : Nat) : Nat := l1 * w / 4096
def boostProduct (l1 boost : Nat) : Nat := Nat.min (l1 * (4096 + boost) / 4096) fullScale

end Sys2Proof.Machine
end

