-- ==== Sys2Proof/Machine/Compose.lean ====
section
/-! DEFINITION. The beam engines' composition of one pixel and one quad (R105 to R126, R141 to R153, R292, R402): what a
frame's drive words and sums are, read from the state at its composition. `po` lists the granules read poisoned. -/

namespace Sys2Proof.Machine

/-! ## Reading layer memory in composition (R257, R258) -/

/-- The granule of an address was read poisoned. -/
def poisonedAt (po : List Nat) (a : Nat) : Bool := po.contains (a / 32 * 32)

/-- A read of the granule of `a` that enters now finds an older write in the queues, whose data answer it (R250). -/
def Memc.forwards (m : Memc) (a : Nat) : Bool := m.chans.any (fun c => c.writes.any (fun r => r.addr / 32 == a / 32))

/-- Granules from address `lo` to below `hi` that a queued write holds. -/
def Memc.forwardsIn (m : Memc) (lo hi : Nat) : Nat :=
  ((m.chans.flatMap Chan.writes).map (fun r => r.addr / 32)).eraseDups.countP (fun g =>
    decide (lo ≤ 32 * g + 31) && decide (32 * g < hi))

/-- The granules from address `lo` to below `hi`. -/
def granulesIn (lo hi : Nat) : Nat := (hi + 31) / 32 - lo / 32

/-- Of the granules that a command names as read with errors, those that the DRAM answers: in DRAM-less mode none (R250, R258). -/
def Memc.fromDram (m : Memc) (l : List Nat) : List Nat := if m.dramLess then [] else l.filter (fun a => !m.forwards a)

/-- An uncorrectable read (R257). -/
def Dev.uncorrectable (d : Dev) (a : Nat) : Dev :=
  ((d.onMemc (fun m => { m with uncorrectable := satInc 4095 m.uncorrectable, eccAddr := a })).raise 40).send 0xC4 0x17 1 a

/-- Corrected errors of a read, and the window's judgement, once a window (R256, R259). -/
def Dev.correctedErrors (d : Dev) (n : Nat) : Dev :=
  let tooMany := !d.memc.windowOver && decide (d.ceLimit < d.memc.window + n)
  let d := d.onMemc (fun m => { m with
    corrected := satAdd 1048575 m.corrected n, window := satAdd 4095 m.window n, windowOver := m.windowOver || tooMany })
  let d := d.raiseIf tooMany 41
  if tooMany && d.memc.flagged && !d.memc.dramLess && !d.memc.copied then d.onMemc (fun m => { m with copying := true }) else d

/-- Of `total` granules read, `n` that queued writes answer are counted in FORWARDED, and those read from the DRAM go into the window
(R250, R256; DEDUCED, log 159). -/
def Dev.countReads (d : Dev) (total n : Nat) : Dev :=
  if total = 0 || d.memc.dramLess then d
  else d.onMemc (fun m => { m with
    forwarded := if n = 0 then m.forwarded else satAdd 65535 m.forwarded n, reads := m.reads + (total - n) })

/-- What the `total` granule reads of a schedule entry report: `n` answered by queued writes, one element of `corrected` for each error
corrected, and of `poison` for each granule read uncorrectable (R250, R256, R257). -/
def Dev.entryReads (d : Dev) (total n : Nat) (poison corrected : List Nat) : Dev :=
  let d := d.countReads total n
  let d := if corrected.isEmpty then d else d.correctedErrors corrected.length
  poison.foldl (fun d a => d.uncorrectable a) d

/-- A byte of layer memory and whether it is poisoned, behind every write that has entered (R250). -/
def State.memByte (s : State) (po : List Nat) (a : Nat) : Nat × Bool :=
  ((s.memNow.byte s.dev.memc.draws a).toNat, poisonedAt po a)

/-- A byte of the buffer that slot `n` shows, at a byte offset; from the fallback half in DRAM-less mode. -/
def State.layByte (s : State) (po : List Nat) (n buf off : Nat) : Nat × Bool :=
  if s.dev.comp.dramLess then
    ((SMap.get 0 (if n = 0 then s.dev.memc.half0 else s.dev.memc.half1) off).toNat, false)
  else s.memByte po (s.dev.bufBase buf + off)

/-- `len` bytes of it, as a number, most significant byte first. -/
def State.layNat (s : State) (po : List Nat) (n buf : Nat) : Nat → Nat → Nat × Bool
  | 0, _ => (0, false)
  | len + 1, off =>
    let a := s.layByte po n buf off
    let r := State.layNat s po n buf len (off + 1)
    (a.1 * 256 ^ len + r.1, a.2 || r.2)

/-! ## Layers (R111 to R116) -/

/-- The expanded sample of source pixel (x, y) of descriptor `w` in slot `n`, with its poison mark. -/
def State.source (s : State) (po : List Nat) (n : Nat) (w : List Nat) (x y : Nat) : Nat × Bool :=
  let f := dFmt w
  let row := dOffset w + y * dStride w
  let get := s.layNat po n (dBuf w)
  if f = 0 then (let r := get 1 (row + x); (expandY8 r.1, r.2))
  else if f = 1 ∨ f = 3 then
    let r := get 2 (row + 3 * (x / 2) + x % 2)
    (expandY12 (if x % 2 = 0 then r.1 / 16 else r.1 % 4096), r.2)
  else if f = 2 ∨ f = 4 then (let r := get 2 (row + 2 * x); (expandY16 r.1, r.2))
  else if f = 5 then (let r := get 1 (row + x / 2); (expandA4 (if x % 2 = 0 then r.1 / 16 else r.1 % 16), r.2))
  else if f = 6 then (let r := get 1 (row + x); (expandA8 r.1, r.2))
  else if f = 7 then (let r := get 1 (row + x / 8); (expandM1 (bit r.1 (7 - x % 8)), r.2))
  else
    let r := get 32 (dOffset w + (y / 8) * dStride w + (x / 8) * 32)
    (expandY12 (frbDecode r.1 (x % 8) (y % 8)), r.2)

/-- The value at destination (i, j), none when a sample it uses is poisoned (R115, R116). -/
def State.scaled (s : State) (po : List Nat) (n : Nat) (w : List Nat) (i j : Nat) : Option Nat :=
  if dBilin w then
    let bx := bilinear (dSw w) (dDw w) i
    let bY := bilinear (dSh w) (dDh w) j
    let s00 := s.source po n w bx.1 bY.1
    let s10 := s.source po n w bx.2.1 bY.1
    let s01 := s.source po n w bx.1 bY.2.1
    let s11 := s.source po n w bx.2.1 bY.2.1
    if s00.2 || s10.2 || s01.2 || s11.2 then none
    else some (mix (mix s00.1 s10.1 bx.2.2) (mix s01.1 s11.1 bx.2.2) bY.2.2)
  else
    let r := s.source po n w (nearest (dSw w) (dDw w) i) (nearest (dSh w) (dDh w) j)
    if r.2 then none else some r.1

/-- The beam position of a physical pixel (R114). -/
def Dev.beamPos (d : Dev) (p : Nat) : Nat × Nat :=
  let x := p % 1536
  let y := p / 1536
  (if d.mirror then 1535 - x else x, if d.flip then 703 - y else y)

/-- (u, v) lies in the destination rectangle of a descriptor. -/
def dInside (w : List Nat) (u v : Nat) : Bool :=
  decide (dDx w ≤ u) && decide (u < dDx w + dDw w) && decide (dDy w ≤ v) && decide (v < dDy w + dDh w)

/-- The slot's current descriptor. -/
def Eng.desc (e : Eng) (n : Nat) : List Nat := (nth {} e.slots n).cur

/-- The slot is composed: enabled, and in DRAM-less mode slot n only while it names FBn (R258). -/
def Dev.slotOn (d : Dev) (n : Nat) : Bool :=
  let w := d.eng.desc n
  dEn w && (!d.comp.dramLess || (decide (n < 2) && dBuf w == d.fb n))

/-- The sample pair of slot `n` at beam position (u, v) (R116). -/
def State.slotSample (s : State) (po : List Nat) (n u v : Nat) : Nat × Nat :=
  let w := s.dev.eng.desc n
  if !s.dev.slotOn n || !dInside w u v then (0, 0)
  else
    match s.scaled po n w (u - dDx w) (v - dDy w) with
    | none => (0, 0)
    | some val =>
      if fmtAlpha (dFmt w) then (dLvalue w, val * dAlpha w / 4096)
      else (Nat.min (val * dLgain w / 2048) fullScale, dAlpha w)

/-! ## Symbols (R149, R152 to R155) -/

/-- Width, height, format, ceiling and store offset of a sprite. -/
def Dev.spriteW (d : Dev) (n : Nat) : Nat := bits (d.entWord n 1) 0 8 + 1
def Dev.spriteH (d : Dev) (n : Nat) : Nat := bits (d.entWord n 1) 8 8 + 1
def Dev.spriteFmt (d : Dev) (n : Nat) : Nat := bits (d.entWord n 1) 16 2
def Dev.spriteCeil (d : Dev) (n : Nat) : Nat := bits (d.entWord n 2) 0 20
def Dev.spriteOff (d : Dev) (n : Nat) : Nat := d.entWord n 0

/-- Alpha of sprite pixel (x, y); a poisoned byte covers nothing (R257). -/
def State.spriteAlpha (s : State) (po : List Nat) (n x y : Nat) : Nat :=
  let f := s.dev.spriteFmt n
  let bpp := if f = 0 then 1 else if f = 1 then 4 else 8
  let a := 0x34000000 + s.dev.spriteOff n + y * ((s.dev.spriteW n * bpp + 7) / 8) + x * bpp / 8
  let r := s.memByte po a
  if r.2 then 0
  else if f = 0 then expandM1 (bit r.1 (7 - x % 8))
  else if f = 1 then expandA4 (if x % 2 = 0 then r.1 / 16 else r.1 % 16)
  else expandA8 r.1

/-- The instance is still drawn (R155). -/
def Eng.alive (e : Eng) (i : List Nat) : Bool :=
  let life := bits (dw i 0) 12 8
  life == 0 || decide (e.symAge < life)

/-- Value and coverage of one instance at (u, v). -/
def State.instSample (s : State) (po : List Nat) (u v : Nat) (i : List Nat) : Nat × Nat :=
  let n := bits (dw i 0) 0 12
  let val := Nat.min (Nat.min (bits (dw i 1) 0 20) (s.dev.spriteCeil n)) s.dev.symCeil
  if s.dev.eng.alive i && symInRect i u v then
    match symPos i (s.dev.spriteW n) (s.dev.spriteH n) u v with
    | some p => (val, s.spriteAlpha po n p.1 p.2 * bits (dw i 2) 0 13 / 4096)
    | none => (val, 0)
  else (val, 0)

/-- The symbol-layer sample (R153); it draws nothing while SYMBOLS is unverified and in DRAM-less mode (R21, R149). -/
def State.symbolSample (s : State) (po : List Nat) (u v : Nat) : Nat × Nat :=
  if s.dev.comp.dramLess || !s.dev.eng.libReady then (0, 0)
  else
    let is := (s.dev.eng.sym.map (·.insts)).getD []
    symSample (is.foldl (fun pa i => let va := s.instSample po u v i
                                     symOver pa va.1 va.2) (0, 0))

/-! ## Sectors, dip and standalone beam (R143 to R147, R402) -/

/-- The age of the sector set in force exceeds FRESH, or none is in force (R144). The first frame composed from host content is
stale by having none; one whose own commit applies a set has it at age 0 and is not (log 104). -/
def Dev.sectStale (d : Dev) : Bool := d.eng.sect.isNone || decide (d.fresh < d.eng.sectAge)

/-- Host content is composed. -/
def Comp.host (c : Comp) : Bool := c.content == .host || c.content == .carryOver

/-- The sector-layer opacity at (u, v) (R143, R144, R147). -/
def Dev.sectorA (d : Dev) (u v : Nat) : Nat :=
  if d.comp.host && !d.sectStale then
    maxNat (((d.eng.sect.map (·.boxes)).getD []).map (boxSample d.nodeH d.nodeV u v))
  else 0

/-- The standalone beam's request at quad `q` (R401, R402): `pins` is LB_REQ in bit 0 and HB_REQ in bit 1. -/
def Dev.beamL0 (d : Dev) (q : Nat) : Nat :=
  let pins := d.comp.pins
  if bit pins 1 then expandY8 (d.highByte q)
  else if bit pins 0 || d.idleBeam then expandY8 (d.lowByte q)
  else 0

/-! ## The request L0 (R119 to R122) -/

/-- The blend program in force as steps; FIXED order applies the slots and then the symbol layer with OVER (R120). -/
def Dev.steps (d : Dev) : List Nat :=
  match (if d.comp.dramLess then none else d.eng.blend) with
  | some k => programSteps ((List.range 32).map (d.progWord k))
  | none => (List.range 16).map (fun n => 1 + 32 * n) ++ [1 + 32 * 18]

/-- L0 of a pixel. -/
def State.l0 (s : State) (po : List Nat) (p : Nat) : Nat :=
  let d := s.dev
  if d.comp.host then
    let uv := d.beamPos p
    let slot (n : Nat) : Option (Nat × Nat) := if d.slotOn n then some (s.slotSample po n uv.1 uv.2) else none
    let x := (d.steps.foldl (blendStep slot (s.symbolSample po uv.1 uv.2)) (0, 0)).1
    let x := if d.comp.dip && d.dipBit (quadOf p) then expandY8 (d.lowByte (quadOf p)) else x
    blendMix 0 (d.sectorA uv.1 uv.2) x
  else d.beamL0 (quadOf p)

/-! ## Stages 1 and 2, neighbour compensation (R124 to R127, R292) -/

/-- The gain of a pixel (R125, R257). -/
def State.gain (s : State) (po : List Nat) (p : Nat) : Nat :=
  let hi := s.memByte po (0x35000000 + 2 * p)
  let lo := s.memByte po (0x35000000 + 2 * p + 1)
  if s.dev.comp.dramLess || hi.2 then s.dev.tileGain (tileOf p) else hi.1 * 256 + lo.1

/-- The unclamped product of stage 1. -/
def State.stage1 (s : State) (po : List Nat) (p : Nat) : Nat := gainProduct (s.l0 po p) (s.gain po p)

/-- Class of a pixel as taken when the composition began (R292). -/
def Comp.cls (c : Comp) (p : Nat) : Nat := SMap.get 0 c.classes p

/-- L1 after steps 1 and 2 of R292. -/
def State.l1Own (s : State) (po : List Nat) (p : Nat) : Nat :=
  let c := s.dev.comp
  let k := c.cls p
  if k = 1 ∨ k = 2 then 0
  else
    let l1 := Nat.min (s.stage1 po p) fullScale
    if s.dev.boost ≠ 0 ∧ (neighbours p).any (fun q => c.cls q == 1 || c.cls q == 2) then boostProduct l1 s.dev.boost else l1

/-- The partner of a tied pixel as composed. -/
def Comp.tiedTo (c : Comp) (p : Nat) : Option Nat :=
  match c.ties.find? (fun e => e.1 == p || (if e.2 then e.1 + 1536 else e.1 + 1) == p) with
  | some e => let q := if e.2 then e.1 + 1536 else e.1 + 1
              some (if e.1 = p then q else e.1)
  | none => none

/-- L1 after R292. -/
def State.l1 (s : State) (po : List Nat) (p : Nat) : Nat :=
  match s.dev.comp.tiedTo p with
  | some q => (s.l1Own po p + s.l1Own po q) / 2
  | none => s.l1Own po p

/-- The unclamped product of stage 2 and the clamped request. -/
def State.stage2 (s : State) (po : List Nat) (p : Nat) : Nat :=
  wearProduct (s.l1 po p) (SMap.get {} s.dev.cal.tiles (tileOf p)).wear
def State.l2 (s : State) (po : List Nat) (p : Nat) : Nat := Nat.min (s.stage2 po p) fullScale

/-- The pixel counts in the clip count (R127). -/
def State.clips (s : State) (po : List Nat) (p : Nat) : Bool :=
  decide (fullScale < s.stage1 po p) || decide (fullScale < s.stage2 po p)

/-! ## Tint plane and stage 3 (R67, R68, R123) -/

/-- What slot `n` makes of τ at the quad pixel `p` (R123). -/
def State.slotTint (s : State) (po : List Nat) (p tau n : Nat) : Nat :=
  let w := s.dev.eng.desc n
  let uv := s.dev.beamPos p
  if s.dev.slotOn n && fmtTint (dFmt w) && dInside w uv.1 uv.2 &&
      decide (2048 ≤ (s.slotSample po n uv.1 uv.2).2) then
    let sx := nearest (dSw w) (dDw w) (uv.1 - dDx w)
    let sy := nearest (dSh w) (dDh w) (uv.2 - dDy w)
    let r := s.layByte po n (dBuf w) (dToff w + (sy / 2) * dTstride w + sx / 2)
    if r.2 then tau else r.1
  else tau

/-- τ of a quad; T_DEFAULT in the standalone beam (R402). -/
def State.tau (s : State) (po : List Nat) (p : Nat) : Nat :=
  if s.dev.comp.host then (List.range 16).foldl (s.slotTint po p) s.dev.tDefault else s.dev.tDefault

/-- The pixels of the quad whose first pixel is `p`: warm, warm, cool, cool (R6, R68). -/
def quadPixels (p : Nat) : List Nat := [p, p + 1537, p + 1, p + 1536]

/-- Stage-3 outputs of a quad before the clamp. -/
def State.stage3 (s : State) (po : List Nat) (p : Nat) : List Nat :=
  let l (i : Nat) := s.l2 po (nth 0 (quadPixels p) i)
  tintSplit (coolWeight s.dev.tMin s.dev.tMax (s.tau po p)) (l 0) (l 1) (l 2) (l 3)

/-! ## Stages 4 to 6 -/

/-- G of the frame (R72). -/
def Comp.g (c : Comp) : Nat := globalFactor c.dprev c.ieff

/-- The drive word of a pixel from its clamped stage-3 output (R72, R62); dithered for the tick at which it is lit. -/
def Dev.wordOf (d : Dev) (p o : Nat) : Nat :=
  driveWord (o * d.comp.g / 4096) d.knee (ditherThr (p % 1536) (p / 1536) (d.comp.tick + 1))

/-! ## Demand and clamps (R70, R73) -/

/-- Sum of the weights of the tiles that are not dark (R73). -/
def Dev.weightSum (d : Dev) : Nat := sumNat (d.litTiles.map d.weight)

/-- Demand of a tile in the frame in composition (R70). -/
def Dev.demandOf (d : Dev) (t : Nat) : Nat := tileDemand (d.iuNa t) (SMap.get 0 d.comp.sums t)

/-- k_t of a tile (R73). -/
def Dev.kOf (d : Dev) (t : Nat) : Nat := SMap.get 4096 d.comp.kts t

/-- Tiles whose clamp binds in the composed frame (R75, R85). -/
def Dev.clampedTiles (d : Dev) : Nat := (List.range 192).countP (fun t => decide (d.kOf t < 4096))

/-! ## One batch -/

/-- Fold one quad into the frame: its four drive words, tile sum, tint loss, clip count and sector bits. -/
def State.quad (s : State) (po : List Nat) (acc : SMap (BitVec 16) × Comp) (p : Nat) : SMap (BitVec 16) × Comp :=
  let os := s.stage3 po p
  let ps := quadPixels p
  let cl := os.map (fun o => Nat.min o fullScale)
  let loss := tintLoss os
  let bb := (ps.zip cl).foldl (fun m e => SMap.set 0 m e.1 (BitVec.ofNat 16 (s.dev.wordOf e.1 e.2))) acc.1
  let c := acc.2
  (bb, { c with
    sums := SMap.upd 0 c.sums (tileOf p) (· + sumNat cl)
    tloss := c.tloss + loss
    tquads := c.tquads + b1 (loss != 0)
    clip := c.clip + (ps.countP (s.clips po))
    sectMap := ps.foldl (fun m q => let uv := s.dev.beamPos q
                                    SMap.set false m q (decide (2048 ≤ s.dev.sectorA uv.1 uv.2))) c.sectMap })

/-- The first pixels of the quads of batch `b`, rows 8b to 8b + 7 (R105). -/
def batchQuads (b : Nat) : List Nat := (List.range 3072).map (fun i => pixelIdx (2 * (i % 768)) (8 * b + 2 * (i / 768)))

/-- Compose batch `b` into the back buffer. -/
def State.batch (s : State) (po : List Nat) (b : Nat) : State :=
  let r := (batchQuads b).foldl (s.quad po) (s.dev.eng.bbuf, s.dev.comp)
  s.onDev (fun d => (d.onEng (fun e => { e with bbuf := r.1 })).onComp (fun _ =>
    { r.2 with batches := r.2.batches ||| (1#88 <<< b), engineB := d.engineB }))

end Sys2Proof.Machine
end

