-- ==== Sys2Proof/Machine/Line.lean ====
section
/-! DEFINITION. The line coding of a Fairway lane (R187 to R191): link symbols over lanes, the scrambler, stuffing, the block
after its comma, and what a receiver makes of a block's bits. -/

namespace Sys2Proof.Machine

/-! ## Symbols and bits (R187, R188) -/

/-- The bits of a number of `w` bits, most significant first. -/
def toBits : Nat → Nat → Line
  | 0, _ => []
  | w + 1, n => bit n w :: toBits w n

/-- The number that bits spell, most significant first. -/
def ofBits (l : Line) : Nat := l.foldl (fun a b => 2 * a + b1 b) 0

/-- The bits of symbols in the order sent. -/
def symbolBits (bs : Bytes) : Line := bs.flatMap (fun b => toBits 8 b.toNat)

/-- The first `n` symbols that bits spell. -/
def bitSymbols : Nat → Line → Bytes
  | 0, _ => []
  | n + 1, l => BitVec.ofNat 8 (ofBits (l.take 8)) :: bitSymbols n (l.drop 8)

/-- Payload symbols of a lane in one block (R187). -/
def blockSyms : Nat := 875

/-- UI of a block (R187). -/
def blockUi : Nat := 8192

/-- The payload symbols of the `j`-th lane of a link of width `w`: link symbols j, j + w, … (R188). -/
def laneShare (w j : Nat) : Nat → Bytes → Bytes
  | 0, _ => []
  | n + 1, bs => nth 0 bs j :: laneShare w j n (bs.drop w)

/-- The link symbols that the lanes' payloads carry, lane by lane in turn (R188). -/
def linkSyms : Nat → List Bytes → Bytes
  | 0, _ => []
  | n + 1, ls => ls.map (fun l => nth 0 l 0) ++ linkSyms n (ls.map (fun l => l.drop 1))

/-! ## The scrambler (R189) -/

/-- Seeds of FW_RX0 to FW_RX3 and of FW_TX0 and FW_TX1. -/
def rxSeed (lane : Nat) : Nat := nth 0 [0x01D35, 0x162C9, 0x0A4F7, 0x13B58] lane
def txSeed (lane : Nat) : Nat := nth 0 [0x07E21, 0x1C096] lane

/-- The bit that the scrambler adds. -/
def scrambleKey (s : Nat) : Bool := bit s 16 != bit s 13

/-- Its next state. -/
def scrambleNext (s : Nat) : Nat := (2 * s + b1 (scrambleKey s)) % 2 ^ 17

/-- Scramble bits, and descramble them: the scrambler is additive. -/
def scramble : Nat → Line → Line
  | _, [] => []
  | s, b :: bs => (b != scrambleKey s) :: scramble (scrambleNext s) bs

/-! ## Stuffing (R190) -/

/-- The run counter after a scrambled bit: `run` equal bits of value `last` came before it. -/
def runNext (run : Nat) (last b : Bool) : Nat := if run ≠ 0 ∧ b = last then run + 1 else 1

/-- The scrambled payload and fill, stuffed, up to the end of the block: `room` UI are left, the payload bits left are `p`, an
inserted bit is due in `ins`. No inserted bit stands between the last fill bit and the comma. -/
def stuffed : Nat → Nat → Nat → Bool → Option Bool → Line → Line
  | 0, _, _, _, _, _ => []
  | room + 1, s, _, last, some x, p => x :: stuffed room s 0 last none p
  | room + 1, s, run, last, none, p =>
    let b := p.headD false != scrambleKey s
    let n := runNext run last b
    b :: (if n = 6 ∧ 2 ≤ room then stuffed room (scrambleNext s) 0 b (some (!b)) p.tail
          else stuffed room (scrambleNext s) n b none p.tail)

/-- Remove the bits that the run counter marks; the second result counts those that are not the complement of their run. -/
def unstuff : Nat → Bool → Line → Line × Nat
  | _, _, [] => ([], 0)
  | run, last, b :: bs =>
    let n := runNext run last b
    match n, bs with
    | 6, x :: y :: rest =>
      let r := unstuff 0 x (y :: rest)
      (b :: r.1, r.2 + b1 (x == b))
    | _, bs =>
      let r := unstuff n b bs
      (b :: r.1, r.2)

/-! ## Blocks (R187, R191) -/

/-- The comma 0xFF00 and the guard bit. -/
def comma : Line := toBits 16 0xFF00 ++ [true]

/-- A block whose scrambler starts from `seed`. -/
def blockLine (seed : Nat) (payload : Bytes) : Line := comma ++ stuffed (blockUi - 17) seed 0 false none (symbolBits payload)

/-- The block starts with a comma. -/
def hasComma (block : Line) : Bool := block.take 17 == comma

/-- The first `n` payload symbols of a block received on lane `lane`. -/
def blockSymbols (lane n : Nat) (block : Line) : Bytes :=
  bitSymbols n (scramble (rxSeed lane) ((unstuff 0 false (block.drop 17)).1))

/-- Runs of equal bits: value and length. -/
def runs : Line → List (Bool × Nat)
  | [] => []
  | b :: bs =>
    match runs bs with
    | (x, n) :: rs => if x = b then (x, n + 1) :: rs else (b, 1) :: (x, n) :: rs
    | [] => [(b, 1)]

/-- Runs of equal bits continue the runs with which the last block ended. -/
def joinRuns : List (Bool × Nat) → List (Bool × Nat) → List (Bool × Nat)
  | [], rs => rs
  | [x], y :: rs => if x.1 = y.1 then (x.1, x.2 + y.2) :: rs else x :: y :: rs
  | x :: xs, rs => x :: joinRuns xs rs

/-- Violations by runs, from place `pos` on and with the last comma at `last` (R191): a run of 8 or more equal bits that forms no comma,
and a comma that does not lie 8,192 UI after the one before. A comma is 8 bits of 1 or more, exactly 8 bits of 0 and a 1; its place is
that of the last 8 bits of 1. The results are the violations, the last comma, and the runs that the next block may continue. -/
def scanRuns : List (Bool × Nat) → Bool → Int → Option Int → Nat × Option Int × List (Bool × Nat)
  | [], _, _, last => (0, last, [])
  | x :: rs, inComma, pos, last =>
    match rs with
    | [] => (0, last, [x])
    | y :: zs =>
      let ones := x.1 && decide (8 ≤ x.2)
      if ones && decide (y.2 ≤ 8) && zs.isEmpty then (0, last, [x, y])
      else
        let isComma := ones && y.2 == 8
        let at_ := pos + x.2 - 8
        let bad := if isComma then last.isSome && last != some (at_ - blockUi) else !inComma && decide (8 ≤ x.2)
        let r := scanRuns rs isComma (pos + x.2) (if isComma then some at_ else last)
        (b1 bad + r.1, r.2)

/-- Open runs hold a violation already: eight bits of 0 or more that follow no run of eight bits of 1 can form no comma, whatever comes
(R191). -/
def openBad : List (Bool × Nat) → Nat
  | [x] => b1 (!x.1 && decide (8 ≤ x.2))
  | _ => 0

/-- Where the first bit of open runs lies, in UI from the block that follows. -/
def openAt (open_ : List (Bool × Nat)) : Int := -(sumNat (open_.map (·.2)) : Nat)

/-- What a receiver makes of the bits of a block behind `open_` runs and a last comma: the coding violations, the last comma as the next
block sees it, and the runs that stay open (R191). A violation counts as soon as the bits show it, and once. Removed bits are checked
where the block has its comma. -/
def readBlock (open_ : List (Bool × Nat)) (last : Option Int) (block : Line) : Nat × Option Int × List (Bool × Nat) :=
  let r := scanRuns (joinRuns open_ (runs block)) false (openAt open_) last
  let removed := if hasComma block then (unstuff 0 false (block.drop 17)).2 else 0
  (removed + r.1 + openBad r.2.2 - openBad open_, r.2.1.map (· - blockUi), r.2.2)

/-- The places of the commas in runs that begin at `pos` (R191). -/
def commaPlaces : List (Bool × Nat) → Int → List Int
  | [], _ => []
  | x :: rs, pos =>
    let here := match rs with
      | y :: _ :: _ => if x.1 && decide (8 ≤ x.2) && y.2 == 8 then [pos + x.2 - 8] else []
      | _ => []
    here ++ commaPlaces rs (pos + x.2)

/-- A comma lies at the expected place of a block that comes behind `open_` runs, or within `slack` UI of it (R192, R193). -/
def commaAt (open_ : List (Bool × Nat)) (slack : Nat) (block : Line) : Bool :=
  (commaPlaces (joinRuns open_ (runs block)) (openAt open_)).any (fun p => decide (p.natAbs ≤ slack))

/-- The ordered set that a block carries, empty without a comma (R196). -/
def lineSet (lane : Nat) (block : Line) : Bytes := if hasComma block then blockSymbols lane 16 block else []

/-! ## Ordered sets (R196) -/

/-- What an ordered set says beside its type and lane: preset requests, RXGOOD, FLAGS, RXSET, TXSET and SEQ. -/
structure SetFields where
  presets : List Nat := [0, 0, 0, 0]
  good : Nat := 0
  flags : Nat := 0
  rx : Nat := 0
  tx : Nat := 0
  seq : Nat := 0
  deriving DecidableEq, Repr, Inhabited

/-- An ordered set of type `ty` on the sender's lane `lane`, with its CRC. -/
def setBytes (ty lane : Nat) (x : SetFields) : Bytes :=
  let b := toBe 1 ty ++ toBe 1 lane ++ x.presets.flatMap (toBe 1) ++ toBe 1 x.good ++ toBe 1 x.flags ++ toBe 1 x.rx ++
    toBe 1 x.tx ++ toBe 4 x.seq
  b ++ toBe 2 (crc16 b)

end Sys2Proof.Machine
end

