-- ==== Sys2Proof/Machine/Link.lean ====
section
/-! DEFINITION. The lane level of Fairway (R184 to R210): training, loss, change of width and restoring of lanes, and what
the transmit lanes send. One event a block stands for a block of ordered sets: runs of blocks are counted on the
lowest-numbered locked lane (log 16). -/

namespace Sys2Proof.Machine

/-! ## Lanes and sets (R196, R199) -/

/-- A receive lane. -/
def Link.lane (l : Link) (n : Nat) : Lane := nth {} l.lanes n

/-- Change a receive lane. -/
def Link.onLane (l : Link) (n : Nat) (f : Lane → Lane) : Link := { l with lanes := updNth l.lanes n f }

/-- Lanes of a set, in ascending order. -/
def lanesOf (set : Nat) : List Nat := (List.range 4).filter (fun n => bit set n)

/-- A set of lanes. -/
def setOf (ls : List Nat) : Nat := sumNat (ls.map (fun n => 2 ^ n))

/-- The set used with these good lanes: all four, the two lowest, or one (R199). -/
def usedSet (good : List Nat) : Nat :=
  if good.length = 4 then 15 else if 2 ≤ good.length then setOf (good.take 2) else setOf (good.take 1)

/-- The transmit set used: both lanes, or the lower good one (R199). -/
def usedTx (good : Nat) : Nat := if bits good 0 2 = 3 then 3 else if bit good 0 then 1 else if bit good 1 then 2 else 0

/-- A lane is good: locked and within the skew (R193, R199). -/
def Lane.good (x : Lane) : Bool := x.locked && decide (x.skew ≤ 64)

/-- The good receive lanes. -/
def Link.goodLanes (l : Link) : List Nat := (List.range 4).filter (fun n => (l.lane n).good)

/-- The locked receive lanes, RXGOOD of the sets sent (R196). -/
def Link.lockedSet (l : Link) : Nat := setOf ((List.range 4).filter (fun n => (l.lane n).locked))

/-- The lane on which blocks are counted. -/
def Link.countLane (l : Link) : Nat := (((List.range 4).filter (fun n => (l.lane n).locked)).head?).getD 4

/-- Byte `i` of an ordered set. -/
def setByte (set : Bytes) (i : Nat) : Nat := (nth 0 set i).toNat

/-- A set of type `ty` is valid: its CRC matches and it arrives on a locked lane (R196). Bits that R196 gives as 0 are ignored, since R196
names no other condition and R8 leaves the case to it (DESIGN CHOICE, log 142). -/
def Link.validSet (l : Link) (lane ty : Nat) (set : Bytes) : Bool :=
  set.length == 16 && setByte set 0 == ty && (l.lane lane).locked && crc16 (set.take 14) == beNat (set.drop 14)

/-! ## Coding violations (R191, R192) -/

/-- Count coding violations of a lane, and keep them for the 64 blocks that R192 judges. -/
def Lane.count (x : Lane) (viols : List Nat) : Lane :=
  { x with viol := satAdd 255 x.viol (sumNat viols), recent := (viols.reverse ++ x.recent).take 64 }

/-- A block received on a lane: its violations are counted, and its last comma and open runs kept (R191). -/
def Lane.takeBlock (x : Lane) (block : Line) : Lane :=
  let r := readBlock x.openRuns x.lastComma block
  { x.count [r.1] with lastComma := r.2.1, openRuns := r.2.2 }

/-- The lane is locked no more: a run of eight bits or more that stands open forms no comma now, and counts if it has not (R191; DEDUCED,
log 153). -/
def Lane.unlock (x : Lane) : Lane :=
  { x.count [x.openRuns.countP (fun r => decide (8 ≤ r.2)) - openBad x.openRuns] with locked := false, openRuns := [] }

/-- A block received on a locked lane. -/
def Link.take (l : Link) (lane : Nat) (block : Line) : Link :=
  if (l.lane lane).locked then l.onLane lane (fun x => x.takeBlock block) else l

/-- RXGOOD of a valid ordered set names the transmit lanes that the host reports locked (R196, R209). -/
def Link.hear (l : Link) (lane : Nat) (set : Bytes) : Link :=
  if l.validSet lane 0xA5 set || l.validSet lane 0xB6 set || l.validSet lane 0xC7 set then
    { l with hostGood := setByte set 6 % 4 } else l

/-- A block of an ordered set received on a lane. -/
def Link.takeSet (l : Link) (lane : Nat) (block : Line) : Link := (l.take lane block).hear lane (lineSet lane block)

/-- Blocks received on the lanes while LRX runs. -/
def Dev.takeBlocks (d : Dev) (blocks : List (Nat × Line)) : Dev :=
  if d.fairwayOn then d.onLink (fun l => blocks.foldl (fun l b => l.take b.1 b.2) l) else d

/-- The link symbols that `n` rows of blocks carry, one block a lane and row in ascending lane number (R188). -/
def rowSyms : Nat → List (List Bytes) → Bytes
  | 0, _ => []
  | n + 1, ls => linkSyms blockSyms (ls.map (fun l => nth [] l 0)) ++ rowSyms n (ls.map (fun l => l.drop 1))

/-- Blocks of link symbols received on the lanes: their violations count, and an ACTIVE link takes the symbols of every row that
is whole on its set (R188, R191, R211). -/
def Dev.symbolBlocks (d : Dev) (blocks : List (Nat × Line)) : Dev :=
  let d := d.takeBlocks blocks
  if d.fairwayOn && d.link.state == .active && d.link.rxSet != 0 then
    let ls := (lanesOf d.link.rxSet).map (fun n =>
      (blocks.filter (fun b => b.1 == n)).map (fun b => blockSymbols n blockSyms b.2))
    let rows := ls.foldl (fun k l => Nat.min k l.length) blocks.length
    d.onLink (fun l => { l with rxSyms := l.rxSyms ++ rowSyms rows ls })
  else d

/-! ## Changes of state (R197, R198, R206) -/

/-- Begin to train at cycle `now`: every transmitter at P4, every run at 0 (R195, R196, R197). HOST_GOOD becomes 0 until a set of this
training names the lanes: R209 gives it the RXGOOD of the last valid set and no such clear (DESIGN CHOICE, log 155). -/
def Link.detect (now : Nat) (l : Link) : Link :=
  { l with
    state := .detect, rxSet := 0, txSet := 0, txPreset := [4, 4], presetReq := [(none, 0), (none, 0)], eqRun := 0
    eqDone := false, agreeRun := 0, agree := false, sentRun := 0, trainAt := now, partnerGood := 0, hostGood := 0, acks := 0
    attempt := none, joining := (0, 0), out := [], rxSlots := 0, txSlots := 0, txSyms := [], txBlocks := [], rxSyms := []
    lanes := l.lanes.map (fun x => { x with preset := 4, restoreRun := 0 }) }

/-- The link leaves DOWN when FW_REFCLK is present and its domains run, and with them what has waited for LRX goes on (R17, R186,
R197). -/
def Dev.startLink (d : Dev) : Dev :=
  let d := d.lrxResume
  if d.fairwayOn && d.link.state == .down && d.pwr.state != .entry then d.onLink (Link.detect d.now) else d

/-- To DOWN (R186, R208). That the lanes are locked no more is counted in no LOSSES: R192 gives three causes of a loss of lock, and the
loss of FW_REFCLK and the entry into PARK are none of them (DESIGN CHOICE, log 154). -/
def Dev.linkDown (d : Dev) : Dev :=
  let d := if d.link.carries then d.leaveActive else d
  d.onLink (fun l =>
    let l := l.detect d.now
    { l with state := .down, lanes := l.lanes.map (fun x => if x.locked then x.unlock else x) })

/-- Into BACKOFF with a reason 1 NO_SIGNAL, 2 EQ, 3 SKEW, 4 AGREE, 5 LOST (R198, R206). -/
def Dev.backoff (d : Dev) (reason : Nat) : Dev :=
  let been := d.link.beenActive
  let d := if d.link.carries then d.leaveActive else d
  let d := d.onLink (fun l => { l.detect d.now with
    state := .backoff, fails := satInc 255 l.fails, lastFail := reason, backoffMs := Nat.min 64 (2 * l.backoffMs) })
  if reason = 5 then d.send 0xC5 0x20 1 0
  else
    let d := d.raise 28
    if reason ≠ 3 ∧ been = false then d.send 0xC5 0x1D 0 reason else d.send 0xC5 0x1A 1 reason

/-- Arrival in ACTIVE from TRAIN_B: the counters start again, so that frames still waiting hold no credit any more (R198, R210,
R221, R224, R364). A generation of which the LAST frame has not come has lost the frames between: what the link carried when it fell
cannot be numbered any more (R231; DEDUCED, log 157). FAILS starts again from 0 too: R209 calls it a count of consecutive entries into BACKOFF (DESIGN CHOICE, log
128). -/
def Dev.arrive (d : Dev) (rx tx : Nat) : Dev :=
  let d := d.onLink (fun l => { l with
    state := .active, rxSet := rx, txSet := tx, trained := satInc 65535 l.trained, backoffMs := 1, fails := 0
    beenActive := true, rxSlots := 0, txSlots := 0, txSyms := [], txBlocks := [], rxSyms := [] })
  let d := d.onFw (fun f => { f with
    limit0 := 8, limit1 := 32, exp0 := 0, exp1 := 0, held0 := 0, held1 := 0, kept0 := 0, kept1 := 0, rises := [], partPkt := none
    writes := f.writes.map (fun w => { w with owes := false }), bufs := SMap.mapAll {} (fun _ b => b.lose) f.bufs })
  d.endSession.raise 24

/-! ## FW_REFCLK (R186) -/

/-- A window of 10.0 µs lies within the limits of the monitor. -/
def refWindowOk (khz : Nat) : Bool := decide (99000 ≤ khz) && decide (khz ≤ 100100)

/-- What the monitor has found is a loss. -/
def refLost : RefLoss → Bool
  | .window khz => !refWindowOk khz
  | .noEdge ns => decide (1000 ≤ ns)

/-- FW_REFCLK is present again: 100 windows, 1.00 ms, and every one within the limits. -/
def refReturns (windows : List Nat) : Bool := decide (100 ≤ windows.length) && windows.all refWindowOk

/-- The monitor of FW_REFCLK runs: in PARK only AON does (R17, R186, R415). -/
def Dev.refMonitor (d : Dev) : Bool := d.domainOn .aon && !d.pwr.parked

/-- REFCLK_LOSS. -/
def Dev.refclkLoss (d : Dev) : Dev :=
  if !d.link.refclk || !d.refMonitor then d
  else
    let on := d.pwr.mainOn
    let d := if on then d.linkDown else d
    let d := d.onLink (fun l => { l with
      refclk := false, spread := false, refLosses := satInc 65535 l.refLosses, beenActive := false })
    d.raise 29

/-- REFCLK_LOSS. -/
def execRefclkLoss (s : State) (m : RefLoss := .noEdge 1000) : Host.Outcome State Fault Refusal :=
  .next (s.onDev (fun d => if refLost m then d.refclkLoss else d))

/-- REFCLK_PRESENT: `windows` in kHz; `spread` is what they measured (R186, R209). -/
def execRefclkPresent (windows : List Nat) (s : State) (spread : Bool := false) : Host.Outcome State Fault Refusal :=
  .next (s.onDev (fun d =>
    if refReturns windows && d.refMonitor then (d.onLink (fun l => { l with refclk := true, spread := spread })).startLink else d))

/-! ## Locks and losses (R191, R192, R201, R202) -/

/-- A lane locks: clock recovery is locked, and each of 4 consecutive blocks starts with a comma (R192). -/
def locks (recovered : Bool) (blocks : List Line) : Bool := recovered && blocks.length == 4 && blocks.all hasComma

/-- LANE_LOCK, with `block` and the three before it. On a lane that is locked they are blocks received as any other. -/
def execLaneLock (lane : Nat) (recovered : Bool) (before : List Line) (block : Line) (s : State) :
    Host.Outcome State Fault Refusal :=
  .next (s.onDev (fun d =>
    let blocks := before ++ [block]
    if d.fairwayOn && decide (lane < 4) && locks recovered blocks then
      if (d.link.lane lane).locked then d.onLink (fun l => l.onLane lane (fun x => blocks.foldl Lane.takeBlock x))
      else d.onLink (fun l => { l.onLane lane (fun x =>
          { blocks.foldl Lane.takeBlock { x with recent := [], lastComma := none, openRuns := [] } with locked := true, restoreRun := 0 }) with
        eqRun := 0, agreeRun := 0 })
    else d))

/-- Blocks of lane `x` in which no comma lies at its expected place; once the link is ACTIVE, the deskew follows a drift of up to 8 UI
(R192, R193). -/
def Link.noCommas (l : Link) : Lane → List Line → Bool
  | _, [] => true
  | x, b :: bs => !commaAt x.openRuns (if l.carries then 8 else 0) b && l.noCommas (x.takeBlock b) bs

/-- A lane with the blocks that a cause of loss brings (R191). -/
def Lane.takeCause (x : Lane) : LossCause → Lane
  | .clockRecovery => x
  | .commas blocks | .violations blocks => blocks.foldl Lane.takeBlock x

/-- A locked lane loses lock (R192). -/
def Link.loses (l : Link) (lane : Nat) (c : LossCause) : Bool :=
  match c with
  | .clockRecovery => true
  | .commas blocks => blocks.length == 3 && l.noCommas (l.lane lane) blocks
  | .violations _ => decide (8 ≤ sumNat ((l.lane lane).takeCause c).recent)

/-- The RELEASE set of an attempt of the MZN1080 that ends now, with the sets it receives and transmits on (R196, R203). -/
def Link.releases (l : Link) (rx tx : Nat) : List (Nat × Nat × Nat) :=
  if (l.attempt.map (·.1)).getD 0 = 0 then [] else [(16, rx, tx)]

/-- The change of width begins (R201). An attempt to restore lanes ends with it (R203). -/
def Link.rewidth (l : Link) (rx tx : Nat) : Link :=
  { l with state := .rewidth, newRx := rx, newTx := tx, acks := 0, detecting := true, attempt := none
           out := l.releases rx tx, txSyms := [], rxSyms := [] }

/-- A receive lane of the link is lost in ACTIVE or REWIDTH: the handshake starts with the sets of the lanes that are left
(R197, R199, R201, R202, R206). -/
def Dev.laneLost (d : Dev) (lane : Nat) : Dev :=
  let d := (d.raise 26).send 0xC5 0x1E 0 lane
  let rx := usedSet d.link.goodLanes
  if rx = 0 then d.backoff 5
  else d.onLink (fun l => l.rewidth rx (if l.state == .rewidth then l.newTx else l.txSet))

/-- A receive lane of the link: it is in use, or joins it in the handshake that runs. The loss of a lane that is locked and neither is no
loss of the link: it is counted in LOSSES and neither sends LANE_LOST nor raises event 26 (DESIGN CHOICE, log 143). -/
def Link.uses (l : Link) (lane : Nat) : Bool := bit l.rxSet lane || (l.state == .rewidth && bit l.newRx lane)

/-- LANE_LOSS: a locked lane loses lock (R192). -/
def Dev.laneLoss (d : Dev) (lane : Nat) (c : LossCause) : Dev :=
  if !(d.fairwayOn && decide (lane < 4) && (d.link.lane lane).locked && d.link.loses lane c) then d
  else
    let d := d.onLink (fun l => { l.onLane lane (fun x =>
        { (x.takeCause c).unlock with losses := satInc 255 x.losses, restoreRun := 0 }) with
      eqRun := 0, agreeRun := 0 })
    if d.link.carries && d.link.uses lane then d.laneLost lane
    else if d.link.state == .trainB && d.link.goodLanes.isEmpty then d.backoff 3
    else d

/-- LANE_LOSS. -/
def execLaneLoss (lane : Nat) (c : LossCause) (s : State) : Host.Outcome State Fault Refusal :=
  .next (s.onDev (fun d => d.laneLoss lane c))

/-! ## Training (R197) -/

/-- DETECT_TIMEOUT. -/
def execDetectTimeout (s : State) : Host.Outcome State Fault Refusal :=
  .next (s.onDev (fun d => if d.link.state == .detect then d.backoff 1 else d))

/-- TRAIN_A begins: the MZN1080 chooses the presets it requests of the host, which the manual leaves free (R195). -/
def Link.trainA (l : Link) : Link :=
  { l with
    state := .trainA, draws := l.draws + 1
    lanes := l.lanes.mapIdx (fun n x => { x with preset := Config.freeNat (4 * l.draws + n) % 8 }) }

/-- The receiver adapts: the equaliser in TRAIN_A, the feedback taps in ACTIVE too (R194). -/
def Link.adapt (l : Link) (lane : Nat) (x : Adapt) : Link :=
  match l.state with
  | .trainA => l.onLane lane (fun y => { y with ctle := Nat.min 15 x.ctle, taps := x.taps })
  | .active => l.onLane lane (fun y => { y with taps := x.taps })
  | _ => l

/-- A preset request for transmit lane `n`, as a block brings it (R197). Once the preset is applied the adaptation restarts: here the run
of blocks that report EQ_DONE begins again, and what the receiver's own adaptation has reached is what the next block of FTS-A brings,
since R197 does not say whose adaptation it is (DESIGN CHOICE, log 156). -/
def Link.request (l : Link) (set : Bytes) (n : Nat) : Link :=
  let b := setByte set (2 + n)
  let was := nth (none, 0) l.presetReq n
  if bit b 7 then
    let p := b % 8
    let run := if was.1 = some p then Nat.min 16 (was.2 + 1) else 1
    let l := { l with presetReq := setNth l.presetReq n (some p, run) }
    if run = 16 ∧ nth 4 l.txPreset n ≠ p then { l with txPreset := setNth l.txPreset n p, eqRun := 0 } else l
  else { l with presetReq := setNth l.presetReq n (none, 0) }

/-- A block of FTS-A in TRAIN_A (R197). -/
def Link.blockA (l : Link) (set : Bytes) (eqDone : Bool) : Link :=
  let good := setByte set 6 % 16
  let same := good == l.partnerGood
  let l := { l with partnerGood := good, eqDone := eqDone }
  let run := if bit (setByte set 7) 0 && eqDone then (if same then l.eqRun + 1 else 1) else 0
  let l := ({ l with eqRun := run }.request set 0).request set 1
  if l.eqRun = 16 then { l with state := .trainB, agreeRun := 0, agree := false, sentRun := 0 } else l

/-- A block without a valid FTS-A breaks every run (R197). -/
def Link.breakA (l : Link) : Link := { l with eqRun := 0, presetReq := [(none, 0), (none, 0)] }

/-- The lanes an attempt restored join through the handshake, once every named one, or at the timeout any, has its 64
blocks (DESIGN CHOICE, log 144: R203 does not say when one of several named lanes joins); an attempt that ends sends RELEASE. The partner
ends its own (R203). -/
def Dev.joinLanes (d : Dev) (all : Bool) : Dev :=
  match d.link.attempt with
  | some (rx, _) =>
    let ready := (lanesOf rx).filter (fun n => (d.link.lane n).good && (d.link.lane n).restoreRun == 64)
    let release (l : Link) : Link := { l with attempt := none, out := l.out ++ l.releases l.rxSet l.txSet }
    if rx = 0 then d
    else if !ready.isEmpty && (!all || ready.length == (lanesOf rx).length) then
      let good := (List.range 4).filter (fun n => ready.contains n || bit d.link.rxSet n)
      let set := usedSet good
      if set = d.link.rxSet then d.onLink release
      else d.onLink (fun l => { l.rewidth set l.txSet with joining := (setOf ready, 0) })
    else if all then d
    else d.onLink release
  | none => d

/-- A block of FTS-A on a lane that is being restored (R203). -/
def Dev.restoreBlock (d : Dev) (lane : Nat) (set : Bytes) (valid : Bool) : Dev :=
  let ok := valid && bit (setByte set 7) 0
  (d.onLink (fun l => l.onLane lane (fun x => { x with restoreRun := if ok then Nat.min 64 (x.restoreRun + 1) else 0 }))).joinLanes true

/-- FTS_A: a block of FTS-A on a lane, and what the adaptation of R194 has reached. -/
def Dev.ftsA (d : Dev) (lane : Nat) (block : Line) (x : Adapt) : Dev :=
  if !d.fairwayOn then d
  else
    let set := lineSet lane block
    let valid := d.link.validSet lane 0xA5 set
    let d := d.onLink (fun l => (l.takeSet lane block).adapt lane x)
    if d.link.state == .detect then (if valid then d.onLink Link.trainA else d)
    else if d.link.state == .trainA then
      (if lane == d.link.countLane then d.onLink (fun l => if valid then l.blockA set x.complete else l.breakA) else d)
    else if d.link.state == .active && bit ((d.link.attempt.map (·.1)).getD 0) lane then d.restoreBlock lane set valid
    else d

/-- FTS_A. -/
def execFtsA (lane : Nat) (block : Line) (x : Adapt) (s : State) : Host.Outcome State Fault Refusal :=
  .next (s.onDev (fun d => d.ftsA lane block x))

/-- TRAIN_A_TIMEOUT. -/
def execTrainATimeout (s : State) : Host.Outcome State Fault Refusal :=
  .next (s.onDev (fun d => if d.link.state == .trainA then d.backoff 2 else d))

/-- The skew of every locked lane behind the earliest, from where the commas of a block arrive, in UI (R193, R209). -/
def Link.measure (l : Link) (arrivals : List Nat) : Link :=
  let ls := (List.range 4).filter (fun n => (l.lane n).locked)
  let first := (ls.map (nth 0 arrivals)).foldl Nat.min (nth 0 arrivals (l.countLane))
  { l with lanes := l.lanes.mapIdx (fun n x => if x.locked then { x with skew := Nat.min 127 (nth 0 arrivals n - first) } else x) }

/-- A block of FTS-B counted: `rx` and `tx` are the sets derived here. A set sent in this block carried AGREE if the ends agreed
before it. The sender's RXSET is the transmit set here, and its TXSET the receive set (R197, R199). -/
def Link.blockB (l : Link) (set : Bytes) (rx tx : Nat) : Link :=
  let same := setByte set 8 % 16 == tx && setByte set 9 % 16 == rx
  { l with
    agreeRun := if bit (setByte set 7) 1 && same then Nat.min 16 (l.agreeRun + 1) else 0
    sentRun := if l.agree then Nat.min 16 (l.sentRun + 1) else 0
    agree := same }

/-- FTS_B: a block of FTS-B, and where the commas of the lanes arrive in it; TRAIN_B counts it (R197, R209). -/
def Dev.ftsB (d : Dev) (lane : Nat) (block : Line) (arrivals : List Nat) : Dev :=
  if !d.fairwayOn then d
  else if d.link.state != .trainB then d.onLink (fun l => l.takeSet lane block)
  else
    let set := lineSet lane block
    let valid := d.link.validSet lane 0xB6 set
    let d := d.onLink (fun l => (l.takeSet lane block).measure arrivals)
    if lane != d.link.countLane then d
    else if !valid then d.onLink (fun l => { l with agreeRun := 0 })
    else
      let rx := usedSet d.link.goodLanes
      let tx := usedTx (setByte set 6)
      let d := d.onLink (fun l => { l with partnerGood := setByte set 6 % 16 })
      if rx = 0 ∨ tx = 0 then d.backoff 3
      else
        let d := d.onLink (fun l => l.blockB set rx tx)
        if d.link.agreeRun = 16 ∧ d.link.sentRun = 16 then d.arrive rx tx else d

/-- FTS_B. -/
def execFtsB (lane : Nat) (block : Line) (s : State) (arrivals : List Nat := [0, 0, 0, 0]) : Host.Outcome State Fault Refusal :=
  .next (s.onDev (fun d => d.ftsB lane block arrivals))

/-- TRAIN_B_TIMEOUT. -/
def execTrainBTimeout (s : State) : Host.Outcome State Fault Refusal :=
  .next (s.onDev (fun d => if d.link.state == .trainB then d.backoff 4 else d))

/-- BACKOFF_END. -/
def execBackoffEnd (s : State) : Host.Outcome State Fault Refusal :=
  .next (s.onDev (fun d => if d.link.state == .backoff then d.onLink (Link.detect d.now) else d))

/-! ## Changes of width (R200 to R204) -/

/-- The link is ACTIVE at new sets: the handshake has completed, and link symbols are counted from 0 again. Lanes that joined
by R203 are restored (R203, R204, R209, R210, R211). -/
def Dev.atWidth (d : Dev) (rx tx : Nat) (safe : Bool) : Dev :=
  let joined := (lanesOf rx).countP (fun n => bit d.link.joining.1 n) + (lanesOf tx).countP (fun n => bit d.link.joining.2 n)
  let d := d.onLink (fun l => { l with
    state := .active, rxSet := rx, txSet := tx, rewidths := satInc 65535 l.rewidths, restores := satAdd 65535 l.restores joined
    detecting := false, joining := (0, 0), attempt := none, acks := 0, out := [], rxSlots := 0, txSlots := 0
    txSyms := [], txBlocks := [], rxSyms := [] })
  let d := d.raiseIf (joined != 0) 27
  if tx = 3 then d.witnessWait safe else d.witnessStop

/-- The transmit lanes of the link: those in use, and those that join in the handshake that runs. -/
def Link.txLanes (l : Link) : Nat := if l.state == .rewidth then Nat.lor l.txSet l.newTx else l.txSet

/-- Transmit lanes that the partner names as lost (R206, R209, R210). -/
def Dev.txLost (d : Dev) (tx : Nat) : Dev :=
  ((lanesOf d.link.txLanes).filter (fun n => !bit tx n)).foldl (fun d n =>
    ((d.onLink (fun l => { l with txLosses := satInc 255 l.txLosses })).raise 26).send 0xC5 0x1F 0 n) d

/-- The MZN1080 answers the partner's WIDTH set: it switches its transmitters and sends WIDTH sets with ACK in its first two
blocks at the new width (R201). The lanes named lost no longer transmit; those of the partner's attempt join, and an attempt of
the MZN1080 is abandoned (R203). -/
def Link.answer (l : Link) (rx tx : Nat) : Link :=
  { l with state := .rewidth, newRx := rx, newTx := tx, txSet := Nat.land l.txSet tx, acks := 0, detecting := false
           joining := (l.joining.1, Nat.lor l.joining.2 ((l.attempt.map (·.2)).getD 0)), attempt := none
           out := [(4, rx, tx), (4, rx, tx)] ++ l.releases rx tx, txSyms := [], rxSyms := [] }

/-- The lane on which WIDTH sets of the partner count: the same set comes on every active lane (R196), and the lowest good one in
use carries it. -/
def Link.setLane (l : Link) : Option Nat := (lanesOf l.rxSet).find? (fun n => (l.lane n).good)

/-- WIDTH_SET: a WIDTH set of the partner, without ACK, RESTORE or RELEASE (R201, R202). It names the transmit set here as
its RXSET and the receive set as its TXSET. A set that names what is in force is one sent again. Where the receive lanes
named are not those that R199 gives here, or the MZN1080's own sets have crossed the partner's, the sets that result from
both ends' losses govern, and the MZN1080 acknowledges them and waits for the partner's acknowledgement. Otherwise it
answers, and after the two blocks of its answer the link is ACTIVE (log 33). -/
def Dev.widthSet (d : Dev) (lane : Nat) (block : Line) (safe : Bool) : Dev :=
  if !d.fairwayOn then d
  else if !d.link.carries then d.onLink (fun l => l.takeSet lane block)
  else
    let set := lineSet lane block
    let valid := d.link.setLane == some lane && d.link.validSet lane 0xC7 set && bits (setByte set 7) 2 3 == 0
    let d := d.onLink (fun l => l.takeSet lane block)
    if !valid then d
    else
      let l := d.link
      let tx := usedTx (setByte set 8)
      let named := setByte set 9 % 16
      let rx := usedSet ((lanesOf named).filter (fun n => (l.lane n).good))
      if l.state == .active && rx == l.rxSet && tx == l.txSet && rx == named then d
      else if l.state == .rewidth && rx == l.newRx && tx == l.newTx && rx == named then
        if l.detecting then d.onLink (fun l => { l with out := [(4, rx, tx), (4, rx, tx)] })
        else if l.acks = 0 then d.onLink (fun l => { l with acks := 1 }) else d.atWidth rx tx safe
      else
        let d := d.txLost tx
        if tx = 0 ∨ rx = 0 then d.backoff 5
        else
          let cross := rx != named || (l.state == .rewidth && l.detecting)
          let d := d.onLink (fun l => { l.answer rx tx with detecting := cross })
          if tx = 3 then d else d.witnessStop

/-- WIDTH_SET. -/
def execWidthSet (lane : Nat) (block : Line) (s : State) : Host.Outcome State Fault Refusal :=
  .next (s.onDev (fun d => d.widthSet lane block s.lat.safe))

/-- A WIDTH set acknowledges the handshake: it comes with the sets of the handshake on its lowest receive lane (R201). -/
def Link.acknowledges (l : Link) (lane : Nat) (set : Bytes) : Bool :=
  l.state == .rewidth && l.detecting && l.validSet lane 0xC7 set && bit (setByte set 7) 2 &&
    setByte set 8 % 16 == l.newTx && setByte set 9 % 16 == l.newRx && bit l.newRx lane && (lanesOf l.newRx).head? == some lane

/-- WIDTH_ACK: a WIDTH set with ACK and the sets of the handshake; the second returns the link to ACTIVE (R201). -/
def Dev.widthAck (d : Dev) (lane : Nat) (block : Line) (safe : Bool) : Dev :=
  if !d.fairwayOn then d
  else
    let ack := d.link.acknowledges lane (lineSet lane block)
    let d := d.onLink (fun l => l.takeSet lane block)
    if !ack then d
    else if d.link.acks = 0 then d.onLink (fun l => { l with acks := 1 })
    else d.atWidth d.link.newRx d.link.newTx safe

/-- WIDTH_ACK. -/
def execWidthAck (lane : Nat) (block : Line) (s : State) : Host.Outcome State Fault Refusal :=
  .next (s.onDev (fun d => d.widthAck lane block s.lat.safe))

/-- REWIDTH_TIMEOUT: 200 µs have passed since the last lane loss (R197). -/
def execRewidthTimeout (s : State) : Host.Outcome State Fault Refusal :=
  .next (s.onDev (fun d => if d.link.state == .rewidth then d.backoff 5 else d))

/-! ## Restoring lanes (R203) -/

/-- RESTORE_ATTEMPT: the MZN1080 tries to restore the unused lanes of one link; of two links in turn. A RESTORE set names the
receive lanes. For the transmit link the roles are exchanged: the turn is the partner's, whose RESTORE set begins the attempt. -/
def execRestoreAttempt (s : State) : Host.Outcome State Fault Refusal :=
  .next (s.onDev (fun d =>
    let l := d.link
    if l.state == .active && l.attempt.isNone && (l.rxSet != 15 || l.txSet != 3) then
      let rx := l.rxSet != 15 && (l.txSet == 3 || !l.lastRx)
      d.onLink (fun l => { l with
        attempt := if rx then some (15 - l.rxSet, 0) else none, lastRx := rx
        out := if rx then l.out ++ [(8, 15 - l.rxSet, l.txSet)] else l.out
        lanes := l.lanes.map (fun x => { x with restoreRun := 0 }) })
    else d))

/-- A valid WIDTH set with flag `f` on an ACTIVE link. -/
def Dev.flagSet (d : Dev) (lane : Nat) (set : Bytes) (f : Nat) : Bool :=
  d.fairwayOn && d.link.state == .active && d.link.validSet lane 0xC7 set && bit (setByte set 7) f

/-- RESTORE_SET: the partner asks for FTS-A on unused transmit lanes; while an attempt runs, none other begins (R203). -/
def execRestoreSet (lane : Nat) (block : Line) (s : State) : Host.Outcome State Fault Refusal :=
  .next (s.onDev (fun d =>
    let set := lineSet lane block
    let named := Nat.land (setByte set 8 % 4) (3 - d.link.txSet)
    let begins := d.flagSet lane set 3 && d.link.attempt.isNone && named != 0
    let d := if d.fairwayOn then d.onLink (fun l => l.takeSet lane block) else d
    if begins then d.onLink (fun l => { l with attempt := some (0, named) }) else d))

/-- RELEASE_SET: the partner's attempt has ended; lanes left unused return to electrical idle. -/
def execReleaseSet (lane : Nat) (block : Line) (s : State) : Host.Outcome State Fault Refusal :=
  .next (s.onDev (fun d =>
    let ends := d.flagSet lane (lineSet lane block) 4 && (d.link.attempt.map (·.1)).getD 1 == 0
    let d := if d.fairwayOn then d.onLink (fun l => l.takeSet lane block) else d
    if ends then d.onLink (fun l => { l with attempt := none }) else d))

/-- RESTORE_TIMEOUT: 2.00 ms of an attempt have passed. -/
def execRestoreTimeout (s : State) : Host.Outcome State Fault Refusal :=
  .next (s.onDev (fun d => if d.link.state == .active then d.joinLanes false else d))

/-! ## What the transmit lanes send (R187 to R190, R196, R197) -/

/-- SEQ: blocks since training began, by the nominal line rate of 6 bits a ns (R184, R196). -/
def Link.seq (l : Link) (now : Nat) : Nat := (now - l.trainAt) * 30 / blockUi

/-- FTS-A as sent: a preset is requested of each host transmitter once TRAIN_A has chosen it. -/
def Link.ftsASet (l : Link) (now lane : Nat) : Bytes :=
  setBytes 0xA5 lane {
    presets := (List.range 4).map (fun n => if l.state == .trainA then 128 + (l.lane n).preset else 0)
    good := l.lockedSet, flags := b1 l.eqDone, seq := l.seq now }

/-- FTS-B as sent, with the sets derived here. -/
def Link.ftsBSet (l : Link) (now lane : Nat) : Bytes :=
  setBytes 0xB6 lane {
    good := l.lockedSet, flags := 2 * b1 l.agree, rx := usedSet l.goodLanes, tx := usedTx l.partnerGood, seq := l.seq now }

/-- A WIDTH set as sent in the `i`-th block from this one. -/
def Link.widthSetOut (l : Link) (now lane i : Nat) (x : Nat × Nat × Nat) : Bytes :=
  setBytes 0xC7 lane { good := l.lockedSet, flags := x.1, rx := x.2.1, tx := x.2.2, seq := l.seq now + i }

/-- The ordered sets that a transmit lane sends, block by block; none where it sends link symbols or is in electrical idle. Until
START ends the transmitters are in electrical idle (R397). -/
def Dev.txSets (d : Dev) (lane : Nat) : List Bytes :=
  let l := d.link
  if d.inStart || !d.fairwayOn then []
  else match l.state with
    | .down | .backoff => []
    | .detect | .trainA => [l.ftsASet d.now lane]
    | .trainB => [l.ftsBSet d.now lane]
    | .rewidth =>
      let out := (if l.detecting then [(0, l.newRx, l.newTx)] else []) ++ l.out
      let lanes := if l.detecting then l.txSet else l.newTx
      if bit lanes lane then out.mapIdx (l.widthSetOut d.now lane) else []
    | .active =>
      if bit l.txSet lane then l.out.mapIdx (l.widthSetOut d.now lane)
      else if bit ((l.attempt.map (·.2)).getD 0) lane then [l.ftsASet d.now lane] else []

/-- The blocks of a transmit lane from the link symbols that the last frame completed on: those, and the sets sent since; each
payload begins with its symbols, and the rest is 0x00 (R187 to R190, R196). -/
def Dev.txLines (d : Dev) (lane : Nat) : List Line :=
  let l := d.link
  let syms := if !d.fairwayOn || l.state != .active || !bit l.txSet lane then []
    else l.txBlocks.map (laneShare (setWidth l.txSet) ((lanesOf l.txSet).idxOf lane) blockSyms)
  (syms ++ d.txSets lane).map (blockLine (txSeed lane))

/-- Link symbols leave in blocks of 875 a lane (R187); `fuel` bounds the blocks that one frame completes. -/
def Link.fillBlocks : Nat → Link → Link
  | 0, l => l
  | fuel + 1, l =>
    let n := blockSyms * setWidth l.txSet
    if n = 0 ∨ l.txSyms.length < n then l
    else Link.fillBlocks fuel { l with txBlocks := l.txBlocks ++ [l.txSyms.take n], txSyms := l.txSyms.drop n }

/-- A frame takes the next transmit slot: link symbols follow the sets sent before (R197, R211). -/
def Link.sendFrame (l : Link) (f : Bytes) : Link :=
  Link.fillBlocks 4 { l with txSyms := l.txSyms ++ f, txSlots := l.txSlots + 1, txBlocks := [], out := [] }

end Sys2Proof.Machine
end

