-- ==== Sys2Proof/Machine/Packets.lean ====
section
/-! DEFINITION. VC0 packets (R225, R226) and what each does: LAYER (R109, R117, R118, R165, R258), SECTOR_SET (R137 to
R139), SYMBOL_SET (R150, R151), COMMIT (R227), MODE (R94), BLEND (R110) and TIME (R437). -/

namespace Sys2Proof.Machine

/-! ## Descriptor checks (R117, R118, R165) -/

/-- The lowest and the highest source column that a descriptor reads (R115, R118). -/
def dCols (w : List Nat) : Nat × Nat :=
  if dBilin w then ((bilinear (dSw w) (dDw w) 0).1, (bilinear (dSw w) (dDw w) (dDw w - 1)).2.1)
  else (nearest (dSw w) (dDw w) 0, nearest (dSw w) (dDw w) (dDw w - 1))

/-- W_used, T_used and B_used (R118). -/
def wUsed (w : List Nat) : Nat := (dCols w).2 + 1 - (dCols w).1
def tUsed (w : List Nat) : Nat := (dCols w).2 / 2 + 1 - (dCols w).1 / 2
def bUsed (w : List Nat) : Nat := (dCols w).2 / 8 + 1 - (dCols w).1 / 8

/-- Bytes that hold `n` samples of a format. -/
def bytesFor (fmt n : Nat) : Nat := (n * fmtBpp fmt + 7) / 8

/-- Row bytes of a descriptor's source; of a block row in FRB and FRBT (R118). -/
def rowBytes (w : List Nat) : Nat := if fmtFrb (dFmt w) then 4 * dSw w else bytesFor (dFmt w) (dSw w)

/-- Source rows, or block rows, and tint rows. -/
def srcRows (w : List Nat) : Nat := if fmtFrb (dFmt w) then dSh w / 8 else dSh w
def tintRows (w : List Nat) : Nat := (dSh w + 1) / 2

/-- The line buffer and the decode buffer hold the slot (R118). -/
def fitsLines (w : List Nat) : Bool :=
  let tint := if fmtTint (dFmt w) then 2 * ceil32 (tUsed w) else 0
  if fmtFrb (dFmt w) then
    decide (2 * ceil32 (32 * bUsed w) + tint ≤ 8192) && decide (16 * ceil32 (12 * bUsed w) ≤ 24576)
  else decide ((if dBilin w then 3 else 2) * ceil32 (bytesFor (dFmt w) (wUsed w)) + tint ≤ 8192)

/-- The fetch cost F (R165). -/
def fetchCost (w : List Nat) : Nat :=
  let nSrc := (7 * scaleStep (dSh w) (dDh w) + 65535) / 65536 + 1 + b1 (dBilin w)
  let nTnt := (nSrc + 1) / 2 + 1
  let main := if fmtFrb (dFmt w) then ((nSrc + 6) / 8 + 1) * 32 * bUsed w else nSrc * ceil32 (bytesFor (dFmt w) (wUsed w))
  main + (if fmtTint (dFmt w) then nTnt * ceil32 (tUsed w) else 0)

/-- The descriptor that counts for a slot: of current and staged the one with the larger F, or the enabled one. -/
def costlier (cur : List Nat) (staged : Option (List Nat)) : List Nat :=
  match staged with
  | none => cur
  | some s => if !dEn cur then s else if !dEn s then cur else if fetchCost cur < fetchCost s then s else cur

/-- A set of descriptors keeps the bounds N_LAYER and FETCH_BATCH (R164, R165). -/
def Dev.withinBounds (d : Dev) (ws : List (List Nat)) : Bool :=
  let on := ws.filter dEn
  decide (on.length ≤ d.nLayer) && decide (sumNat (on.map fetchCost) ≤ d.fetchBatch)

/-- The set R165 forms for slot `n` and a new descriptor. -/
def Dev.boundSet (d : Dev) (n : Nat) (w : List Nat) : List (List Nat) :=
  (List.range 16).map (fun i => if i = n then w else let x := nth {} d.eng.slots i
                                                     costlier x.cur x.staged)

/-- BUFFER: the buffer is not declared, or in DRAM-less mode not the one the slot may show (R117, R258). -/
def Dev.badBuffer (d : Dev) (n : Nat) (w : List Nat) : Bool :=
  !d.declared (dBuf w) || (d.memc.dramLess && !(decide (n < 2) && dBuf w == d.fb n))

/-- The reason for which an enabled descriptor is rejected without regard to the bounds, 0 for none (R117). -/
def Dev.descReason (d : Dev) (n : Nat) (w : List Nat) : Nat :=
  let f := dFmt w
  let size := d.bufSize (dBuf w)
  let mis (x : Nat) : Bool := x % 32 != 0
  let odd8 (x : Nat) : Bool := x % 8 != 0
  let out (x mx : Nat) : Bool := x == 0 || decide (mx < x)
  if decide (10 ≤ f) || dReserved w || decide (4096 < dAlpha w) then 1
  else if d.badBuffer n w then 2
  else if mis (dOffset w) || mis (dStride w) || mis (dTstride w) || mis (dToff w) ||
      (fmtFrb f && (odd8 (dSw w) || odd8 (dSh w))) then 3
  else if out (dSw w) 6144 || out (dSh w) 2816 || out (dDw w) 1536 || out (dDh w) 704 || decide (dStride w < rowBytes w) ||
      (fmtTint f && decide (dTstride w < (dSw w + 1) / 2)) then 4
  else if decide (1536 < dDx w + dDw w) || decide (704 < dDy w + dDh w) then 5
  else if decide (8 * dSw w < dDw w) || decide (4 * dDw w < dSw w) || decide (8 * dSh w < dDh w) ||
      decide (4 * dDh w < dSh w) then 6
  else if decide (size < dOffset w + (srcRows w - 1) * dStride w + rowBytes w) ||
      (fmtTint f && decide (size < dToff w + (tintRows w - 1) * dTstride w + (dSw w + 1) / 2)) then 7
  else if !fitsLines w then 8
  else 0

/-- The reason for which a LAYER message is rejected, 0 for none. A disabled descriptor is rejected only for a slot that
DRAM-less mode does not compose (R108, R117, R258). -/
def Dev.layerReason (d : Dev) (n : Nat) (w : List Nat) : Nat :=
  if !dEn w then (if d.memc.dramLess && decide (2 ≤ n) then 2 else 0)
  else
    let r := d.descReason n w
    if r ≠ 0 then r else if d.withinBounds (d.boundSet n w) then 0 else 9

/-! ## Packets (R226) -/

/-- A malformed packet (R226). -/
def Dev.malformed (d : Dev) (type_ : Nat) : Dev :=
  ((d.onFw (fun f => { f with malformed := satInc 65535 f.malformed })).raise 36).reject type_ 0xFF 0

/-- The words of a body from word `i` on, `n` of them. -/
def bodyWords (body : Bytes) (i n : Nat) : List Nat := (List.range n).map (fun k => wordAt body (i + k))

/-- LAYER (R109). -/
def Dev.layerPacket (d : Dev) (body : Bytes) : Dev :=
  let n := bits (wordAt body 0) 0 4
  if body.length ≠ 36 ∨ 16 ≤ wordAt body 0 then d.malformed 1
  else
    let w := bodyWords body 1 8
    let r := d.layerReason n w
    if r ≠ 0 then
      let d := d.onEng (fun e => { e with rejects := satInc 65535 e.rejects, rejectSlot := n, rejectReason := r })
      let d := d.onFrm (fun f => { f with limitReject := satAdd 65535 f.limitReject (b1 (r == 9)) })
      (d.raise 52).reject 1 r n
    else
      (d.onEng (fun e => { e with slots := updNth e.slots n (fun x => { x with staged := some w }) })).releases d

/-- A box breaks R138. -/
def boxBad (b : List Nat) : Bool :=
  decide (boxH1 b < boxH0 b) || decide (boxV1 b < boxV0 b) || decide (4096 < boxTrans b) || bits (dw b 2) 13 3 != 0 ||
  bits (dw b 2) 20 4 != 0 || dw b 3 != 0

/-- Record the refusal of a sector set (R139, R157). -/
def Dev.refuseSectors (d : Dev) (reason box id : Nat) : Dev :=
  ((d.onEng (fun e => { e with
    sectRefused := satInc 65535 e.sectRefused, sectReason := reason, sectBox := box, sectId := id })).raise 57).reject 2 reason box

/-- The first index at which a list satisfies a condition. -/
def firstIdx {α : Type} (p : α → Bool) (l : List α) : Option Nat := l.findIdx? p

/-- SECTOR_SET (R137, R139). -/
def Dev.sectorPacket (d : Dev) (body : Bytes) : Dev :=
  let h := wordAt body 0
  let count := bits h 0 7
  if body.length < 16 ∨ body.length ≠ 16 + 16 * count then d.malformed 2
  else if bits h 7 25 ≠ 0 ∨ wordAt body 1 ≠ 0 ∨ wordAt body 2 ≠ 0 ∨ wordAt body 3 ≠ 0 then d.refuseSectors 2 0 0
  else
    let boxes := (List.range count).map (fun i => bodyWords body (4 + 4 * i) 4)
    match firstIdx boxBad boxes with
    | some i => d.refuseSectors 1 i (bits (dw (nth [] boxes i) 2) 24 8)
    | none =>
      let kept := boxes.take d.nSect
      let dropped := count - kept.length
      (d.onEng (fun e => { e with
        sectStaged := some { boxes := kept }, sectDropped := satAdd 65535 e.sectDropped dropped })).raiseIf (dropped != 0) 58

/-- An instance has a nonzero reserved field or OPACITY above 4,096 (R151). -/
def instBad (i : List Nat) : Bool :=
  bits (dw i 0) 20 12 != 0 || bits (dw i 1) 20 12 != 0 || bits (dw i 2) 13 19 != 0 || decide (4096 < bits (dw i 2) 0 13) ||
  bits (dw i 3) 11 5 != 0 || bits (dw i 3) 26 6 != 0 || bits (dw i 4) 11 5 != 0 || bits (dw i 4) 26 6 != 0

/-- Its rectangle reaches beyond the beam (R151). A DW or DH of 0 lies outside the range of R150 and R151 names no refusal for it:
such a rectangle is empty, and the instance is accepted (DESIGN CHOICE, log 127). -/
def instOut (i : List Nat) : Bool :=
  decide (1536 < bits (dw i 3) 0 11 + bits (dw i 4) 0 11) || decide (704 < bits (dw i 3) 16 10 + bits (dw i 4) 16 10)

/-- Its sprite is none of the library (R151). -/
def Dev.noSprite (d : Dev) (i : List Nat) : Bool := decide (d.nEnt ≤ bits (dw i 0) 0 12)

/-- The area of its rectangle. -/
def instArea (i : List Nat) : Nat := bits (dw i 4) 0 11 * bits (dw i 4) 16 10

/-- The instances kept under N_SYM and SYM_AREA, visited in increasing index from `idx` (R151). -/
def keepInsts (nSym area : Nat) : Nat → Nat → List (List Nat) → List (List Nat)
  | _, _, [] => []
  | idx, used, i :: is =>
    if idx < nSym ∧ used + instArea i ≤ area then i :: keepInsts nSym area (idx + 1) (used + instArea i) is
    else keepInsts nSym area (idx + 1) used is

/-- Record the refusal of a symbol set (R151, R157). -/
def Dev.refuseSymbols (d : Dev) (reason idx : Nat) : Dev :=
  ((d.onEng (fun e => { e with symRefused := satInc 65535 e.symRefused, symReason := reason, symIndex := idx })).raise 59).reject
    3 reason idx

/-- SYMBOL_SET (R150, R151). -/
def Dev.symbolPacket (d : Dev) (body : Bytes) : Dev :=
  let h := wordAt body 0
  let count := bits h 0 6
  if body.length < 16 ∨ body.length ≠ 16 + 56 * count then d.malformed 3
  else if bits h 6 26 ≠ 0 ∨ wordAt body 1 ≠ 0 ∨ wordAt body 2 ≠ 0 ∨ wordAt body 3 ≠ 0 then d.refuseSymbols 1 0
  else
    let insts := (List.range count).map (fun i => bodyWords body (4 + 14 * i) 14)
    match firstIdx instBad insts, firstIdx instOut insts, firstIdx (fun i => d.eng.libReady && d.noSprite i) insts with
    | some i, _, _ => d.refuseSymbols 1 i
    | none, some i, _ => d.refuseSymbols 2 i
    | none, none, some i => d.refuseSymbols 3 i
    | none, none, none =>
      let kept := keepInsts d.nSym d.symArea 0 0 insts
      let dropped := count - kept.length
      (d.onEng (fun e => { e with
        symStaged := some { insts := kept }, symDropped := satAdd 65535 e.symDropped dropped })).raiseIf (dropped != 0) 60

/-- The slots named by SLOTS, in increasing order (R227). -/
def namedSlots (w : Nat) : List Nat := (List.range 16).filter (fun n => bit w n)

/-- COMMIT (R92, R227). -/
def Dev.commitPacket (d : Dev) (body : Bytes) : Dev :=
  let w1 := wordAt body 1
  let slots := namedSlots w1
  let words := bodyWords body 2 slots.length
  if body.length < 8 ∨ body.length ≠ 8 + 4 * slots.length ∨ 65536 ≤ w1 ∨ words.any (fun w => decide (131072 ≤ w)) then d.malformed 4
  else d.acceptCommit (wordAt body 0) ((slots.zip words).map (fun e => (e.1, e.2 % 65536, bit e.2 16)))

/-- MODE (R94). -/
def Dev.modePacket (d : Dev) (body : Bytes) : Dev :=
  if body.length ≠ 8 ∨ 4 ≤ wordAt body 1 then d.malformed 5 else d.acceptMode (wordAt body 0) (wordAt body 1)

/-- BLEND (R110, R226, R258). -/
def Dev.blendPacket (d : Dev) (body : Bytes) : Dev :=
  let w := wordAt body 0
  let k := bits w 1 3
  if body.length ≠ 4 ∨ 16 ≤ w then d.malformed 6
  else if bit w 0 && (decide (d.nProg ≤ k) || d.memc.dramLess) then d.reject 6 1 0
  else d.onEng (fun e => { e with blendStaged := some (if bit w 0 then some k else none) })

/-- TIME: the anchor is replaced (R437). -/
def Dev.timePacket (d : Dev) (body : Bytes) : Dev :=
  if body.length ≠ 8 then d.malformed 7
  else d.onLedg (fun l => { l with anchorUtc := beNat body, anchorClock := d.lampMs })

/-- One packet with its type, byte 1 and body (R226). -/
def Dev.onePacket (d : Dev) (type_ byte1 : Nat) (body : Bytes) : Dev :=
  if byte1 ≠ 0 then d.malformed type_
  else if type_ = 1 then d.layerPacket body
  else if type_ = 2 then d.sectorPacket body
  else if type_ = 3 then d.symbolPacket body
  else if type_ = 4 then d.commitPacket body
  else if type_ = 5 then d.modePacket body
  else if type_ = 6 then d.blendPacket body
  else if type_ = 7 then d.timePacket body
  else d.malformed type_

/-- A packet arrives over Fairway in a session; otherwise nothing brings it (R14). -/
def State.onPacket (s : State) (f : Dev → Dev) : State := s.onDev (fun d => if d.contentOn then f d else d)

/-- PAD: ends the processing of its frame, and does nothing else. -/
def execPad (s : State) : Host.Outcome State Fault Refusal := .next s
/-- LAYER. -/
def execLayer (body : Bytes) (s : State) : Host.Outcome State Fault Refusal := .next (s.onPacket (fun d => d.layerPacket body))
/-- SECTOR_SET. -/
def execSectorSet (body : Bytes) (s : State) : Host.Outcome State Fault Refusal := .next (s.onPacket (fun d => d.sectorPacket body))
/-- SYMBOL_SET. -/
def execSymbolSet (body : Bytes) (s : State) : Host.Outcome State Fault Refusal := .next (s.onPacket (fun d => d.symbolPacket body))
/-- COMMIT. -/
def execCommit (body : Bytes) (s : State) : Host.Outcome State Fault Refusal := .next (s.onPacket (fun d => d.commitPacket body))
/-- MODE. -/
def execMode (body : Bytes) (s : State) : Host.Outcome State Fault Refusal := .next (s.onPacket (fun d => d.modePacket body))
/-- BLEND. -/
def execBlend (body : Bytes) (s : State) : Host.Outcome State Fault Refusal := .next (s.onPacket (fun d => d.blendPacket body))
/-- TIME. -/
def execTime (body : Bytes) (s : State) : Host.Outcome State Fault Refusal := .next (s.onPacket (fun d => d.timePacket body))

/-! ## The payload of a VC0 frame (R225) -/

/-- Packets from an offset of the payload to its end; what a packet leaves for the next frame is kept. A PAD whose LENGTH or byte 1
is not 0 counts as malformed and still ends the frame's processing (DESIGN CHOICE, log 130). -/
def Dev.packets : Nat → Dev → Bytes → Dev
  | 0, d, _ => d
  | fuel + 1, d, p =>
    if p.length < 4 then d
    else
      let ty := beNat (p.take 1)
      let b := beNat (slice p 1 1)
      let len := beNat (slice p 2 2)
      if len % 4 ≠ 0 ∨ 4092 < len then d.malformed ty
      else if ty = 0 then (if b ≠ 0 ∨ len ≠ 0 then d.malformed 0 else d)
      else if p.length < 4 + len then d.onFw (fun f => { f with partPkt := some p })
      else Dev.packets fuel (d.onePacket ty b (slice p 4 len)) (p.drop (4 + len))

/-- The packet that continues from the frame before, and what this frame adds to it. One that FIRST_PKT cuts short of its LENGTH is
discarded as malformed (DESIGN CHOICE, log 130). -/
def Dev.continuePacket (d : Dev) (acc : Bytes) (payload : Bytes) (first : Nat) : Dev :=
  let need := 4 + beNat (slice acc 2 2)
  let all := acc ++ payload.take (if first = 0xFFFF then payload.length else first)
  if need ≤ all.length then
    (d.onFw (fun f => { f with partPkt := none })).onePacket (beNat (all.take 1)) (beNat (slice all 1 1)) (slice all 4 (need - 4))
  else if first = 0xFFFF then d.onFw (fun f => { f with partPkt := some all })
  else (d.onFw (fun f => { f with partPkt := none })).malformed (beNat (all.take 1))

/-- The payload of an accepted VC0 frame: `first` is FIRST_PKT, used as it stands also where it is no multiple of 4 or lies beyond LEN
(DESIGN CHOICE, log 130). -/
def Dev.vc0Payload (d : Dev) (payload : Bytes) (first : Nat) : Dev :=
  let d := match d.fw.partPkt with
    | some acc => d.continuePacket acc payload first
    | none => d
  if first = 0xFFFF then d else Dev.packets 520 d (payload.drop first)

end Sys2Proof.Machine
end

