-- ==== Sys2Proof/Machine/Schedule.lean ====
section
/-! DEFINITION. The schedule sequencer and monitor at run time (R161 to R163, R172 to R176): entries that compose and load
chains, deadlines, and the completion of rows and frames (R70 to R75, R131, R146). -/

namespace Sys2Proof.Machine

/-! ## Entries (R163) -/

/-- A beam engine is in control. -/
def Chg.engineUp (c : Chg) : Bool := c.eng.a == .active || c.eng.b == .active

/-- Cycles since the tick that began the frame. -/
def Dev.sinceTick (d : Dev) : Nat := d.now - d.frm.tickAt

/-- Entry `i` has completed in this frame, `extra` cycles ago or more. -/
def Dev.entryDone (d : Dev) (i extra : Nat) : Bool :=
  d.frm.begun.any (fun e => e.1 == i && (match e.2 with | some c => decide (c + extra ≤ d.sinceTick) | none => false))

/-- The entries of the mode in force with an activity that `act` picks. -/
def Dev.entriesOf (d : Dev) (act : Nat → Bool) : List Nat :=
  ((List.range (d.modeCount d.frm.mode)).map (d.modeFirst d.frm.mode + ·)).filter (fun j => act (d.entry j).act)

/-- Tile row of a chain entry; first batch and count of a COMPOSE entry (R161). -/
def Entry.row (e : Entry) : Nat := bits e.operand 0 3
def Entry.batch0 (e : Entry) : Nat := bits e.operand 0 7
def Entry.nBatch (e : Entry) : Nat := bits e.operand 8 7

/-- K_S7 (R167). -/
def kS7 : Nat := 200

/-- The earlier chain entries of a tile row have completed (R163). -/
def Dev.rowChainsDone (d : Dev) (i ty : Nat) : Bool :=
  ((d.entriesOf (fun a => a == 2 || a == 3)).filter (fun j => decide (j < i) && (d.entry j).row == ty)).all (fun j => d.entryDone j 0)

/-- The predecessors of entry `i` have completed (R163). In a takeover frame the DRIVE passes run without the table (R174), and
HEALTH waits for those of every tile row. -/
def Dev.predsDone (d : Dev) (i : Nat) : Bool :=
  let e := d.entry i
  if e.act = 1 then
    match ((d.entriesOf (fun a => a == 1)).filter (fun j => decide (j < i))).getLast? with
    | some j => d.entryDone j 0
    | none => true
  else if e.act = 2 then
    (d.entriesOf (fun a => a == 1)).any (fun j =>
      let c := d.entry j
      decide (c.batch0 ≤ 11 * e.row + 10) && decide (11 * e.row + 10 < c.batch0 + c.nBatch) && d.entryDone j kS7) &&
    d.rowChainsDone i e.row
  else if e.act = 3 then d.rowChainsDone i e.row
  else if e.act = 7 then
    if d.frm.suspended then d.comp.loaded == BitVec.allOnes 8 && d.arr.passes.all (fun p => p.purpose != .drive)
    else (d.entriesOf (fun a => a == 2)).all (fun j => d.entryDone j 0)
  else true

/-- Entry `i` of activity `act` begins: it has not begun in this frame, its START has come and its predecessors have completed
(R161, R163). No entry runs in a transitional frame (R96), and in extension periods only one that waited for a predecessor
(R172, R177). -/
def State.entryReady (s : State) (i act : Nat) : Bool :=
  let d := s.dev
  let waits := act == 1 || act == 2 || act == 3 || act == 7
  s.running && !d.frm.transitional && d.inMode i && (d.entry i).act == act && !d.frm.begun.any (fun e => e.1 == i) &&
  decide ((d.entry i).start ≤ d.sinceTick) && d.predsDone i && (waits || decide (d.frm.period < d.base))

/-- In a takeover frame the entries of the table that begin work on the frame do not run (R174). -/
def Dev.tableRuns (d : Dev) : Bool := !d.frm.suspended

/-- An entry begins; `fin` is its completion in cycles after the tick, once known. -/
def Dev.begin (d : Dev) (i : Nat) (fin : Option Nat) : Dev := d.onFrm (fun f => { f with begun := f.begun ++ [(i, fin)] })

/-! ## Rows and frames complete (R70 to R75, R131) -/

/-- The batches of a tile row. -/
def rowMask (ty : Nat) : BitVec 88 := 0x7FF#88 <<< (11 * ty)

/-- The row's 11 batches are composed. -/
def Comp.rowDone (c : Comp) (ty : Nat) : Bool := c.batches &&& rowMask ty == rowMask ty

/-- The clamp factors of a row whose batches are complete (R73, R74). A tile that is dark then has no drive to clamp: its factor is 4,096,
and it raises no TILE_CLAMP (DESIGN CHOICE, log 140). -/
def Dev.closeRow (d : Dev) (ty : Nat) : Dev :=
  let total := d.weightSum
  let k (t : Nat) : Nat :=
    if d.isDark t then 4096 else clampFactor (d.demandOf t) d.comp.g (tileMax d.comp.ieff (d.weight t) total)
  d.onComp (fun c => { c with kts := (tileRow ty).foldl (fun m t => SMap.set 4096 m t (k t)) c.kts })

/-- Composition of the frame is complete: its demand and current, the statistics registers and the events (R69 to R75,
R127, R134, R135, R146); a rebuilt frame is one dip frame. Delivered current is Σ D_t × G × k_t / 2^24, truncated by tile (DEDUCED, log 15). -/
def Dev.frameComposed (d : Dev) : Dev :=
  let c := d.comp
  let lit := d.litTiles
  let dem := sumNat (lit.map d.demandOf)
  let del := sumNat (lit.map (fun t => d.demandOf t * c.g * d.kOf t / 2 ^ 24))
  let clamped := d.clampedTiles
  let d := d.onComp (fun c => { c with demand := dem, delivered := del })
  let d := d.onEng (fun e => { e with
    statTick := (c.tick + 1) % 2 ^ 32, statTloss := Nat.min (2 ^ 24 - 1) (c.tloss / 65536), statTquads := c.tquads
    statClip := c.clip, dip := c.dip, dipFrames := satAdd 65535 e.dipFrames (b1 (c.dip && !c.dipCounted))
    slots := e.slots.map (fun x => { x with shownRun := x.staleRun, shownTotal := x.staleTotal }) })
  let d := d.onComp (fun x => { x with dipCounted := c.dip || c.dipCounted })
  let d := d.onChg (fun g => { g with rebuilding := g.rebuilding && !d.compositionGate })
  let d := d.raiseIf (decide (0 < clamped)) 72
  let d := d.raiseIf (decide (c.ieff < dem)) 73
  let d := d.raiseIf (c.tloss != 0) 54
  d.raiseIf (c.clip != 0) 55

/-- The first batch of a frame that enters a freshness dip: SECTOR_STALE and event DIP (R146). A dip that frames of the standalone
beam interrupt is entered anew after them (log 105). -/
def Dev.enterDip (d : Dev) : Dev :=
  let stale := d.comp.host && d.sectStale
  let d' := d.onEng (fun e => { e with freshDip := stale })
  if stale && !d.eng.freshDip then (d'.raise 61).send d.engineSource 0x14 0 d.eng.sectAge else d'

/-- The active engine composes batches b0 to b0 + n − 1 (R105). `po` lists the granules that the DRAM answers with poisoned data,
`co` an element for each corrected error and `fetched` the granules that the engine has fetched, which the manual leaves to its
prefetch (log 119). -/
def State.composeBatches (s : State) (b0 n : Nat) (po co fetched : List Nat) : State :=
  let po := s.dev.memc.fromDram po
  let co := s.dev.memc.fromDram co
  let s := s.onDev (fun d =>
    (if d.comp.batches = 0 then d.enterDip else d).entryReads fetched.length (fetched.countP d.memc.forwards) po co)
  let was := s.dev.comp
  let s := (List.range n).foldl (fun s i => s.batch po (b0 + i)) s
  s.onDev (fun d =>
    let d := d.onMemc (fun m => { m with draws := m.draws + 1 })
    let rows := (List.range 8).filter (fun ty => d.comp.rowDone ty && !was.rowDone ty)
    let d := rows.foldl (fun d ty => d.closeRow ty) d
    if d.comp.batches == BitVec.allOnes 88 && was.batches != BitVec.allOnes 88 then d.frameComposed else d)

/-- Batches 0 to b0 − 1 are composed and no other (R105, R163). -/
def Comp.nextBatch (c : Comp) (b0 : Nat) : Bool := c.batches == BitVec.ofNat 88 (2 ^ b0 - 1)

/-- What may be composed: the next batches of a frame that has content, by an engine in control. -/
def Dev.mayCompose (d : Dev) (b0 n : Nat) : Bool :=
  d.chg.engineUp && d.comp.content != .none && d.comp.nextBatch b0 && decide (0 < n) && decide (b0 + n ≤ 88)

/-- COMPOSE. -/
def State.compose (s : State) (w : Work) (doneAt : Nat) (poison corrected fetched : List Nat) : State :=
  match w with
  | .entry i =>
    let op := (s.dev.entry i).operand
    let b0 := bits op 0 7
    let n := bits op 8 7
    if s.entryReady i 1 && s.dev.tableRuns && s.dev.mayCompose b0 n then
      (s.composeBatches b0 n poison corrected fetched).onDev (fun d => d.begin i (some doneAt))
    else s
  | .rebuild b0 n =>
    if s.running && s.dev.chg.rebuilding && s.dev.mayCompose b0 n then s.composeBatches b0 n poison corrected fetched else s

/-- COMPOSE. -/
def execCompose (w : Work) (doneAt : Nat) (poison : List Nat) (s : State) (corrected fetched : List Nat := []) :
    Host.Outcome State Fault Refusal :=
  .next (s.compose w doneAt poison corrected fetched)

/-! ## Loading chains (R74, R106, R161) -/

/-- An error found when a back-buffer word is read is counted, and reported when uncorrectable (R106, R135). -/
def Dev.bbufFound (d : Dev) (e : BbufErr) : Dev :=
  if e.bad then (d.onEng (fun g => { g with bbUncorrectable := satInc 255 g.bbUncorrectable })).send 0xCE 0x17 1 e.p
  else (d.onEng (fun g => { g with bbCorrected := satInc 65535 g.bbCorrected })).raise 56

/-- The same, of a word of the frame in composition: an uncorrectable one is read as 0x0000 from then on (R106). -/
def Dev.bbufError (d : Dev) (e : BbufErr) : Dev :=
  (if e.bad then d.onEng (fun g => { g with bbuf := SMap.set 0 g.bbuf e.p 0 }) else d).bbufFound e

/-- The drive word of a pixel as stage 7 passes it (R74). -/
def Dev.stage7 (d : Dev) (p : Nat) : Nat := clampWord (d.kOf (tileOf p)) (SMap.get 0 d.eng.bbuf p).toNat

/-- Drive payload `k` (R129). -/
def Dev.drivePayload (d : Dev) (k : Nat) : Bytes :=
  (List.range 1024).flatMap (fun i =>
    let p := 1024 * k + i
    toBe 2 (if d.isDark (tileOf p) then 0 else d.stage7 p))

/-- Payloads of a DRIVE pass (R36, R38). -/
def Dev.driveData (d : Dev) (t k : Nat) : List (BitVec 16) :=
  (List.range chainLen).map (fun j => BitVec.ofNat 16 (d.stage7 (pixelOnChain t k j)))

/-- All chains of a tile row, as (tile, chain). -/
def rowChains (ty : Nat) : List (Nat × Nat) := (tileRow ty).flatMap (fun t => (List.range 4).map (fun k => (t, k)))

/-- DRIVE passes start on all chains of tile row `ty`. -/
def State.driveRow (s : State) (ty : Nat) (hdr : List HdrErr) (bb : List BbufErr) : State :=
  let s := s.onDev (fun d => (bb.filter (fun e => decide (e.p < nPixels) && tileOf e.p / 24 == ty)).foldl (fun d e => d.bbufError e) d)
  let s := (rowChains ty).foldl (fun s c => s.startPass c.1 c.2 .drive (s.dev.driveData c.1 c.2) (hdrFlip hdr c.1 c.2)) s
  s.onDev (fun d => (d.onComp (fun c => { c with loaded := c.loaded ||| (1#8 <<< ty) })).chainEnded ty)

/-- Row `ty` may be loaded: composed, not yet loaded, and not abandoned for a repeat (R90, R163). -/
def Dev.mayLoad (d : Dev) (ty : Nat) : Bool :=
  decide (ty < 8) && d.comp.content != .none && d.comp.rowDone ty && !d.comp.loaded.getLsbD ty && !d.frm.repeatDue

/-- CHAIN_DRIVE. -/
def State.chainDrive (s : State) (w : Work) (hdr : List HdrErr) (bb : List BbufErr) : State :=
  match w with
  | .entry i =>
    let ty := bits (s.dev.entry i).operand 0 3
    if s.entryReady i 2 && s.dev.tableRuns && s.dev.mayLoad ty then
      (s.onDev (fun d => d.begin i none)).driveRow ty hdr bb
    else s
  | .rebuild ty _ => if s.running && s.dev.frm.suspended && s.dev.mayLoad ty then s.driveRow ty hdr bb else s

/-- CHAIN_DRIVE. -/
def execChainDrive (w : Work) (hdr : List HdrErr) (bb : List BbufErr) (s : State) : Host.Outcome State Fault Refusal :=
  .next (s.chainDrive w hdr bb)

/-! ## Auxiliary passes (R162, R174) -/

/-- The first need that exists on a chain. -/
def Dev.auxNeed (d : Dev) (t k : Nat) : Option Purpose :=
  let x := d.tile t
  if x.isoDue.getLsbD k then some .isolate
  else if d.arr.roundOn && x.readDue.getLsbD k then some .readback
  else if x.trimDue.getLsbD k then some .trim
  else none

/-- Start the auxiliary pass of one chain, if it needs one. -/
def State.auxChain (s : State) (t k : Nat) (flip : BitVec 20) : State :=
  match s.dev.auxNeed t k with
  | some .isolate => s.startPass t k .isolate (s.dev.isolateData t k) flip
  | some .readback => s.startPass t k .readback readData flip
  | some .trim => s.startPass t k .trim (s.trimData t k) flip
  | _ => s

/-- CHAIN_AUX: one auxiliary pass a chain and frame (R42, R162). In a rebuild the pass of one chain runs directly after its DRIVE
pass has applied, unless the row's entry had begun before the give-up (R174). -/
def State.chainAux (s : State) (w : Work) (hdr : List HdrErr) : State :=
  match w with
  | .entry i =>
    let ty := bits (s.dev.entry i).operand 0 3
    if s.entryReady i 3 && s.dev.tableRuns && decide (ty < 8) then
      let s := s.onDev (fun d => d.begin i none)
      let s := (rowChains ty).foldl (fun s c => s.auxChain c.1 c.2 (hdrFlip hdr c.1 c.2)) s
      s.onDev (fun d => (d.onFrm (fun f => { f with auxDone := f.auxDone ++ (rowChains ty).map (fun c => c.1 * 4 + c.2) })).chainEnded ty)
    else s
  | .rebuild t k =>
    if s.running && s.dev.frm.suspended && decide (t < 192) && decide (k < 4) && (s.dev.tile t).drive.getLsbD k &&
        !s.dev.frm.auxDone.contains (t * 4 + k) then
      (s.auxChain t k (hdrFlip hdr t k)).onDev (fun d => d.onFrm (fun f => { f with auxDone := f.auxDone ++ [t * 4 + k] }))
    else s

/-- CHAIN_AUX. -/
def execChainAux (w : Work) (hdr : List HdrErr) (s : State) : Host.Outcome State Fault Refusal := .next (s.chainAux w hdr)

/-- PASS_APPLY: the end of clock 1,409 of the pass on a chain. Chains stop when the leading light is lit and in PARK. -/
def execPassApply (tile chain : Nat) (err : PassErr) (s : State) : Host.Outcome State Fault Refusal :=
  .next (s.endPass tile chain err)

/-! ## Deadlines (R172 to R174, R176) -/

/-- A tile row has an auxiliary need left (R162). -/
def Dev.rowNeeds (d : Dev) (ty : Nat) : Bool :=
  (rowChains ty).any (fun c => !d.isDark c.1 && (d.auxNeed c.1 c.2).isSome)

/-- COUNT. -/
def Dev.scanCount (d : Dev) : Nat := bits (d.scanWord 8) 0 5
/-- ENGINE of entry `e`. -/
def Dev.scanCe3 (d : Dev) (e : Nat) : Bool := bit (d.scanWord (10 + 4 * e)) 29

/-- The entries of an engine in table order (R345). -/
def Dev.ownEntries (d : Dev) (ce3 : Bool) : List Nat := (List.range d.scanCount).filter (fun e => d.scanCe3 e == ce3)

/-- The entry has nothing to do and is idle: a SCAN entry of an engine without entries, RETRAIN and REFRESH in DRAM-less mode (R177, R258,
R345). -/
def Dev.idles (d : Dev) (i : Nat) : Bool :=
  let e := d.entry i
  (e.act == 6 && (d.ownEntries (bit e.operand 24)).isEmpty) || ((e.act == 4 || e.act == 8) && d.memc.dramLess)

/-- The entry has missed its deadline (R172). -/
def Dev.missed (d : Dev) (i : Nat) : Bool :=
  let e := d.entry i
  let late (o : Option Nat) : Bool := match o with | some c => decide (e.deadline < c) | none => true
  if d.idles i then false
  else if d.frm.stopped.contains i then true
  else match d.frm.begun.find? (fun b => b.1 == i) with
  | some b => late b.2
  | none =>
    if e.act = 3 then d.rowNeeds (bits e.operand 0 3)
    else if e.act = 4 then d.memc.chans.any (fun c => decide (0 < Nat.min c.debt (bits e.operand 0 4)))
    else true

/-- Slack of an entry at its deadline, 0 for a miss (R176). -/
def Dev.slackOf (d : Dev) (i : Nat) (miss : Bool) : Nat :=
  match d.frm.begun.find? (fun b => b.1 == i) with
  | some (_, some c) => if miss then 0 else (d.entry i).deadline - c
  | _ => 0

/-- Record a miss (R173). -/
def Dev.recordMiss (d : Dev) (i : Nat) : Dev :=
  let first := !d.frm.missSent
  let d := d.onFrm (fun f => { f with
    misses := satInc 65535 f.misses, missEntry := i, missAct := (d.entry i).act % 16, missTick := f.tick, missSent := true })
  let d := d.raise 62
  if first then d.send 0xCD 0x15 1 (d.frm.mode * 4096 + i) else d

/-- ENTRY_DEADLINE. -/
def State.entryDeadline (s : State) (i : Nat) : State :=
  let d := s.dev
  let act := (d.entry i).act
  if !(s.running && !d.frm.transitional && d.inMode i && !d.frm.judged.contains i) then s
  else if d.frm.suspended && (act == 1 || act == 2 || act == 3 || act == 7) then s
  else
    let miss := d.missed i
    let sl := d.slackOf i miss
    let d := d.onFrm (fun f => { f with
      judged := f.judged ++ [i]
      slackNow := if act = 1 ∨ act = 2 then some (match f.slackNow with | some x => Nat.min x sl | none => sl) else f.slackNow })
    { s with dev := if miss then d.recordMiss i else d }

/-- ENTRY_DEADLINE. -/
def execEntryDeadline (i : Nat) (s : State) : Host.Outcome State Fault Refusal := .next (s.entryDeadline i)

end Sys2Proof.Machine
end

