-- ==== Sys2Proof/Machine/Traffic.lean ====
section
/-! DEFINITION. Fairway frames (R211 to R241): checking a received frame, credits and lost frames, VC1 writes and
generations, the replies and the witness stream that are sent. -/

namespace Sys2Proof.Machine

/-! ## Frames (R212 to R217) -/

/-- CRC-32 of a frame's first 2,072 bytes with its fold word (R215). -/
def frameCrc (fold : Nat) (bs : Bytes) : Nat :=
  crcCalc 32 0x04C11DB7 0xFFFFFFFF true true 0xFFFFFFFF (toBe 4 (fold % 2 ^ 32) ++ bs)

/-- Header fields (R213). -/
def fType (f : Bytes) : Nat := beNat (f.take 1)
def fFlags (f : Bytes) : Nat := beNat (slice f 1 1)
def fEnc (f : Bytes) : Bool := bit (fFlags f) 0
def fLen (f : Bytes) : Nat := beNat (slice f 2 2)
def fSeq (f : Bytes) : Nat := beNat (slice f 4 2)
def fVcseq (f : Bytes) : Nat := beNat (slice f 6 1)
/-- `n` bytes of the type fields from byte `i` of the frame. -/
def fField (f : Bytes) (i n : Nat) : Nat := beNat (slice f i n)
def fPayload (f : Bytes) : Bytes := slice f 16 2048
def fTag (f : Bytes) : Bytes := slice f 2064 8

/-- The frame type is numbered (R214). A reserved TYPE is neither numbered nor unnumbered there, and the manual gives no fold word for
step 1: here it is 0, as for the unnumbered types (DEDUCED, log 148). -/
def numbered (ty : Nat) : Bool := ty == 1 || ty == 2 || ty == 4 || ty == 5

/-- The frame number that SEQ spells, next number acceptable being `next` (R216). -/
def reconstruct (next seq : Nat) : Nat := next + (seq + 65536 - next % 65536) % 65536

/-- The CRC matches under fold word `fold` (R215). -/
def crcMatches (f : Bytes) (fold : Nat) : Bool :=
  f.length == 2076 && frameCrc fold (f.take 2072) == beNat (f.drop 2072)

/-- The nonce of a direction (R217): 1 from the host, 2 to the host. -/
def frameNonce (dir s : Nat) : Bytes := toBe 4 dir ++ toBe 4 0 ++ toBe 4 s

/-- A frame sealed: header and payload as sent and the first 8 bytes of the tag (R217). -/
def sealFrame (key : Bytes) (dir s : Nat) (enc : Bool) (header payload : Bytes) : Bytes × Bytes :=
  if enc then
    let r := Config.gcmSeal key (frameNonce dir s) header payload
    (header ++ r.1, r.2.take 8)
  else (header ++ payload, (Config.gcmSeal key (frameNonce dir s) (header ++ payload) []).2.take 8)

/-- The payload of a host frame under a key, if its tag passes. -/
def openFrame (key : Bytes) (s : Nat) (f : Bytes) : Option Bytes :=
  let plain := if fEnc f then Config.gcmPlain key (frameNonce 1 s) (f.take 16) (fPayload f) else fPayload f
  if (sealFrame key 1 s (fEnc f) (f.take 16) plain).2 = fTag f then some plain else none

/-- ENC that a session's mode fixes for a frame type (R361). -/
def encFor (mode ty : Nat) : Bool := if ty = 2 then decide (1 ≤ mode) else mode == 2

/-- A reserved bit or field of a host frame is not 0 (R8, R212 to R214, R359): FLAGS but ENC, byte 7, and of the frames that carry
no VC data SEQ, byte 6 and TAG; of every type but VC1 bytes 10 to 15; of a HELLO_H bytes 1 to 3 of its payload. -/
def badReserved (f : Bytes) : Bool :=
  decide (2 ≤ fFlags f) || fField f 7 1 != 0 ||
  (!numbered (fType f) && (fSeq f != 0 || fVcseq f != 0 || beNat (fTag f) != 0)) ||
  (fType f != 2 && fField f 10 6 != 0) || (fType f == 3 && fField f 8 1 == 1 && fField f 17 3 != 0)

/-- Payload in clear beyond LEN is not 0 (R8, R212). -/
def badRest (f payload : Bytes) : Bool := beNat (payload.drop (fLen f)) != 0

/-- A frame format that step 2 of R218 discards, R230 included. -/
def badFormat (f : Bytes) : Bool :=
  decide (3 < fType f) || decide (2048 < fLen f) || badReserved f || (!fEnc f && badRest f (fPayload f)) ||
  (fType f == 2 && (fLen f == 0 || fLen f % 32 != 0 || decide (4 ≤ fField f 9 1) || fField f 12 4 % 32 != 0))

/-! ## Discards (R218) -/

/-- Failures at step 1 in the 64 ms window (R218). -/
def Dev.crcFailed (d : Dev) : Dev :=
  let w := (d.now - d.timeZero) / 12800000
  let n := if d.fw.crcWindowNo = w then d.fw.crcWindow + 1 else 1
  let d := d.onFw (fun f => { f with crcFail := satInc 65535 f.crcFail, crcWindow := n, crcWindowNo := w })
  if n = 65 then d.send 0xC5 0x21 0 n else d

/-- Discard a frame at a step; `arg` is s at step 4 and the channel at step 5. -/
def Dev.discardFrame (d : Dev) (step_ arg : Nat) : Dev :=
  let d := d.onFw (fun f => { f with discards := f.discards + 1, discardStep := step_ })
  if step_ = 1 then d.crcFailed.raise 30
  else if step_ = 2 then (d.onFw (fun f => { f with format := satInc 255 f.format })).raise 30
  else if step_ = 3 then (d.onFw (fun f => { f with noSession := satInc 255 f.noSession })).raise 30
  else if step_ = 4 then ((d.onFw (fun f => { f with tagFail := satInc 65535 f.tagFail })).raise 31).send 0xC8 0x23 1 arg
  else ((d.onFw (fun f => { f with creditViol := satInc 255 f.creditViol })).raise 32).send 0xC5 0x22 1 arg

/-- What the checks of R218 make of a frame. -/
inductive Checked where
  /-- Discarded at a step. -/
  | bad (step_ arg : Nat)
  /-- Passed; the payload in clear. -/
  | good (payload : Bytes)
  /-- Numbered, passed steps 1 to 4 under the keys in force (false) or the previous ones (true), with its number. -/
  | numberedGood (payload : Bytes) (old : Bool) (s : Nat)

/-- A numbering under which the CRC of a numbered frame matches: number, key, mode, previous keys. No number reaches 2^32
(R216, R364). -/
def Dev.numberings (d : Dev) (f : Bytes) : List (Nat × Bytes × Nat × Bool) :=
  let new := (reconstruct d.fw.rxNext (fSeq f), (d.ses.keys.map (·.toUnit)).getD [], d.ses.mode, false)
  let old := match d.ses.oldKeys with
    | some k => [(reconstruct d.fw.rxNextOld (fSeq f), k.toUnit, d.ses.oldMode, true)]
    | none => []
  (new :: old).filter (fun n => decide (n.1 < 2 ^ 32) && crcMatches f n.1)

/-- Step 2 again, for what only the payload in clear shows (R8, R212; DEDUCED, log 50). -/
def Checked.clear (f : Bytes) : Checked → Checked
  | .numberedGood p old s => if badRest f p then .bad 2 0 else .numberedGood p old s
  | c => c

/-- Steps 1 to 4 of R218 (R362 for the overlap of keys). An IDLE or SESSION frame with ENC breaks every mode (R361, log 50). -/
def Dev.checkFrame (d : Dev) (f : Bytes) : Checked :=
  let ty := fType f
  if numbered ty then
    match d.numberings f with
    | [] => .bad 1 0
    | n :: ns =>
      if badFormat f then .bad 2 0
      else if !d.ses.up then .bad 3 0
      else
        let pass (x : Nat × Bytes × Nat × Bool) : Option Checked :=
          if fEnc f == encFor x.2.2.1 ty then (openFrame x.2.1 x.1 f).map (fun p => .numberedGood p x.2.2.2 x.1) else none
        (((n :: ns).findSome? pass).getD (.bad 4 n.1)).clear f
  else if !crcMatches f 0 then .bad 1 0
  else if badFormat f then .bad 2 0
  else if fEnc f then .bad 4 0
  else .good (fPayload f)

/-! ## Credits (R220 to R224, R469) -/

/-- A freed VC0 credit is returned, but for what HOLD0 withholds. -/
def Fw.freeVc0 (f : Fw) (n hold0 : Nat) : Fw :=
  let k := Nat.min n (hold0 - f.kept0)
  { f with kept0 := f.kept0 + k, limit0 := (f.limit0 + (n - k)) % 256 }

/-- A receive frame slot begins (R211, R223). -/
def Dev.rxSlot (d : Dev) : Dev :=
  (d.onLink (fun l => { l with rxSlots := l.rxSlots + 1, rxSyms := l.rxSyms.drop 2076 })).onFw (fun f =>
    ({ f with rises := (0 :: f.rises).take 8 } : Fw).returnVc1 d.test.hold1)

/-- VC0 frames before the one numbered `next` − 1 are lost (R222, R225). -/
def Dev.account0 (d : Dev) (upTo next : Nat) : Dev :=
  let lost := (upTo + 256 - d.fw.exp0) % 256
  let d := d.onFw (fun f => { f with exp0 := next % 256 })
  if lost = 0 then d
  else
    let d := d.onFw (fun f => ({ f with lost0 := satAdd 65535 f.lost0 lost } : Fw).freeVc0 lost d.test.hold0)
    if d.fw.partPkt.isSome then
      (d.onFw (fun f => { f with partPkt := none, partials := satInc 65535 f.partials })).raise 35
    else d

/-- VC1 frames are lost (R222, R231). -/
def Dev.account1 (d : Dev) (upTo next : Nat) : Dev :=
  let lost := (upTo + 256 - d.fw.exp1) % 256
  let d := d.onFw (fun f => { f with exp1 := next % 256 })
  if lost = 0 then d
  else
    (d.onFw (fun f => { f with
      lost1 := satAdd 65535 f.lost1 lost, bufs := SMap.mapAll {} (fun _ b => b.lose) f.bufs })).freeVc1 lost

/-- VCSEQ lies in the window granted (R221). -/
def inWindow (limit q bufs : Nat) : Bool :=
  let x := (limit + 256 - q) % 256
  decide (1 ≤ x) && decide (x ≤ bufs)

/-! ## VC1 writes and generations (R228 to R233) -/

/-- A write of generation `wgen` to buffer `b` is refused BUSY (R233). -/
def Dev.bufferBusy (d : Dev) (b wgen : Nat) : Bool :=
  let named (c : Commit) : Bool :=
    c.deps.all (fun dep => match (nth {} d.eng.slots dep.1).staged with
      | some w => !names w b || (dep.2.1 == wgen && !dep.2.2)
      | none => true)
  d.tokens b != 0 &&
    !(!d.inForce b && (d.frm.commits.filter (d.refers b)).all named && !d.fw.holds b wgen)

/-- The reason for which a VC1 write is refused: 1 BOUNDS, 0 BUSY; in DRAM-less mode only FB0 and FB1 are written (R230,
R233, R258, R237). Where R230 and R233 both refuse a write, the manual gives no order: here BOUNDS is judged first (DEDUCED,
log 147). -/
def Dev.writeRefusal (d : Dev) (b wgen off len : Nat) : Option Nat :=
  if !d.declared b || decide (d.bufSize b < off + len) ||
      (d.memc.dramLess && b != d.fb 0 && b != d.fb 1) then some 1
  else if d.bufferBusy b wgen then some 0
  else none

/-- The generation bookkeeping of one VC1 frame (R231); the second result says that the frame belongs to a generation. A second
FIRST frame with the WGEN in progress starts that generation anew (DESIGN CHOICE, log 129). -/
def Buf.frame (x : Buf) (first last refused : Bool) (wgen q : Nat) : Buf × Bool :=
  if first then ({ x with gen := some wgen, first := q, gotLast := last, lost := refused }, true)
  else if x.gen = some wgen then ({ x with gotLast := x.gotLast || last, lost := x.lost || refused }, true)
  else if refused then (x, false)
  else ({ x with gen := none, gotLast := false, lost := false }, false)

/-- A VC1 frame that has passed R218: admitted and queued for layer memory, or refused (R228 to R233). -/
def Dev.vc1Write (d : Dev) (f : Bytes) (payload : Bytes) : Dev :=
  let b := fField f 8 1
  let wf := fField f 9 1
  let wgen := fField f 10 2
  let off := fField f 12 4
  let len := fLen f
  let q := fVcseq f
  let refusal := d.writeRefusal b wgen off len
  let r := (SMap.get {} d.fw.bufs b).frame (bit wf 0) (bit wf 1) refusal.isSome wgen q
  let d := d.onFw (fun f => { f with bufs := SMap.set {} f.bufs b r.1 })
  match refusal with
  | some why =>
    let d := if why = 0 then (d.onFw (fun f => { f with busy := satInc 65535 f.busy })).raise 33
      else (d.onFw (fun f => { f with bounds := satInc 65535 f.bounds })).raise 34
    (d.reply 0x84 [packNat [(b, 0, 8), (wgen, 8, 16), (q, 24, 8)], why]).freeVc1 1
  | none =>
    d.onFw (fun f => { f with
      held1 := f.held1 + 1, nextId := f.nextId + 1
      writes := f.writes ++ [{ buf := b, addr := d.bufBase b + off, data := payload.take len, inFlight := 0, owes := true
                               gen := if r.2 then some wgen else none, id := f.nextId }] })

/-- Every frame of the buffer's generation is accepted and written (R231). -/
def Dev.generationDone (d : Dev) (b : Nat) : Bool :=
  let x := SMap.get {} d.fw.bufs b
  x.gen.isSome && x.gotLast && !x.lost && !d.fw.writes.any (fun w => w.buf == b && w.gen == x.gen)

/-- GENERATION_COMPLETE: the generation becomes the buffer's last complete one, and READY is sent, while LRX runs (R17, R231, R237). -/
def execGenerationComplete (buf : Nat) (s : State) : Host.Outcome State Fault Refusal :=
  .next (s.onDev (fun d =>
    if d.generationDone buf && d.fairwayOn then
      let g := (SMap.get {} d.fw.bufs buf).gen.getD 0
      (d.onFw (fun f => { f with bufs := SMap.upd {} f.bufs buf (fun x =>
        { x with gen := none, gotLast := false, first := 0, ready := g, hasReady := true }) })).reply 0x85 [packNat [(buf, 0, 8), (g, 8, 16)]]
    else d))

/-! ## Received frames -/

/-- A numbered frame is accepted: LAST, and the end of the overlap of keys (R216, R362). A discarded frame has no such effect
(R218). -/
def Dev.passedTag (d : Dev) (old : Bool) (s : Nat) : Dev :=
  if old then d.onFw (fun f => { f with rxNextOld := s + 1 })
  else (d.onFw (fun f => { f with rxNext := s + 1, rxNextOld := 0 })).onSes (fun x => { x with oldKeys := none, oldMode := 0 })

/-- The frame of the next receive slot: the link symbols that the blocks have brought, or `f` as given where they have not brought
it whole (R211, log 16). -/
def Link.frontFrame (l : Link) (f : Bytes) : Bytes := if 2076 ≤ l.rxSyms.length then l.rxSyms.take 2076 else f

/-- A frame arrives that is of type `want` if it passes the checks of steps 1 and 2; one of another type is another event. `k`
is what its type does. -/
def State.frameIn (s : State) (f : Bytes) (want : Nat) (k : Dev → Bytes → Dev) : State :=
  if !s.dev.rxOn then s
  else match s.dev.checkFrame f with
    | .bad n arg => s.onDev (fun d => d.rxSlot.discardFrame n arg)
    | .good p => if fType f = want then s.onDev (fun d => k d.rxSlot p) else s
    | .numberedGood p old sn =>
      if fType f ≠ want then s
      else s.onDev (fun d =>
        let d := d.rxSlot
        let v := want - 1
        let q := fVcseq f
        if !(if v = 0 then inWindow d.fw.limit0 q 8 else inWindow d.fw.limit1 q 32) then d.discardFrame 5 v
        else
          let d := (d.passedTag old sn).onFw (fun f => { f with accepted := satInc 0xFFFFFFFF f.accepted })
          k (if v = 0 then d.account0 q (q + 1) else d.account1 q (q + 1)) p)

/-- An IDLE frame: SENT0 and SENT1 account for lost frames (R222). -/
def State.idleIn (s : State) (f : Bytes) : State :=
  s.frameIn f 0 (fun d _ => (d.account0 (fField f 8 1) (fField f 8 1)).account1 (fField f 9 1) (fField f 9 1))

/-- IDLE_FRAME. `blocks` are the blocks of link symbols since those counted before, whose coding violations count and whose symbols
the link takes (R188, R191, log 16). -/
def execIdleFrame (frame : Bytes) (s : State) (blocks : List (Nat × Line) := []) : Host.Outcome State Fault Refusal :=
  .next (let s := s.onDev (fun d => d.symbolBlocks blocks)
         s.idleIn (s.dev.link.frontFrame frame))

/-- A VC0 frame: its packets are processed in order; its receive buffer is occupied until VC0_BUFFER_FREE (R220, R225). -/
def State.vc0In (s : State) (f : Bytes) : State :=
  s.frameIn f 1 (fun d p =>
    (d.onFw (fun w => { w with held0 := w.held0 + 1 })).vc0Payload (p.take (fLen f)) (fField f 8 2))

/-- VC0_FRAME. -/
def execVc0Frame (frame : Bytes) (s : State) : Host.Outcome State Fault Refusal :=
  .next (s.vc0In (s.dev.link.frontFrame frame))

/-- VC0_BUFFER_FREE. -/
def execVc0BufferFree (s : State) : Host.Outcome State Fault Refusal :=
  .next (s.onDev (fun d =>
    if d.fw.held0 = 0 || !d.fairwayOn then d
    else d.onFw (fun f => ({ f with held0 := f.held0 - 1 } : Fw).freeVc0 1 d.test.hold0)))

/-- VC1_FRAME. -/
def execVc1Frame (frame : Bytes) (s : State) : Host.Outcome State Fault Refusal :=
  .next (let f := s.dev.link.frontFrame frame
         s.frameIn f 2 (fun d p => d.vc1Write f p))

/-- LINK_THROTTLE: a 64 µs window ends; one in which credits were held back is counted (R166). -/
def execLinkThrottle (s : State) : Host.Outcome State Fault Refusal :=
  .next (s.onDev (fun d =>
    if !d.fairwayOn then d
    else
      let held := d.fw.throttled
      let d := d.onFw (fun f => { f with vc1Bytes := 0, throttled := false })
      if held then (d.onFrm (fun f => { f with throttle := satInc 65535 f.throttle })).raise 70 else d))

/-! ## Transmission (R213, R217, R238, R239) -/

/-- A frame to the host: type, ENC, LEN, number, type fields and payload; numbered frames carry a tag. -/
def State.frameOut (s : State) (ty len sn : Nat) (fields payload : Bytes) : Bytes :=
  let d := s.dev
  let enc := numbered ty && encFor d.ses.mode ty
  let header := toBe 1 ty ++ toBe 1 (b1 enc + 2 * b1 s.lat.perturbed) ++ toBe 2 len ++
    toBe 2 (if numbered ty then sn % 65536 else 0) ++ toBe 1 d.fw.limit0 ++ toBe 1 d.fw.limit1 ++
    (fields ++ List.replicate (8 - fields.length) 0)
  let body := payload ++ List.replicate (2048 - payload.length) 0
  let sealed := if numbered ty then sealFrame ((d.ses.keys.map (·.toHost)).getD []) 2 sn enc header body
    else (header ++ body, List.replicate 8 0)
  let all := sealed.1 ++ sealed.2
  all ++ toBe 4 (frameCrc (if numbered ty then sn else 0) all)

/-- Transmit a numbered frame under the keys in force. -/
def State.sendNumbered (s : State) (ty len : Nat) (fields payload : Bytes) : State :=
  let f := s.frameOut ty len s.dev.fw.txNext fields payload
  s.onDev (fun d => (d.onFw (fun w => { w with txFrame := f, txNext := w.txNext + 1 })).onLink (fun l => l.sendFrame f))

/-- Transmit an unnumbered frame. -/
def State.sendPlain (s : State) (ty len : Nat) (fields payload : Bytes) : State :=
  let f := s.frameOut ty len 0 fields payload
  s.onDev (fun d => (d.onFw (fun w => { w with txFrame := f })).onLink (fun l => l.sendFrame f))

/-- Frame slots go to the host; until START ends the transmitters are in electrical idle (R397). -/
def Dev.txOn (d : Dev) : Bool := d.rxOn && d.link.txSet != 0 && !d.inStart

/-- A numbered frame may be sent (R216, R239). -/
def Dev.mayNumber (d : Dev) : Bool := d.ses.up && decide (d.fw.txNext < 2 ^ 32)

/-- A witness payload waits: a drive payload of the frame lit, its statistics, or the next drive payload of a tile row whose
clamp factors are known, of a composition that has not been abandoned for a repeat (R13, R130, R132). -/
def Dev.witnessWaits (d : Dev) : Bool :=
  d.wit.running && (!d.wit.late.isEmpty || d.wit.statsDue ||
    (d.comp.content != .none && !d.frm.repeatDue && decide (d.wit.next < 1056) && d.comp.rowDone (d.wit.next / 132)))

/-- Reply packets that fit one frame after `used` bytes, and the rest (R237). -/
def fitReplies : Nat → List Bytes → List Bytes × List Bytes
  | _, [] => ([], [])
  | used, p :: ps =>
    if used + p.length ≤ 2048 then let r := fitReplies (used + p.length) ps
                                   (p :: r.1, r.2)
    else ([], p :: ps)

/-- A REPLY frame may go in this slot (R238). -/
def Dev.replyReady (d : Dev) : Bool :=
  d.mayNumber && (!d.fw.replies.isEmpty || d.fw.overflow != 0) && (!d.witnessWaits || decide (31 ≤ d.fw.sinceReply))

/-- A WITNESS frame may go in this slot (R204, R216, R239). -/
def Dev.witnessReady (d : Dev) : Bool := d.txOn && d.link.txSet == 3 && d.mayNumber && d.witnessWaits

/-- REPLY_FRAME: a free transmit slot carries the replies that wait, or IDLE where nothing is to be sent; a slot that a witness payload
can have is no free one (R238). The packets of a REPLY frame end at LEN: R237 lists PAD (0x80) and gives no occasion for it, and none is
sent (DESIGN CHOICE, log 158). -/
def execReplyFrame (s : State) : Host.Outcome State Fault Refusal :=
  .next (if !s.dev.txOn || (s.dev.witnessReady && !s.dev.replyReady) then s
    else if s.dev.replyReady then
      let ov := if s.dev.fw.overflow = 0 then [] else packet 0x88 (word32 s.dev.fw.overflow)
      let r := fitReplies ov.length s.dev.fw.replies
      let body := ov ++ r.1.flatten
      (s.sendNumbered 4 body.length [] body).onDev (fun d =>
        d.onFw (fun f => { f with replies := r.2, overflow := 0, sinceReply := 0 }))
    else (s.sendPlain 0 0 [] []).onDev (fun d => d.onFw (fun f => { f with sinceReply := Nat.min 32 (f.sinceReply + 1) })))

/-- One bit a tile, tile t at byte t / 8, bit 7 − t mod 8 (R131). -/
def tileBits (ts : List Nat) : Bytes :=
  (List.range 24).map (fun i => BitVec.ofNat 8 (sumNat ((List.range 8).map (fun j => if ts.contains (8 * i + j) then 2 ^ (7 - j) else 0))))

/-- The statistics payload (R131). -/
def Stats.bytes (x : Stats) : Bytes :=
  toBe 4 x.tick ++ toBe 4 x.flags ++ toBe 4 x.gen ++ toBe 4 x.demand ++ toBe 4 x.delivered ++
  toBe 4 (packNat [(x.g, 0, 13), (x.clamped, 16, 8)]) ++ toBe 4 x.tloss ++ toBe 4 x.tquads ++ toBe 4 x.clip ++
  toBe 4 (packNat [(x.factor, 0, 13), (b1 x.blend.isSome, 16, 1), (x.blend.getD 0, 17, 3)]) ++
  (List.range 16).flatMap (fun n => toBe 1 (nth 0 x.stale n)) ++ toBe 2 x.enabled ++ toBe 2 0 ++
  tileBits x.repeated ++ tileBits x.dark ++ List.replicate 1940 0

/-- Type fields of a WITNESS frame (R239). -/
def witnessFields (tick payload gen : Nat) : Bytes := toBe 4 tick ++ toBe 2 payload ++ toBe 1 gen ++ toBe 1 0

/-- A back-buffer word found bad when drive payload `k` of the frame lit is read goes out as 0x0000 (R106). -/
def zeroWord (k : Nat) (bs : Bytes) (e : BbufErr) : Bytes :=
  if e.bad then setNth (setNth bs (2 * (e.p - 1024 * k)) 0) (2 * (e.p - 1024 * k) + 1) 0 else bs

/-- Errors that fall in drive payload `k`. -/
def inPayload (k : Nat) (bb : List BbufErr) : List BbufErr := bb.filter (fun e => e.p / 1024 == k)

/-- FLAGS[7] of the statistics is the perturbation flag as it stands when the payload goes out (R131, R371). -/
def Stats.marked (x : Stats) (perturbed : Bool) : Stats :=
  { x with flags := x.flags / 256 * 256 + x.flags % 128 + 128 * b1 perturbed }

/-- One witness frame more (R240). -/
def Dev.countWitness (d : Dev) : Dev :=
  (d.onWit (fun w => { w with frames := satInc 0xFFFFFFFF w.frames })).onFw (fun f => { f with
    sinceReply := Nat.min 32 (f.sinceReply + 1) })

/-- Send a drive payload of the frame that is lit. -/
def State.sendLate (s : State) (k : Nat) (bs : Bytes) (bb : List BbufErr) : State :=
  let es := inPayload k bb
  let s := s.onDev (fun d => es.foldl (fun d e => d.bbufFound e) d)
  let x := s.dev.wit.stats
  (s.sendNumbered 5 2048 (witnessFields x.tick k x.gen) (es.foldl (zeroWord k) bs)).onDev (fun d =>
    d.countWitness.onWit (fun w => { w with late := w.late.drop 1 }))

/-- Send the statistics of the frame that is lit. -/
def State.sendStats (s : State) : State :=
  let x := s.dev.wit.stats.marked s.lat.perturbed
  (s.sendNumbered 5 2048 (witnessFields x.tick 1056 x.gen) x.bytes).onDev (fun d =>
    d.countWitness.onWit (fun w => { w with statsDue := false, lastTick := x.tick }))

/-- Send the next drive payload of the frame in composition. -/
def State.sendDrive (s : State) (bb : List BbufErr) : State :=
  let k := s.dev.wit.next
  let s := s.onDev (fun d => (inPayload k bb).foldl (fun d e => d.bbufError e) d)
  (s.sendNumbered 5 2048 (witnessFields ((s.dev.comp.tick + 1) % 2 ^ 32) k s.dev.comp.gen) (s.dev.drivePayload k)).onDev (fun d =>
    d.countWitness.onWit (fun w => { w with next := k + 1 }))

/-- WITNESS_FRAME: the drive payloads of the frame lit that are left, its statistics, then the next drive payload of the frame in
composition (R13, R129, R130); `bb` are the errors found when back-buffer words are read for it (R106). -/
def execWitnessFrame (s : State) (bb : List BbufErr := []) : Host.Outcome State Fault Refusal :=
  .next (
    let d := s.dev
    if !d.witnessReady then s
    else match d.wit.late with
      | (k, bs) :: _ => s.sendLate k bs bb
      | [] => if d.wit.statsDue then s.sendStats else s.sendDrive bb)

end Sys2Proof.Machine
end

