-- ==== Sys2Proof/Machine/Memctl.lean ====
section
/-! DEFINITION. The layer-memory controller (R242 to R261): address mapping, ports and credits, queues and their order,
refresh, retraining, ECC and the fallback copy. -/

namespace Sys2Proof.Machine

/-! ## Addresses (R243, R244) -/

/-- Channel, row and bank of an address. -/
def chOf (a : Nat) : Nat := a / 32 % 2
def pageOf (a : Nat) : Nat := a / 64 / 56
def rowOf (a : Nat) : Nat := pageOf a / 8

/-- The data granule within its page, and its first byte there. -/
def colGranule (a : Nat) : Nat := a / 64 - 56 * pageOf a
def colByte (a : Nat) : Nat := 32 * colGranule a

/-- The page byte that holds the check byte of word `i` of a data granule, and the check granule it lies in: 7 a page behind the 56
data granules (R243). -/
def checkByte (a i : Nat) : Nat := 1792 + 4 * colGranule a + i
def checkGranule (a : Nat) : Nat := pageOf a * 7 + (checkByte a 0 - 1792) / 32

/-- The cache of check granules holds what is used and drops the one longest unused; what the cache holds changes no data (R243,
log 107). -/
def Chan.useCheck (x : Chan) (a : Nat) : Chan :=
  { x with checks := (checkGranule a :: x.checks.filter (· != checkGranule a)).take 64 }

/-- Parity of the low 15 bits. -/
def parity15 (n : Nat) : Nat := popcount 15 n % 2

/-- The bank, under the masks in force. -/
def Dev.bankOf (d : Dev) (a : Nat) : Nat :=
  sumNat ((List.range 3).map (fun k =>
    2 ^ k * ((pageOf a / 2 ^ k + parity15 (Nat.land (rowOf a) (d.bankMask k))) % 2)))

/-- A granule of layer memory (R243, R246). -/
def granule (a : Nat) : Bool := decide (a < memTop) && a % 32 == 0

/-! ## Ports (R246 to R248) -/

/-- Number of a port. -/
def portIdx : Port → Nat
  | .comp => 0 | .gain => 1 | .ledg => 2 | .fww => 3 | .scan => 4

/-- A real-time port. -/
def realTime (p : Port) : Bool := decide (portIdx p < 3)

/-- A port reads, or writes. -/
def mayRead (p : Port) : Bool := p != .fww
def mayWrite (p : Port) : Bool := p == .gain || p == .ledg || p == .fww

/-- The bytes that a port serves, by address (R245, R246): COMP layers and the symbol store, GAIN the pixel gains and the health map,
LEDG the ledger cache, FWW the host buffers, SCAN the symbol store and the pixel gains, which scan entries may name (R343). -/
def portServes (p : Port) (wr : Bool) (a : Nat) : Bool :=
  let within (lo hi : Nat) : Bool := decide (lo ≤ a) && decide (a < hi)
  match p with
  | .comp => decide (a < 0x35000000)
  | .gain => inHealthMap a || (!wr && within 0x35000000 0x35210000)
  | .ledg => within 0x37000000 0x37100000
  | .fww => decide (a < 0x34000000)
  | .scan => within 0x34000000 0x35210000

/-- A request that the port's user makes: in a direction and at an address the port serves, and on COMP and GAIN by the active beam
engine (R246). -/
def Dev.requests (d : Dev) (p : Port) (wr : Bool) (a : Nat) : Bool :=
  (if wr then mayWrite p else mayRead p) && portServes p wr a && (d.chg.engineUp || (p != .comp && p != .gain))

/-- Free credits of a port. -/
def Memc.credit (m : Memc) (p : Port) : Nat := nth 0 m.credits (portIdx p)

/-- Take or return a credit. -/
def Memc.take (m : Memc) (p : Port) : Memc := { m with credits := updNth m.credits (portIdx p) (· - 1) }
def Memc.give (m : Memc) (p : Port) : Memc := { m with credits := updNth m.credits (portIdx p) (· + 1) }

/-- The port is in panic. -/
def Memc.inPanic (m : Memc) (p : Port) : Bool := realTime p && m.panic.getLsbD (portIdx p)

/-- Delayed answers that are due are given, and their credits return (R469). -/
def Dev.answers (d : Dev) : Dev :=
  let due := d.memc.late.filter (fun a => decide (a.due ≤ d.now))
  d.onMemc (fun m =>
    let m := due.foldl (fun m a => { m.give a.port with readData := a.data, readPoison := a.poison }) m
    { m with late := m.late.filter (fun a => decide (d.now < a.due)) })

/-- The controller serves requests: trained, and neither in self-refresh nor in DRAM-less mode. -/
def Dev.dramOn (d : Dev) : Bool := d.pwr.mainOn && d.memc.trained && !d.memc.selfRefresh && !d.memc.dramLess

/-! ## Queues (R249, R250) -/

/-- A channel. -/
def Memc.chan (m : Memc) (c : Nat) : Chan := nth {} m.chans c

/-- Change a channel. -/
def Memc.onChan (m : Memc) (c : Nat) (f : Chan → Chan) : Memc := { m with chans := updNth m.chans c f }

/-- Requests in a bank queue, oldest first. -/
def Dev.bankQueue (d : Dev) (c b : Nat) : List Req := (d.memc.chan c).queue.filter (fun r => d.bankOf r.addr == b)

/-- Writes pass from the write queue to the queues of their banks in order, while there is room. -/
def Dev.drainWrites : Nat → Dev → Nat → Dev
  | 0, d, _ => d
  | n + 1, d, c =>
    match (d.memc.chan c).writeQ with
    | [] => d
    | r :: rest =>
      if (d.bankQueue c (d.bankOf r.addr)).length < 16 then
        Dev.drainWrites n (d.onMemc (fun m => m.onChan c (fun x => { x with queue := x.queue ++ [r], writeQ := rest }))) c
      else d

/-- The youngest older write to a granule (R250). -/
def Chan.forward (x : Chan) (a : Nat) : Option Req :=
  let hit (l : List Req) : Option Req := (l.filter (fun r => r.write && r.addr / 32 == a / 32)).getLast?
  match hit x.writeQ with
  | some r => some r
  | none => hit x.queue

/-- A request can enter: its port has a credit, and there is room in the write queue, or for a read a write to forward or room in
the queue of its bank (R248 to R250). -/
def Dev.canEnter (d : Dev) (r : Req) : Bool :=
  let x := d.memc.chan (chOf r.addr)
  d.memc.credit r.port != 0 &&
  (if r.write then decide (x.writeQ.length < 32)
   else (x.forward r.addr).isSome || decide ((d.bankQueue (chOf r.addr) (d.bankOf r.addr)).length < 16))

/-- A request enters: a write joins the write queue, a read is forwarded or joins the queue of its bank (R248 to R250). -/
def Dev.enter (d : Dev) (r : Req) : Dev :=
  let c := chOf r.addr
  if r.write then
    Dev.drainWrites 32 (d.onMemc (fun m => (m.take r.port).onChan c (fun x => { x with writeQ := x.writeQ ++ [r] }))) c
  else match (d.memc.chan c).forward r.addr with
    | some w => d.onMemc (fun m => { m with forwarded := satInc 65535 m.forwarded, readData := w.data, readPoison := false })
    | none => d.onMemc (fun m => (m.take r.port).onChan c (fun x => { x with queue := x.queue ++ [r] }))

/-- A port holds a request already. -/
def Memc.holdsFor (m : Memc) (p : Port) : Bool := m.held.any (fun r => r.port == p)

/-- A request arrives at its port: it enters, or the port holds it, in order (R248). -/
def Dev.request (d : Dev) (r : Req) : Dev :=
  if !d.memc.holdsFor r.port && d.canEnter r then d.enter r
  else d.onMemc (fun m => { m with held := m.held ++ [r] })

/-- Held requests enter as soon as they can, each port's in order. -/
def Dev.admitHeld : Nat → Dev → Dev
  | 0, d => d
  | n + 1, d =>
    let first (r : Req) : Bool := (d.memc.held.find? (fun x => x.port == r.port)) == some r
    match d.memc.held.find? (fun r => first r && d.canEnter r) with
    | some r => Dev.admitHeld n ((d.onMemc (fun m => { m with held := dropFirst (fun x => x.port == r.port) m.held })).enter r)
    | none => d

/-- A read request. -/
def Dev.readRequest (d : Dev) (p : Port) (a : Nat) : Dev :=
  if d.requests p false a then d.request { port := p, addr := a, write := false, data := [] } else d

/-- A write request of one granule. -/
def Dev.writeRequest (d : Dev) (p : Port) (a : Nat) (data : Bytes) (tag : Nat) : Dev :=
  if d.requests p true a then d.request { port := p, addr := a, write := true, data := padTo 32 data, tag := tag } else d

/-! ## VC1 data into layer memory (R166, R220, R258) -/

/-- The oldest frame with data left hands over a granule: it has gone `out`, its rest stays. -/
def handOver (inFlight : Nat) : List Vc1Write → List Vc1Write
  | [] => []
  | w :: ws =>
    if w.data.isEmpty then w :: handOver inFlight ws
    else { w with addr := w.addr + 32, data := w.data.drop 32, inFlight := w.inFlight + inFlight } :: ws

/-- A granule of frame `tag` has been written. -/
def Fw.granuleWritten (f : Fw) (tag : Nat) : Fw :=
  { f with writes := f.writes.map (fun w => if w.id = tag then { w with inFlight := w.inFlight - 1 } else w) }

/-- The fallback halves that serve a buffer: half n serves FBn (R258). -/
def Dev.halvesOf (d : Dev) (buf : Nat) : List Nat := (List.range 2).filter (fun n => d.fb n == buf)

/-- Write bytes into a fallback half. -/
def Memc.writeHalf (m : Memc) (h off : Nat) (bs : Bytes) : Memc :=
  let put (x : SMap Byte) : SMap Byte := (bs.zipIdx off).foldl (fun acc e => SMap.set 0 acc e.2 e.1) x
  if h = 0 then { m with half0 := put m.half0 } else { m with half1 := put m.half1 }

/-- VC1 data goes into the halves that serve its buffer; data of a buffer that none serves goes nowhere (R258, log 108). -/
def Dev.writeHalves (d : Dev) (w : Vc1Write) : Dev :=
  d.onMemc (fun m => (d.halvesOf w.buf).foldl (fun m n => m.writeHalf n (w.addr - d.bufBase w.buf) (w.data.take 32)) m)

/-- The next granule of VC1 data: to the FWW port, or in DRAM-less mode into the fallback halves. Between the fallback copy and the
tick at which the mode begins it goes to both (R259). Beyond the rate bound of the window it waits, and credits are held back
(R166); without a port credit or room it waits too (R248), and while LRX stands still Fairway receive hands over nothing (R17). -/
def Dev.fwwRequest (d : Dev) : Dev :=
  match d.fw.writes.find? (fun w => !w.data.isEmpty) with
  | none => d
  | some w =>
    if !d.fairwayOn then d
    else if d.linkRate * 64 < d.fw.vc1Bytes + 32 then d.onFw (fun f => { f with throttled := true })
    else if d.memc.dramLess then
      ((d.writeHalves w).onFw (fun f => { f with writes := handOver 0 f.writes, vc1Bytes := f.vc1Bytes + 32 })).vc1Written
    else
      let c := chOf w.addr
      if !d.dramOn || d.memc.credit Port.fww == 0 || decide (32 ≤ (d.memc.chan c).writeQ.length) then d
      else
        let d := if d.memc.copied then d.writeHalves w else d
        (d.writeRequest Port.fww w.addr (w.data.take 32) w.id).onFw (fun f =>
          { f with writes := handOver 1 f.writes, vc1Bytes := f.vc1Bytes + 32 })

/-- Answers that are due are given, and what the ports hold enters as far as it can, while MEM runs (R17, R415). -/
def Dev.servePorts (d : Dev) : Dev :=
  if !d.pwr.mainOn then d
  else
    let d := d.answers
    if d.dramOn then Dev.admitHeld 64 d else d

/-- MEM_REQUEST. An address at which layer memory has no granule does not exist (R243, R246). -/
def execMemRequest (op : MemOp) (s : State) : Host.Outcome State Fault Refusal :=
  match op with
  | .read p a =>
    if !granule a then .fault (.noGranule a)
    else .next (s.onDev (fun d => let d := d.servePorts
                                  if d.dramOn then d.readRequest p a else d))
  | .write p a data =>
    if !granule a then .fault (.noGranule a)
    else .next (s.onDev (fun d => let d := d.servePorts
                                  if d.dramOn && p != .fww then d.writeRequest p a data 0 else d))
  | .fww => .next (s.onDev (fun d => d.servePorts.fwwRequest))

/-! ## Service (R249, R247, R256, R257) -/

/-- Rank of a head request: panic, real-time, other. -/
def Memc.rank (m : Memc) (r : Req) : Nat := if m.inPanic r.port then 0 else if realTime r.port then 1 else 2

/-- The bank served next among those whose head may issue (`ready`): best rank, then the first after the last activate. -/
def Dev.pickBank (d : Dev) (c : Nat) (ready : BitVec 8) : Option Nat :=
  let last := (d.memc.chan c).lastBank
  let cand := ((List.range 8).map (fun i => (last + 1 + i) % 8)).filter (fun b => ready.getLsbD b && !(d.bankQueue c b).isEmpty)
  let rank (b : Nat) : Nat := match d.bankQueue c b with
    | r :: _ => d.memc.rank r
    | [] => 3
  match cand.find? (fun b => rank b == 0) with
  | some b => some b
  | none => match cand.find? (fun b => rank b == 1) with
    | some b => some b
    | none => cand.head?

/-- Watermark of a real-time port in bytes (R247). -/
def Dev.watermark (d : Dev) (p : Port) : Nat := d.wm (portIdx p) * (if p == .comp then 256 else 32)

/-- No all-bank refresh occupies the channel (R247, R252). -/
def Dev.chanOpen (d : Dev) (c : Nat) : Bool := decide ((d.memc.chan c).refreshUntil ≤ d.now)

/-- The channel is free for requests: no refresh occupies it and it does not retrain (R252, R255). -/
def Dev.chanFree (d : Dev) (c : Nat) : Bool := d.chanOpen c && decide ((d.memc.chan c).retrainUntil ≤ d.now)

/-- Compare a port's level with its watermark (R247). -/
def Dev.panicCheck (d : Dev) (p : Port) (level : Nat) : Dev :=
  if !realTime p then d
  else
    let i := portIdx p
    let on := d.memc.inPanic p
    if !on && decide (level < d.watermark p) then
      (d.onMemc (fun m => { m with
        panic := m.panic ||| (1#3 <<< i), panics := updNth m.panics i (satInc (if i = 0 then 255 else 15)) })).raise 43
    else if on && decide (2 * d.watermark p ≤ level) then d.onMemc (fun m => { m with panic := m.panic &&& ~~~(1#3 <<< i) })
    else d

/-- The levels of COMP, GAIN and LEDG at a command slot, each compared (R247). -/
def Dev.panicChecks (d : Dev) (levels : List Nat) : Dev :=
  [Port.comp, .gain, .ledg].foldl (fun d p => match levels[portIdx p]? with
    | some l => d.panicCheck p l
    | none => d) d

/-- The words of a granule, how many were corrected, and whether one was uncorrectable (R243). -/
def eccWords (e : Ecc) : List WordEcc := [e.w0, e.w1, e.w2, e.w3]
def eccCorrected (e : Ecc) : Nat := (eccWords e).countP (· == .corrected)
def eccPoisons (e : Ecc) : Bool := (eccWords e).any (· == .bad)

/-- Read ECC results (R256, R257). -/
def Dev.eccResult (d : Dev) (a : Nat) (e : Ecc) : Dev :=
  let d := if eccCorrected e = 0 then d else d.correctedErrors (eccCorrected e)
  if eccPoisons e then d.uncorrectable a else d

/-- Cycles by which the test block delays an answer of a port: MEM cycles of 466.6 MHz in 5 ns, rounded up (R469). -/
def Dev.answerDelay (d : Dev) (p : Port) : Nat :=
  let n := if p == .comp then d.test.compDelay else if p == .gain then d.test.gainDelay else 0
  (n * 1000 + 2332) / 2333

/-- Room and credits that a completed transfer leaves are taken up. -/
def Dev.settleQueues (d : Dev) (c : Nat) : Dev := Dev.admitHeld 64 (Dev.drainWrites 32 d c)

/-- A request's transfer completes. The manual gives no page policy: here every transfer counts as the activate of its bank that
point 3 of R249 goes by (DEDUCED, log 150). -/
def State.transfer (s : State) (c b : Nat) (r : Req) (ecc : Ecc) (levels : List Nat) : State :=
  let gone (l : List Req) : List Req := dropFirst (fun x => s.dev.bankOf x.addr == b) l
  let s := s.onDev (fun d => d.onMemc (fun m => m.onChan c (fun x =>
    ({ x with queue := gone x.queue, lastBank := b } : Chan).useCheck r.addr)))
  if r.write then
    ({ s with mem := s.mem.writeAll r.addr r.data } : State).onDev (fun d =>
      let d := d.onMemc (fun m => m.give r.port)
      let d := if r.port == .fww then
          (d.onFw (fun f => f.granuleWritten r.tag)).vc1Written
        else d
      (d.settleQueues c).panicChecks levels)
  else
    let data := s.mem.bytes s.dev.memc.draws r.addr 32
    s.onDev (fun d =>
      let bad := eccPoisons ecc
      let d := (d.onMemc (fun m => { m with draws := m.draws + 1 })).countReads 1 0
      let wait := d.answerDelay r.port
      let d := if wait = 0 then d.onMemc (fun m => { m.give r.port with readData := data, readPoison := bad })
        else d.onMemc (fun m => { m with late := m.late ++ [{ port := r.port, due := d.now + wait, data := data, poison := bad }] })
      ((d.eccResult r.addr ecc).settleQueues c).panicChecks levels)

/-- MEM_TRANSFER_DONE on channel `ch`: of the banks whose head can issue, the one that R249 picks; `levels` are the levels in bytes
of COMP, GAIN and LEDG at this command slot. While a refresh occupies the channel, nothing is issued on it and no level compared; while it
retrains, levels are compared and nothing is issued (R247, R252, R255). R247 does not say whether the levels of a slot are compared
before its pick: here the pick goes by the panics that stood, and the levels are compared after it (DESIGN CHOICE, log 160). -/
def execMemTransferDone (ch : Nat) (ready : BitVec 8) (ecc : Ecc) (levels : List Nat) (s : State) : Host.Outcome State Fault Refusal :=
  .next (
    let s := s.onDev Dev.servePorts
    if !(s.dev.dramOn && s.dev.chanOpen ch) then s
    else if !s.dev.chanFree ch then s.onDev (fun d => d.panicChecks levels)
    else match s.dev.pickBank ch ready with
      | none => s.onDev (fun d => d.panicChecks levels)
      | some b => match s.dev.bankQueue ch b with
        | [] => s
        | r :: _ => s.transfer ch b r ecc levels)

/-! ## Refresh (R251 to R253) -/

/-- Schedule entries run: the base periods of a frame that is not transitional (R96, R252). -/
def State.inBase (s : State) : Bool := s.running && !s.dev.frm.transitional && decide (s.dev.frm.period < s.dev.base)

/-- A real-time request waits on a channel. -/
def Chan.realTimeWaits (x : Chan) : Bool := (x.queue ++ x.writeQ).any (fun r => realTime r.port)

/-- `n` all-bank refreshes in sequence occupy a channel, 180 ns each (R252). -/
def Chan.occupy (x : Chan) (now n : Nat) : Chan :=
  if n = 0 then x else { x with refreshUntil := Nat.max now x.refreshUntil + 36 * n }

/-- REFRESH_DUE on channel `ch`. -/
def execRefreshDue (ch : Nat) (s : State) : Host.Outcome State Fault Refusal :=
  .next (if !(s.dev.dramOn && decide (ch < 2)) then s
    else if 8 ≤ (s.dev.memc.chan ch).debt then
      s.onDev (fun d => ((d.onMemc (fun m =>
        ({ m with forced := satInc 65535 m.forced } : Memc).onChan ch (fun x => x.occupy d.now 1))).raise 42).send 0xC4 0x19 0 ch)
    else
      let now := !s.inBase && !(s.dev.memc.chan ch).realTimeWaits
      s.onDev (fun d => d.onMemc (fun m =>
        let n := (m.chan ch).debt + 1
        { m.onChan ch (fun x => ({ x with debt := if now then n - 1 else n } : Chan).occupy d.now (b1 now)) with
          maxDebt := Nat.max m.maxDebt n })))

/-- MR4 codes that select the doubled rate, and the normal one. -/
def mr4Doubled (c : Nat) : Bool := c == 4
def mr4Normal (c : Nat) : Bool := decide (c < 4)

/-- MR4 of a channel is read (R251). -/
def Dev.readMr4 (d : Dev) (ch code : Nat) : Dev :=
  let old := (d.memc.chan ch).mr4
  let d := d.onMemc (fun m => m.onChan ch (fun x => { x with mr4 := code }))
  let d := d.raiseIf ((mr4Normal old && mr4Doubled code) || (mr4Doubled old && mr4Normal code)) 46
  if 5 ≤ code then (d.raise 47).send 0xC4 0x18 1 code else d

/-- REFRESH: entry `i` issues min(debt, R) refreshes a channel; the first of a frame reads MR4 at its end (R161, R251, R252). In
DRAM-less mode it issues nothing (R258). -/
def execRefresh (i doneAt : Nat) (mr40 mr41 : BitVec 3) (s : State) : Host.Outcome State Fault Refusal :=
  .next (if !s.entryReady i 4 then s
    else s.onDev (fun d =>
      let d := d.begin i (some doneAt)
      if !d.dramOn then d
      else
        let r := bits (d.entry i).operand 0 4
        let d := d.onMemc (fun m => { m with chans := m.chans.map (fun x =>
          ({ x with debt := x.debt - Nat.min x.debt r } : Chan).occupy d.now (Nat.min x.debt r)) })
        if d.memc.mr4Read then d
        else ((d.onMemc (fun m => { m with mr4Read := true })).readMr4 0 mr40.toNat).readMr4 1 mr41.toNat))

/-! ## Retraining, ECC windows and the fallback copy (R255, R256, R259) -/

/-- RETRAIN: entry `i`, which holds both channels until it is done; `drifted` says that the drift exceeds 1/16 UI, `pass` that a
setting passes. -/
def execRetrain (i doneAt : Nat) (drifted pass : Bool) (s : State) : Host.Outcome State Fault Refusal :=
  .next (if !s.entryReady i 8 then s
    else s.onDev (fun d =>
      let d := d.begin i (some doneAt)
      let until_ := d.frm.tickAt + doneAt
      if !d.dramOn then d
      else
        let d := d.onMemc (fun m => { m with chans := m.chans.map (fun x => { x with retrainUntil := until_ }) })
        if drifted && !pass then
          ((d.onMemc (fun m => { m with flagged := true, retrainFails := satInc 255 m.retrainFails })).raise 44).send 0xC4 0x1B 1 0
        else d.onMemc (fun m => { m with flagged := false })))

/-- Granule reads of a window (R256). -/
def eccWindowReads : Nat := 1048576

/-- ECC_WINDOW: 1,048,576 granule reads end a window; its count has been judged as it grew. Reads beyond them are the next window's. -/
def execEccWindow (s : State) : Host.Outcome State Fault Refusal :=
  .next (s.onDev (fun d =>
    if d.pwr.mainOn && decide (eccWindowReads ≤ d.memc.reads) then
      d.onMemc (fun m => { m with window := 0, windowOver := false, reads := m.reads - eccWindowReads })
    else d))

/-- The content of a fallback half: FBn behind every write that has entered, its uncorrectable words as 0 (R243, R250, R259). -/
def State.fallbackHalf (s : State) (n : Nat) (bad : List Nat) : SMap Byte :=
  let b := s.dev.bufBase (s.dev.fb n)
  let m := s.memNow
  ((List.range (Nat.min 262144 (s.dev.bufSize (s.dev.fb n)))).map (fun i =>
    (i, if bad.contains ((b + i) / 8 * 8) then 0 else m.byte s.dev.memc.draws (b + i)))).filter (fun e => e.2 != 0)

/-- The granules that words lie in, each once. -/
def granulesOf (bad : List Nat) : List Nat := bad.foldl (fun gs a => if gs.contains (a / 32 * 32) then gs else gs ++ [a / 32 * 32]) []

/-- The addresses of FBn that the copy reads: from the first, and to below the second (R258, R259). -/
def Dev.copySpan (d : Dev) (n : Nat) : Nat × Nat :=
  let b := d.bufBase (d.fb n)
  (b, b + Nat.min 262144 (d.bufSize (d.fb n)))

/-- Granules of FB0 and FB1 that the copy reads, and those of them that a queued write holds (R250, R259). -/
def Dev.copyReads (d : Dev) : Nat := sumNat ((List.range 2).map (fun n => granulesIn (d.copySpan n).1 (d.copySpan n).2))
def Dev.copyForwards (d : Dev) : Nat := sumNat ((List.range 2).map (fun n => d.memc.forwardsIn (d.copySpan n).1 (d.copySpan n).2))

/-- FALLBACK_COPY_DONE; `bad` lists the 8-byte words read uncorrectable, whose granules are counted, and `corrected` an element for
each error corrected (R256, R257, R259). -/
def execFallbackCopyDone (bad : List Nat) (s : State) (corrected : List Nat := []) : Host.Outcome State Fault Refusal :=
  .next (if !(s.dev.memc.copying && s.dev.dramOn) then s
    else
      let bad := s.dev.memc.fromDram bad
      let co := s.dev.memc.fromDram corrected
      let n := s.dev.copyForwards
      let h0 := s.fallbackHalf 0 bad
      let h1 := s.fallbackHalf 1 bad
      s.onDev (fun d =>
        let d := d.entryReads s.dev.copyReads n (granulesOf bad) co
        d.onMemc (fun m => { m with copying := false, copied := true, half0 := h0, half1 := h1, draws := m.draws + 1 })))

/-- DRAM-less mode takes effect at the first tick after the copy (R259). The DRAM serves no request any more: what is queued or
held is dropped with its credits returned, and VC1 frames of which granules were queued count them as written, since the halves hold
them. No port is in panic any more: what MEM_STATUS.PANIC shows in DRAM-less mode the manual does not say (DESIGN CHOICE, log 162). -/
def Dev.tickDramLess (d : Dev) : Dev :=
  if d.memc.copied then
    let d := d.onMemc (fun m => { m with
      copied := false, dramLess := true, cause := true, held := [], panic := 0
      credits := (m.late.foldl (fun (m : Memc) a => m.take a.port) { m with credits := [64, 16, 8, 32, 8] }).credits
      chans := m.chans.map (fun x => { x with queue := [], writeQ := [] }) })
    let d := (d.onFw (fun f => { f with writes := f.writes.map (fun w => { w with inFlight := 0 }) })).vc1Written
    (d.raise 45).send 0xC4 0x1C 1 0 |>.dropImage
  else d

end Sys2Proof.Machine
end

