-- ==== Sys2Proof/Machine/Requests.lean ====
section
/-! DEFINITION. Power requests (R411 to R416): the checks of a request, the pending slot, the start of a transition, and
what a tick does to one. The rows stand in Power.lean. -/

namespace Sys2Proof.Machine

/-- The refuser of a request for target `t`, 0 when no check applies (R413). -/
def State.refuser (s : State) (t : Nat) : Nat :=
  let d := s.dev
  if s.lat.safe then 1
  else if d.chg.busy then 2
  else if d.inStart then 3
  else if t < 4 ∧ t < d.floor then 4
  else if t = 4 ∧ (d.lb || d.hb) = true then 5
  else 0

/-- A request is refused or aborted (R413). -/
def Dev.refuseReq (d : Dev) (code t : Nat) : Dev :=
  (d.onPwr (fun p => { p with
    refused := updNth p.refused (code - 1) (satInc 255), lastRefuser := code, lastTarget := BitVec.ofNat 3 t })).raise 3

/-- A request that has passed its checks begins (R411, R416). A new code on VSEL deasserts PGOOD_CORE until the regulator
asserts it again (R409). -/
def Dev.startReq (d : Dev) (t : Nat) : Dev :=
  let lv := d.pwr.level.toNat
  if t = 4 then
    -- a checkpoint that still runs for an aborted request was taken before this one: it is another request's (R416)
    let d := d.onLedg (fun l => { l with running := l.running.map (fun x =>
      { x with park := false, other := x.other || x.park }) })
    (d.onPwr (fun p => { p with state := .prepare, pend := some 4, parkWritten := false })).checkpoint parkTrigger
  else if t = lv then d
  else
    let c (st : ChangeStep) : Change := { target := BitVec.ofNat 2 t, old := d.pwr.level, step := st, switched := false }
    if lv < t then
      d.onPwr (fun p => { p with state := .levelChange, change := some (c .upPgood), vsel := BitVec.ofNat 3 t, pgood := false, vselAt := some d.now })
    else d.onPwr (fun p => { p with state := .levelChange, change := some (c .downSwitch) })

/-- No transition runs, and no PARK request prepares (R414). -/
def Pwr.free (p : Pwr) : Bool := p.state == .run && p.change.isNone

/-- A write of TARGET 1 to 4 (R413, R414). -/
def State.request (s : State) (t : Nat) : State :=
  let code := s.refuser t
  if code ≠ 0 then s.onDev (fun d => d.refuseReq code t)
  else s.onDev (fun d =>
    match d.pwr.pend with
    | some _ =>
      let d := (d.onPwr (fun p => { p with pend := some (BitVec.ofNat 3 t), superseded := satInc 65535 p.superseded })).raise 4
      if d.pwr.state == .prepare && t != 4 then d.onPwr (fun p => { p with state := .run }) else d
    | none => if d.pwr.free then d.startReq t else d.onPwr (fun p => { p with pend := some (BitVec.ofNat 3 t) }))

/-- PENDING_REQUEST_START: the waiting request starts when no transition runs, checked again (R414). -/
def State.pendingStart (s : State) : State :=
  match s.dev.pwr.pend with
  | some t =>
    if s.dev.pwr.free then
      let s := s.onDev (fun d => d.onPwr (fun p => { p with pend := none }))
      let code := s.refuser t.toNat
      s.onDev (fun d => if code ≠ 0 then d.refuseReq code t.toNat else d.startReq t.toNat)
    else s
  | none => s

/-- A level change has ended. -/
def Pwr.endChange (p : Pwr) : Pwr := { p with state := .run, change := none }

/-- A tick brings the level whose clock has been switched into force (R411). -/
def Dev.tickLevel (d : Dev) : Dev :=
  match d.pwr.change with
  | some c =>
    if !c.switched then d
    else match c.step with
      | .upSwitch =>
        (d.onPwr (fun p => { p.endChange with level := c.target, changes := satInc 65535 p.changes })).raise 2
      | .downRestore => (d.onPwr (fun p => { p.endChange with level := c.old })).raiseIf (d.pwr.level != c.old) 2
      | _ => (d.onPwr (fun p => { p with level := c.target, change := some { c with switched := false } })).raise 2
  | none => d

/-- PREPARE is aborted (R416). -/
def Dev.abortPark (d : Dev) (code : Nat) : Dev :=
  (d.onPwr (fun p => { p with state := .run, pend := none })).refuseReq code 4

/-- Tick T_p: the checks are applied again, and PARK entry starts (R416, R423). -/
def State.tickPark (s : State) : State :=
  if s.dev.pwr.state == .prepare && s.dev.pwr.parkWritten then
    let code := s.refuser 4
    if code ≠ 0 then s.onDev (fun d => d.abortPark code)
    else s.onDev (fun d =>
      let d := (d.onPwr (fun p => { p with state := .entry, pend := none, parkTick := d.frm.tick })).linkDown
      let d := d.onFrm (fun f => { f with syncOut := if d.syncRole = 0 then 0 else 2 })
      d.onMemc (fun m => { m with selfRefresh := true }))
  else s

end Sys2Proof.Machine
end

