-- ==== Sys2Proof/Machine/Thermal.lean ====
section
/-! DEFINITION. What a tick reads and reports of temperature, headroom and charge (R29, R78 to R83, R277, R429, R431). -/

namespace Sys2Proof.Machine

/-- Evaluate a curve of points in increasing temperature, as R78 gives it. -/
def interp : List (Int × Nat) → Int → Nat
  | [], _ => 0
  | [p], _ => p.2
  | p :: q :: ps, h =>
    if h ≤ p.1 then p.2
    else if h < q.1 then ((p.2 : Int) - Int.tdiv (((p.2 : Int) - (q.2 : Int)) * (h - p.1)) (q.1 - p.1)).toNat
    else interp (q :: ps) h

/-- A sensor reading (R29). -/
def Arr.temp (a : Arr) (n : Nat) : Int := sext 12 (nth 0 a.temps n).toNat

/-- The highest reading and the lowest index that shows it (R78, R80). -/
def Arr.hottest (a : Arr) : Int × Nat :=
  (List.range 48).foldl (fun (m : Int × Nat) n => if m.1 < a.temp n then (a.temp n, n) else m) (a.temp 0, 0)

/-- FACTOR moves towards its target: down at once, up by at most 16 (R78). -/
def nextFactor (factor target : Nat) : Nat := if target < factor then target else Nat.min target (factor + 16)

/-- Thermal tracking with a hysteresis of 10.0 °C: rising or falling, the extreme so far, the last trough, the last peak; the
second result is the bin of a completed cycle (R431). Before the first rise of 10 °C the trough follows the lowest reading. -/
def thermalTrack (c : Option (Bool × Int × Int × Int)) (h : Int) : (Bool × Int × Int × Int) × Option Nat :=
  match c with
  | none => ((true, h, h, h), none)
  | some (true, ext, trough, peak) =>
    if h ≤ ext - 160 then ((false, h, trough, ext), none)
    else ((true, (if ext < h then h else ext), (if ext - trough < 160 ∧ h < trough then h else trough), peak), none)
  | some (false, ext, trough, peak) =>
    if ext + 160 ≤ h then
      let a := peak - (if trough < ext then trough else ext)
      ((true, h, ext, peak), if 160 ≤ peak - trough then some (Nat.min 15 ((a / 160).toNat - 1)) else none)
    else ((false, (if h < ext then h else ext), trough, peak), none)

/-- The ledger's share of a tick's readings (R429, R431). -/
def Ledg.heat (l : Ledg) (h : Int) : Ledg :=
  let r := thermalTrack l.cycle h
  { l with
    tmax := if l.tmax < h then h else l.tmax
    cycle := some r.1
    thermal := match r.2 with
      | some b => updNth l.thermal b (satInc 0xFFFFFFFF)
      | none => l.thermal }

/-- SENSOR_UPDATE, FOLDBACK_UPDATE, OVERTEMP and THERMAL_CYCLE at a tick (R29, R78 to R80, R431). A sensor that the list
leaves out keeps its reading. -/
def Dev.tickTemps (d : Dev) (temps : List (BitVec 12)) : Dev :=
  let d := d.onArr (fun a => { a with temps := (List.range 48).map (fun n => temps.getD n (nth 0 a.temps n)) })
  let hot := d.arr.hottest
  let old := d.arr.factor
  let f := nextFactor old (interp d.foldback hot.1)
  let tooHot := decide (2000 ≤ hot.1)
  let was := d.arr.overtemp
  let d := d.onArr (fun a => { a with
    factor := f, overtemp := tooHot, hotSensor := hot.2, tmax := BitVec.ofInt 12 hot.1 })
  let d := d.raiseIf (decide (f < 4096) && old == 4096) 75
  let d := if tooHot && !was then (d.raise 76).send 0xCF 0x25 1 hot.2 else d
  d.onLedg (fun l => l.heat hot.1)

/-- HEADROOM_REPORT and HEADROOM_LOW at a tick (R82, R83). -/
def Dev.tickHeadroom (d : Dev) : Dev :=
  let lows := (List.range 192).filter (fun t => (d.tile t).lowMv.isSome)
  let d := d.onArr (fun a =>
    match a.sample with
    | some (c, t, v) => { a with
        cellMin := c, worstTile := t, vledMeas := v, vledReq := v + d.targetMv - c, vledValid := true, low := !lows.isEmpty
        sample := none }
    | none => { a with vledValid := false, low := false })
  lows.foldl (fun d t =>
    (d.send t 0x08 0 ((d.tile t).lowMv.getD 0)).onTile t (fun x => { x with lowMv := none })) d

/-- Σ(C × T) of every tile's active drive words. -/
def chargeSums (cells : SMap Cell) : SMap Nat :=
  cells.foldl (fun (m : SMap Nat) e =>
    let w := e.2.active.toNat
    SMap.upd 0 m (tileOf e.1) (· + bits w 10 6 * bits w 0 10)) []

/-- Tiles with a nonzero active drive word. -/
def litSet (cells : SMap Cell) : SMap Bool :=
  cells.foldl (fun (m : SMap Bool) e => if e.2.active = 0 then m else SMap.set false m (tileOf e.1) true) []

/-- Temperature weight of charge in 1/256 (R277). -/
def Dev.chargeWeightAt (d : Dev) (h : Int) : Nat := if d.wearNt = 0 then Config.chargeWeight h else interp d.wearTemps h

/-- The largest Q_t, 67,108,848 C in µC (R277). -/
def qMax : Nat := 67108848000000

/-- Charge in µC of a frame of `periods` periods of `slot` cycles a slot (R277). -/
def chargeOf (sum periods iu slot w : Nat) : Nat := sum * periods * iu * slot * 5 * w / (256 * 1000000000000)

/-- Cycles of the frame that ends, `periods` long: period 0 of a transitional frame has the old slots, and that of a follower that
realigns is longer or shorter (R96, R102). -/
def Dev.frameCycles (d : Dev) (periods : Nat) : Nat :=
  if d.frm.transitional then 1040 * d.slotCyc d.frm.oldMode + (periods - 1) * 1040 * d.slot
  else (((periods * 1040 * d.slot : Nat) : Int) + d.frm.realignNow).toNat

/-- WEAR_CHARGE and the hours of light for the frame that ends, `periods` long (R277, R429). R277 gives one t_slot for the P periods of
a frame: in a transitional one it is here the new mode's (DEDUCED, log 41). -/
def State.tickCharge (s : State) (periods : Nat) : State :=
  let sums := chargeSums s.cells
  let on := litSet s.cells
  let cyc := s.dev.frameCycles periods
  s.onDev (fun d =>
    let d := d.litTiles.foldl (fun d t =>
      let dq := chargeOf (SMap.get 0 sums t) periods (d.iuNa t) d.slot (d.chargeWeightAt (d.arr.temp (sensorOf t)))
      if dq = 0 then d
      else d.onCal (fun c => { c with tiles := SMap.upd {} c.tiles t (fun x => { x with q := Nat.min qMax (x.q + dq) }) })) d
    d.onLedg (fun l => { l with
      arrayOn := if on.isEmpty then l.arrayOn else l.arrayOn + cyc
      tileOn := on.foldl (fun (m : SMap Nat) e => SMap.upd 0 m e.1 (· + cyc)) l.tileOn }))

end Sys2Proof.Machine
end

