-- ==== Sys2Proof/Machine/Frame.lean ====
section
/-! DEFINITION. Frame timing (R86 to R104): decision points, ticks with everything that happens at one, PWM periods and
two lamps on one tick. A boundary that is decided lies 16 slots after its decision point (log 17). -/

namespace Sys2Proof.Machine

/-! ## The tick copy (R45, R46) -/

/-- The tile copies at a tick. -/
def Tile.copies (x : Tile) : Bool := !x.dark && x.driveReady

/-- The tile repeats its frame at a tick. -/
def Tile.repeats (x : Tile) : Bool := !x.dark && !x.driveReady

/-- The active drive words after the copy. -/
def State.copied (s : State) : SMap Cell :=
  SMap.mapAll {} (fun p c => if (s.dev.tile (tileOf p)).copies then { c with active := c.shadow } else c) s.cells

/-- Copy, REPEATED and the DRIVE flags at a tick; TILE_REPEAT (R45, R46, R454). -/
def State.tickCopy (s : State) : State :=
  let rep := (List.range 192).countP (fun t => (s.dev.tile t).repeats)
  let cop := (List.range 192).countP (fun t => (s.dev.tile t).copies)
  let s := { s with cells := s.copied }
  s.onDev (fun d =>
    let d := d.onTiles (fun _ x => { x with repeated := x.repeats, drive := 0 })
    let d := d.onArr (fun a => { a with repeatedTiles := rep })
    d.raiseIf (rep != 0 && cop != 0) 77)

/-! ## What is reported of the frame that ends -/

/-- The composition is complete. -/
def Comp.complete (c : Comp) : Bool := c.content != .none && c.batches == BitVec.allOnes 88

/-- FLAGS of the frame that was composed (R131): its content, and how long the frame was in which it was composed. -/
def Dev.composedFlags (d : Dev) (perturbed : Bool) (periods : Nat) : Nat :=
  let c := d.comp
  packNat [(b1 (c.content == .carryOver), 1, 1), (b1 (c.content == .standalone), 2, 1), (b1 c.rebuilt, 4, 1),
           (b1 c.dramLess, 5, 1), (b1 c.dip, 6, 1), (b1 perturbed, 7, 1), (b1 c.engineB, 8, 1), (d.frm.mode, 9, 2),
           (periods, 16, 5)]

/-- Enabled slots as bits (R131). -/
def Eng.enabledBits (e : Eng) : Nat := sumNat ((List.range 16).map (fun n => if dEn (e.desc n) then 2 ^ n else 0))

/-- The statistics of the frame lit at tick `n` (R131, R132): of the composed frame, or of the one still shown when the
whole array repeats. -/
def Dev.tickStats (d : Dev) (n : Nat) (whole trans perturbed : Bool) (periods : Nat) (rep : List Nat) : Stats :=
  let dark := (List.range 192).filter d.isDark
  if whole || !d.comp.complete then
    let f := d.wit.stats.flags
    { d.wit.stats with
      tick := n
      flags := f / 256 * 256 + packNat [(b1 whole, 0, 1), (bits f 1 2, 1, 2), (b1 trans, 3, 1), (bits f 4 3, 4, 3), (b1 perturbed, 7, 1)]
      repeated := rep, dark := dark }
  else
    let c := d.comp
    { tick := n, flags := d.composedFlags perturbed periods, gen := c.gen, demand := c.demand, delivered := c.delivered
      g := c.g, clamped := d.clampedTiles, tloss := Nat.min 0xFFFFFFFF (c.tloss / 65536), tquads := c.tquads, clip := c.clip
      factor := c.factor, blend := if c.dramLess then none else d.eng.blend
      stale := d.eng.slots.map (·.staleRun), enabled := d.eng.enabledBits, repeated := rep, dark := dark }

/-! ## What a tick does, in order -/

/-- The drive payloads of the composed frame that have not been sent; they may go until the frame that shows it ends (R13). -/
def Dev.unsent (d : Dev) : List (Nat × Bytes) :=
  ((List.range 1056).drop d.wit.next).map (fun k => (k, d.drivePayload k))

/-- The statistics of the frame lit, the witness stream and the sector map that diagnostics reads (R131, R148, R204). -/
def Dev.tickWitness (d : Dev) (n : Nat) (whole trans perturbed : Bool) (periods : Nat) : Dev :=
  let rep := (List.range 192).filter (fun t => (d.tile t).repeated)
  let lit := !whole && d.comp.complete
  let st := d.tickStats n whole trans perturbed periods rep
  let resumes := d.wit.waiting && !d.wit.running
  let unsent := d.unsent
  let d := d.raiseIf (resumes && d.wit.stops != 0) 39
  let d := d.onWit (fun w => { w with
    stats := st, running := w.running || resumes, waiting := false, statsDue := w.running || resumes, next := 0
    late := if w.running && lit then unsent else [] })
  d.onDiag (fun g => { g with sectBefore := g.sectMap, sectMap := if lit then d.comp.sectMap else g.sectMap })

/-- The budget of the frame lit (R75, R85). -/
def Dev.tickBudget (d : Dev) : Dev :=
  let c := d.comp
  let d := d.onArr (fun a => { a with effectiveMa := d.ieff / 1000 })
  if c.complete then
    d.onArr (fun a => { a with
      demandMa := c.demand / 1000, deliveredMa := c.delivered / 1000, globalG := c.g, clampedTiles := d.clampedTiles
      overFrames := satAdd 65535 a.overFrames (b1 (decide (c.ieff < c.demand)))
      clampFrames := satAdd 65535 a.clampFrames (b1 (d.clampedTiles != 0)) })
  else d

/-- TICK_FORCED, FRAME_REPEAT and their counters (R90, R103, R299). -/
def Dev.tickForced (d : Dev) (n : Nat) : Dev :=
  let f := d.frm
  let d := if f.repeatDue || f.contentFailed || (d.syncRole == 1 && f.decision == .limit) then
      d.onFrm (fun f => { f with forcedTicks := satInc 65535 f.forcedTicks })
    else d
  let d := d.raiseIf f.contentFailed 66
  if f.repeatDue then
    let d := (d.onFrm (fun f => { f with repeatFrames := satInc 65535 f.repeatFrames })).raise 67
    if d.comp.rebuilt then d else d.send 0xCD 0x16 1 n
  else d

/-- The least slack of the frame that ends (R176). -/
def Dev.tickSlack (d : Dev) : Dev :=
  match d.frm.slackNow with
  | some x =>
    if d.frm.suspended then d
    else (d.onFrm (fun f => { f with minSlack := x })).raiseIf (decide (x < d.slackWarn * 200)) 63
  | none => d

/-- The commit, the mode and the transitional frame at tick `n` (R92, R95, R96); the second result says that a commit was
applied, the third that the tick starts a transitional frame. -/
def Dev.tickTargets (d : Dev) (n : Nat) : Dev × Bool × Bool :=
  let r := d.tickMode n
  if r.2 then (r.1.onFrm (fun f => { f.shift with transitional := true }), false, true)
  else
    let d := r.1.onFrm (fun f => { f with transitional := false })
    let c := d.tickCommit n
    match c.2 with
    | some x => (c.1.applyCommit x, true, false)
    | none => (c.1, false, false)

/-- Ages of the sets in force, a transitional frame composing nothing (R96, R144, R155), the run of R93 and the standalone beam (R93, R205, R306, R400): `fresh` says
that it is tick 0. Where the 120th tick without a commit starts a transitional frame, NO_COMMIT is due at that tick all the same
and the standalone beam is composed from the next one (log 126). -/
def Dev.tickContent (d : Dev) (applied trans fresh newSect newSym : Bool) : Dev :=
  let d := d.onEng (fun e => { e with
    sectAge := if newSect || e.sect.isNone then e.sectAge else Nat.min 255 (e.sectAge + 1)
    symAge := if newSym || e.sym.isNone || trans then e.symAge else e.symAge + 1 })
  let run := if applied then 0 else if d.frm.since < 255 then d.frm.since + 1 else 255
  let was := d.frm.standalone
  let carries := d.link.carries
  let long := decide (120 ≤ run)
  let st := fresh || !carries || (!applied && (was || long))
  let d := d.onFrm (fun f => { f with
    since := run
    standalone := st
    noCommitDue := !fresh && long && !was && carries && !d.keep.standaloneHeld })
  let content : Content :=
    if trans then .none else if d.keep.standaloneHeld || st then .standalone else if applied then .host else .carryOver
  d.onComp (fun c => { c with content := content })

/-- The composition of the frame that starts at tick `n` begins (R72, R105, R145, R292); `dprev` is the demand of the frame
composed before. -/
def Dev.tickCompose (d : Dev) (n dprev : Nat) : Dev :=
  let content := d.comp.content
  let host := content == .host || content == .carryOver
  d.onComp (fun _ =>
    { content := content, tick := n, dip := host && (d.sectStale || d.keep.dipHeld), dramLess := d.memc.dramLess
      pins := b1 d.lb + 2 * b1 d.hb, ieff := d.ieff, factor := d.arr.factor, dprev := dprev, gen := 1
      engineB := d.engineB
      classes := d.diag.pix.foldl (fun (m : SMap Nat) e => SMap.set 0 m e.1 e.2.cls) []
      ties := d.diag.ties })

/-- Calibration's trim-commit tick: every tile that is not dark is staged, or it is the 16th tick (R273). -/
def Dev.tickStaging (d : Dev) : Dev :=
  if d.cal.staging then
    let n := d.cal.stagingTicks + 1
    let all := d.litTiles.all (fun t => (d.tile t).trimStaged)
    d.onCal (fun c => { c with stagingTicks := n, commitDue := all || decide (16 ≤ n) })
  else d

/-- The pass pointer advances by N_base for a lamp frame that ends, unless it was transitional; the conversions are numbered
again (R262, R263, R273). -/
def Dev.tickPointer (d : Dev) (counts : Bool) (base : Nat) : Dev :=
  let d := d.onCal (fun c => { c with tiles := SMap.mapAll {} (fun _ x => { x with nextConv := 0 }) c.tiles })
  if counts && !d.cal.staging && !d.cal.stopped && !d.cal.passEndDue then
    let p := d.cal.pointer + base
    d.onCal (fun c => { c with pointer := if 5632 ≤ p then p - 5632 else p, passEndDue := decide (5632 ≤ p) })
  else d

/-- What the frame timing holds of one frame only begins again. -/
def Frm.newFrame (f : Frm) (n now periods : Nat) (applied : Bool) : Frm :=
  { f with
    tick := n, ticked := true, tickAt := now, lastLen := periods, period := 0, periodBegun := false, applied := applied
    begun := [], judged := [], stopped := [], missSent := false, slackNow := none, suspended := false, jitterLeft := none, auxDone := []
    resumed := false
    decision := .none, contentFailed := false, awaitSample := false, repeatDue := false }

/-- By how many cycles one period may be shorter, or longer, for a follower that realigns: 260 slots at most, its uniform slot
within 25 % of the follower's and within 60 to 200 cycles (R102). -/
def Dev.realignLess (d : Dev) : Nat := 1040 * Nat.min (d.slot / 4) (d.slot - 60)
def Dev.realignMore (d : Dev) : Nat := Nat.min (260 * d.slot) (1040 * (200 - d.slot))

/-- The phase groups at a tick: each runs on into the new frame and starts its periods anew; period 0 of a follower that
realigns takes what R102 allows of what is left to move, except in a transitional frame (R59, R96, R102). -/
def Dev.tickGroups (d : Dev) (base : Nat) (ended : Bool) : Dev :=
  let m : Int := match d.frm.realign with
    | some k => if d.frm.transitional then 0 else max (-(d.realignLess : Int)) (min (d.realignMore : Int) k)
    | none => 0
  d.onFrm (fun f => { f with
    starts := List.replicate 16 0, prevBase := base, prevTrans := ended, realign := f.realign.map (· - m), realignNow := m })

/-- The TICK reply and the DISCARD reply; frames whose DISCARD a full queue drops are told of by the next, and those discarded before
LRX stopped once it runs (R17, R237). Mode, standalone and dip of the TICK reply, which R237 ties to no frame, are those of the frame that
begins at the tick (DESIGN CHOICE, log 139). -/
def Dev.tickReplies (d : Dev) (n periods : Nat) (whole : Bool) : Dev :=
  let has (k : Nat) : Bool := d.frm.holds ((n + k) % 2 ^ 32)
  let d := d.reply 0x81 [n, packNat [(periods, 0, 5), (d.frm.mode, 5, 2), (b1 (d.comp.content == .standalone), 7, 1),
    (b1 d.comp.dip, 8, 1), (b1 whole, 9, 1), (b1 (has 1), 10, 1), (b1 (has 2), 11, 1)]]
  if d.fw.discards = 0 || !d.fairwayOn then d
  else
    let room := decide (d.fw.replies.length < 256)
    (d.reply 0x87 [packNat [(Nat.min 65535 d.fw.discards, 0, 16), (d.fw.discardStep, 16, 3)]]).onFw (fun f => { f with
      discards := if room then 0 else f.discards })

/-- The diagnostic counter at a tick: a frame that carried its windows advances it, and after the last frame of a cycle of the
checker the evaluation is due (R283, R288). -/
def Diag.advance (g : Diag) (trans : Bool) : Diag :=
  if g.windowsRan && !trans then
    { g with nd := g.nd + 1, windowsRan := false, cycleDue := g.cycleDue || g.nd % 4 == 3 }
  else { g with windowsRan := false }

/-- Bookkeeping of other blocks at a tick: the diagnostic counter (R283), the rebuild (R331), the Keeper's tick (R310), the
readback interval (R52), MR4 (R251). -/
def Dev.tickOthers (d : Dev) (n : Nat) (first trans : Bool) : Dev :=
  let d := d.onDiag (fun g => g.advance trans)
  let d := d.onChg (fun c => { c with rebuilding := false })
  let d := d.onKeep (fun k => { k with tick := n, tickAt := d.now, ticked := true, stood := 0 })
  let d := d.onArr (fun a => { a with
    framesLeft := if first then 1024 else a.framesLeft - 1, sinceRead := a.sinceRead + 1 })
  d.onMemc (fun m => { m with mr4Read := false })

/-- Everything that happens at a tick (R46 and the rules its parts cite); `temps` are the 48 sensor readings. -/
def State.tickCore (s : State) (temps : List (BitVec 12)) : State :=
  let was := s.dev
  let first := !was.frm.ticked
  let n := was.nextTick
  let periods := if first then 0 else was.frm.period + 1
  let ended := was.frm.transitional
  let whole := !first && (was.frm.repeatDue || ended)
  let s := s.onDev (fun d => d.cutPasses.tickTemps temps)
  let s := if first then s else s.tickCharge periods
  let s := s.tickCopy
  let pert := s.lat.perturbed
  s.onDev (fun d =>
    let d := d.tickBudget.tickHeadroom
    let d := d.tickForced n
    let d := d.tickSlack
    let d := if first then d else d.tickWitness n whole ended pert periods
    let dprev := if d.comp.complete then d.comp.demand else d.comp.dprev
    let d := d.tickOthers n first (ended || first)
    let r := d.tickTargets n
    let took (f : Commit → Bool) : Bool := r.2.1 && was.frm.commits.any (fun c => c.target == n && f c)
    let d := r.1.onChg (fun c => c.tickPoints r.2.1)
    let d := ((d.onFrm (fun f => f.newFrame n d.now periods r.2.1)).tickGroups (if first then 0 else was.base) ended).tickContent r.2.1 r.2.2 first
      (took (fun c => c.sect.isSome)) (took (fun c => c.sym.isSome))
    let d := d.tickDramLess.tickStaging.tickPointer (!first && !ended) was.base
    let d := d.tickCompose n dprev
    let d := d.tickReplies n periods whole
    (d.releases was).tickLevel) |>.tickPark

/-! ## Decision points (R88, R90, R91, R96, R99, R100) -/

/-- Candidate boundaries of the frame (R87); the frame after a change of slot length has one end only (R96). -/
def Dev.candidate (d : Dev) : Bool := decide (d.base ≤ d.frm.period + 1) && decide (d.frm.period + 1 ≤ 24)

/-- One advance of the jitter LFSR (R470). -/
def lfsrNext (s : Nat) : Nat :=
  s / 2 + 32768 * (Nat.xor (Nat.xor s (s / 4)) (Nat.xor (s / 8) (s / 32)) % 2)

/-- The next boundary is decided: a tick, or not (R99). -/
def Dev.decide_ (d : Dev) (dec : Decision) (out : Nat) : Dev :=
  let role := d.syncRole
  d.onFrm (fun f => { f with decision := dec, awaitSample := false, syncOut := if role = 0 then 0 else out })

/-- Every gate holds: the tick falls at the boundary, unless TICK_JITTER postpones it (R88, R469). A follower whose gates hold
shows so at a boundary that it postpones too (R99). -/
def Dev.allHold (d : Dev) (limit : Bool) : Dev :=
  let out := if d.syncRole = 1 then 4 else 16
  if limit || d.test.jitter == 0 then d.decide_ .tick out
  else
    let r := match d.frm.jitterLeft with
      | some k => (k, d.test.lfsr)
      | none => (lfsrNext d.test.lfsr % (d.test.jitter + 1), lfsrNext d.test.lfsr)
    let d := (d.onTest (fun x => { x with lfsr := r.2 })).onFrm (fun f => { f with jitterLeft := some r.1 })
    if r.1 = 0 then d.decide_ .tick out else d.decide_ .none (if d.syncRole = 1 then 2 else 16)

/-- A boundary passes of those by which TICK_JITTER postpones the tick, whatever the gates show there (R469, log 132). -/
def Frm.postponed (f : Frm) : Frm := { f with jitterLeft := f.jitterLeft.map (· - 1) }

/-- What a gate failing at the limit does at the decision point (R90). -/
def Dev.failAtLimit (d : Dev) (comp content : Bool) : Dev :=
  let d := if comp then d else d.clearDrive.abandonPasses
  d.onFrm (fun f => { f with repeatDue := !comp, contentFailed := !content })

/-- A SYNC master whose follower is present, and a locked follower (R100, R101). -/
def Dev.masterPair (d : Dev) : Bool := d.syncRole == 1 && d.frm.locked
def Dev.lockedFollower (d : Dev) : Bool := d.syncRole == 2 && d.frm.locked

/-- The decision point of the next boundary, 16 slots before it. A transitional frame ends at its first candidate boundary,
which is its limit (R96): there a locked follower awaits the master's tick pulse (R101), and a follower shows whether its gates
hold (R99). -/
def Dev.decisionPoint (d : Dev) : Dev :=
  if d.frm.transitional then
    if !d.candidate then d.decide_ .none 2
    else
      let own := d.compositionGate && d.contentGate (d.now + 16 * d.slotNow) false
      let out := if d.syncRole = 1 then 4 else if own then 16 else 2
      d.decide_ (if d.lockedFollower then .limit else .tick) out
  else if !d.candidate then d.decide_ .none 2
  else
    let limit := d.frm.period == 23
    let comp := d.compositionGate
    let cont := d.contentGate (d.now + 16 * d.slotNow) limit
    let own := comp && cont
    if limit && !own then (d.failAtLimit comp cont).decide_ .limit (if d.syncRole = 1 then 4 else 2)
    else if d.lockedFollower then d.decide_ (if limit then .limit else .none) (if own then 16 else 2)
    else if !own then d.decide_ .none 2
    else if d.masterPair then d.onFrm (fun f => { f with awaitSample := true })
    else d.allHold limit

/-- The sections before SYMBOLS. -/
def beforeSymbols : BitVec 16 := 0x6FFE

/-- Every condition of R400 holds but the level of VLED; with TEST_EN high the unit stays in START (R468). -/
def State.tickZeroReady (s : State) : Bool :=
  let d := s.dev
  d.inStart && d.pwr.mainOn && !s.lat.safe && !d.test.testEn && d.pwr.pgood && d.arr.startDone &&
  d.cfg.verified &&& beforeSymbols == beforeSymbols && d.cal.restoreDone && (d.memc.trained || d.memc.dramLess) && d.chg.startDone

/-- The timebases run: in RUN, and in START from the verification of SCHEDULE on (R393). -/
def State.timebaseRuns (s : State) : Bool := s.running || (s.dev.inStart && s.dev.pwr.mainOn && s.dev.has 2 && !s.lat.safe)

/-- DECISION_POINT. In START the timebases run once SCHEDULE is verified, and the decision point judges whether tick 0 falls at its
boundary (R397, R400). What SYNC_OUT does while SAFE is set the manual does not say, since R310 stops the ticks and R322 does not list the
timebases: here decision points and periods of RUN stop, so that SYNC_OUT keeps its last value, and those of START go on and give the
pulse of a boundary that is no tick (R99; DESIGN CHOICE, log 161). -/
def execDecisionPoint (s : State) : Host.Outcome State Fault Refusal :=
  .next (
    if s.running then
      if s.dev.frm.decision == .none && !s.dev.frm.awaitSample then
        s.onDev (fun d => (if d.test.jitter == 0 then d else d.onFrm Frm.postponed).decisionPoint)
      else s
    else if s.dev.inStart && s.dev.pwr.mainOn && s.dev.has 2 then
      let ready := s.tickZeroReady
      s.onDev (fun d => d.decide_ (if ready then .tick else .none) (if ready && d.syncRole == 1 then 4 else 2))
    else s)

/-- The partner gate of a SYNC master, 8 slots before a candidate boundary (R88, R100). -/
def Dev.syncInSample (d : Dev) (high : Bool) : Dev :=
  if !d.masterPair then d
  else
    let d := if d.candidate then d.onFrm (fun f => { f with partnerReady := high }) else d
    let limit := d.frm.period == 23
    if !d.frm.awaitSample then d
    else if high then d.allHold limit
    else if limit then d.decide_ .limit 4
    else d.decide_ .none 2

/-- SYNC_IN_SAMPLE. -/
def execSyncInSample (high : Bool) (s : State) : Host.Outcome State Fault Refusal :=
  .next (if s.running then s.onDev (fun d => d.syncInSample high) else s)

/-! ## Ticks -/

/-- A follower loses lock, or a master its follower: fault 1 LOST or 2 MISMATCH (R102, R103, R104). PARTNER_READY falls with the
follower, which shows nothing any more (log 37). -/
def Dev.syncFault (d : Dev) (fault : Nat) : Dev :=
  (d.onFrm (fun f => { f with
    locked := false, partnerReady := false, syncFault := fault, syncFaults := satInc 255 f.syncFaults, edges := 0, badEdges := 0
    goodEdges := 0, aligned := false, realign := none })).raise 69

/-- TICK: the boundary that its gates have made a tick. -/
def execTick (temps : List (BitVec 12)) (s : State) : Host.Outcome State Fault Refusal :=
  .next (if s.running && s.dev.frm.ticked && s.dev.frm.decision == .tick then s.tickCore temps else s)

/-- The limit of the frame: 24 periods after the last tick, or the end of a transitional frame at which a locked follower
awaits a tick pulse (R87, R96, R101). -/
def Dev.atLimit (d : Dev) : Bool :=
  d.frm.decision != .none && (d.frm.period == 23 || (d.frm.transitional && d.frm.decision == .limit))

/-- LIMIT_TICK: the boundary at the limit (R90). A locked follower that no tick pulse has reached by then loses lock, with
fault LOST (R102, log 37). -/
def execLimitTick (temps : List (BitVec 12)) (s : State) : Host.Outcome State Fault Refusal :=
  .next (if s.running && s.dev.atLimit then
      (s.onDev (fun d => if d.lockedFollower && d.frm.decision == .limit then d.syncFault 1 else d)).tickCore temps
    else s)

/-- NO_COMMIT: the standalone beam is composed after a run of 120 ticks (R93). -/
def execNoCommit (s : State) : Host.Outcome State Fault Refusal :=
  .next (s.onDev (fun d =>
    if d.frm.noCommitDue && d.pwr.mainOn then (d.onFrm (fun f => { f with noCommitDue := false })).raise 68 else d))

/-! ## PWM periods (R48, R58, R87) -/

/-- A period starts: the cell samples its active drive word, and the period that ends is the last complete one (R35, R48). -/
def Cell.sample (c : Cell) : Cell := { c with sampled := c.active, judgedLast := c.judgedNow, judgedNow := false }

/-- Group `g` starts a period (R48). -/
def Frm.start (f : Frm) (g : Nat) : Frm := { f with starts := updNth f.starts g (· + 1) }

/-- A further period may start: the boundary that comes is no tick, as far as is decided, and the limit is not reached (R87). -/
def Frm.goesOn (f : Frm) : Bool := !f.periodBegun || (f.decision == .none && !f.awaitSample && f.period != 23)

/-- The period of group 0 starts: period 0 of the frame first, then the next index (R87). At the end of the last realigning
period a follower is aligned (R102). -/
def Dev.periodStart (d : Dev) : Dev :=
  let f := d.frm
  let d := d.onFrm (fun f => { f with syncOut := if d.syncRole = 0 then 0 else 2 })
  if !f.periodBegun then d.onFrm (fun f => f.start 0 |> fun f => { f with periodBegun := true })
  else
    let d := d.onFrm (fun f => f.start 0 |> fun f => { f with
      period := f.period + 1
      extFrames := satAdd 65535 f.extFrames (b1 (f.period + 1 == d.base && !f.transitional))
      aligned := f.aligned || f.realign == some 0, realign := if f.realign == some 0 then none else f.realign })
    if d.frm.period + 1 == d.base && !d.frm.transitional then d.onDiag (fun g => { g with windowsRan := true }) else d

/-- PWM_PERIOD_START of phase group `group`: every cell of its tiles samples its active drive word. -/
def execPwmPeriodStart (group : Nat) (s : State) : Host.Outcome State Fault Refusal :=
  .next (if s.running && decide (group < 16) && (group != 0 || s.dev.frm.goesOn) then
      let s := { s with cells := SMap.mapAll {} (fun p c => if tileOf p % 16 = group then c.sample else c) s.cells }
      s.onDev (fun d =>
        let d := d.onDiag (fun g => { g with
          tiles := SMap.mapAll {} (fun t y => if t % 16 = group then { y with probed := false, checked := false } else y) g.tiles })
        if group = 0 then d.periodStart else d.onFrm (fun f => f.start group))
    else s)

/-! ## Two lamps on one tick (R98 to R102) -/

/-- The PWM period in cycles: in period 0 of a transitional frame it is the old one (R96). -/
def Dev.periodCycles (d : Dev) : Nat := 1040 * d.slotNow

/-- A pulse spacing within 1 % of the lamp's own period. -/
def Dev.spacingOk (d : Dev) (spacing : Nat) : Bool :=
  decide (100 * (spacing - d.periodCycles) ≤ d.periodCycles) && decide (100 * (d.periodCycles - spacing) ≤ d.periodCycles)

/-- The boundary that comes may be a tick of this lamp (R87, R96, R102). -/
def Dev.mayTick (d : Dev) : Bool := d.candidate

/-- A falling edge at a locked follower. Each edge is judged by its spacing from the one before it, so that the edge after one
that was missing, two periods on, is a mismatch (log 37). -/
def Dev.followerEdge (d : Dev) (tickPulse : Bool) (spacing delay offPlace : Nat) : Dev :=
  let d := d.onFrm (fun f => { f with offset := Nat.min 255 delay, badEdges := if 400 < offPlace then f.badEdges + 1 else 0 })
  if d.frm.badEdges = 2 then d.syncFault 1
  else if !d.spacingOk spacing || (tickPulse && !d.mayTick) then d.syncFault 2
  else if tickPulse then d.onFrm (fun f => { f with decision := .tick })
  else d

/-- A falling edge at a follower out of lock: a pulse is valid when its spacing is within 1 % of the period (log 37). -/
def Dev.freeEdge (d : Dev) (tickPulse : Bool) (spacing delay : Nat) : Dev :=
  if !d.spacingOk spacing then d.onFrm (fun f => { f with goodEdges := 0, aligned := false, realign := none })
  else
    let d := d.onFrm (fun f => { f with goodEdges := Nat.min 16 (f.goodEdges + 1) })
    if d.frm.aligned && tickPulse && d.mayTick then
      d.onFrm (fun f => { f with locked := true, badEdges := 0, offset := Nat.min 255 delay, decision := .tick })
    else d

/-- SYNC_IN_EDGE: a falling edge on SYNC_IN after a pulse of `highCycles`, `spacing` cycles after the one before it, `delay`
cycles after the lamp's own boundary in a master and before it in a follower, `offPlace` cycles from where it was expected. A
pulse under 40 ns is ignored (R493). The pulses of START, where the boundaries run already, count as those of RUN do: for the master's
follower, and among the 16 of a follower, which has no lock yet (R100, R102, R393; DEDUCED, log 141). -/
def execSyncInEdge (highCycles spacing delay offPlace : Nat) (s : State) : Host.Outcome State Fault Refusal :=
  .next (s.onDev (fun d =>
    if !s.timebaseRuns || decide (highCycles < 8) then d
    else if d.syncRole = 1 then
      if delay ≤ 400 then d.onFrm (fun f => { f with edges := Nat.min 2 (f.edges + 1), locked := f.locked || decide (1 ≤ f.edges) })
      else d
    else if d.syncRole = 2 then
      let pulse := decide (3 * d.slotNow ≤ highCycles)
      if d.frm.locked then d.followerEdge pulse spacing delay offPlace else d.freeEdge pulse spacing delay
    else d))

/-- FALLING_EDGE_MISSING: no falling edge has come where the partner owes one (R100, R102). -/
def execFallingEdgeMissing (s : State) : Host.Outcome State Fault Refusal :=
  .next (s.onDev (fun d =>
    if !s.timebaseRuns then d
    else if d.syncRole = 1 then (if d.frm.locked then d.syncFault 1 else d.onFrm (fun f => { f with edges := 0 }))
    else if d.syncRole = 2 then
      if d.frm.locked then
        let d := d.onFrm (fun f => { f with badEdges := f.badEdges + 1 })
        if d.frm.badEdges = 2 then d.syncFault 1 else d
      else d.onFrm (fun f => { f with goodEdges := 0, aligned := false, realign := none })
    else d))

/-- What a follower has to move its boundaries by, the master's next one lying `offset` cycles after its own: later where four
frames suffice for it, else earlier (R102, log 102). -/
def Dev.realignBy (d : Dev) (offset : Nat) : Int :=
  let m := offset % (1040 * d.slot)
  if m ≤ 4 * d.realignMore then (m : Int) else (m : Int) - (1040 * d.slot : Nat)

/-- SYNC_REALIGN: after 16 valid pulses a follower begins to move its boundaries onto the master's, whose next one lies `offset`
cycles after one of its own. The periods 0 of its next frames are transitional for it, each by as much as R102 allows; it is aligned
when the last of them has ended (R102). -/
def execSyncRealign (s : State) (offset : Nat := 0) : Host.Outcome State Fault Refusal :=
  .next (s.onDev (fun d =>
    if s.running && d.syncRole == 2 && !d.frm.locked && d.frm.goodEdges == 16 && d.frm.realign.isNone && !d.frm.aligned then
      let m := d.realignBy offset
      d.onFrm (fun f => { f with aligned := m == 0, realign := if m = 0 then none else some m })
    else d))

end Sys2Proof.Machine
end

