-- ==== Sys2Proof/Machine/Calibration.lean ====
section
/-! DEFINITION. Self-calibration and wear (R262 to R281), and the trim image of the ledger (R428, R432): conversions, ends of
passes, trim commits and the restore of START. -/

namespace Sys2Proof.Machine

/-! ## Eligible pixels and medians (R267, R268) -/

/-- Pixels of a tile. -/
def tilePixels : Nat := 5632

/-- The pixel with tile-local index `i` is eligible. -/
def Dev.eligible (d : Dev) (t i : Nat) : Bool := decide (i < tilePixels) && (d.pix (pixelAt t i)).cls == 0

/-- Change the calibration record of a tile. -/
def Dev.onCalTile (d : Dev) (t : Nat) (f : CalTile → CalTile) : Dev :=
  d.onCal (fun c => { c with tiles := SMap.upd {} c.tiles t f })

/-- The lower median of a list under a strict order. -/
def lowerMedian {α : Type} (dflt : α) (lt : α → α → Bool) (l : List α) : α := nth dflt (sortBy lt l) ((l.length - 1) / 2)

/-- The order of numbers. -/
def ltNat (a b : Nat) : Bool := decide (a < b)

/-- A tile holds conversions: it is not dark (R267). A discarded sweep loses its data and not the conversions that follow (R262,
R266). -/
def Dev.sweeps (d : Dev) (t : Nat) : Bool := !d.isDark t

/-- Candidate work of a tile: from pass 4 on, in a tile that is neither skipped nor one whose sweep was discarded, which stages its
active masks unchanged (R264, R266, R267). -/
def Dev.trims (d : Dev) (t : Nat) : Bool := decide (4 ≤ d.cal.pass) && !(d.calTile t).skip && !(d.calTile t).aborted

/-! ## Pass conversions (R262, R263, R266) -/

/-- A tile whose sweep was discarded still forms a median (R266, R275, log 131). -/
def CalTile.reforms (x : CalTile) : Bool := x.aborted && x.median == 0

/-- A pass measurement of pixel `i` in pass `k`: for its mean in passes 0 to 3, and in a discarded sweep until the tile has a median
again (R268, R280, log 131). -/
def CalTile.measure (x : CalTile) (k i code : Nat) : CalTile :=
  if k < 4 ∨ x.reforms = true then { x with meas := SMap.upd [] x.meas i (fun l => code :: l) }
  else { x with sSum := x.sSum + code, sqSum := x.sqSum + code * code, sqN := x.sqN + 1 }

/-- Pass that conversion c of the lamp frame belongs to (R263). -/
def Dev.convPassNo (d : Dev) (c : Nat) : Nat := if d.cal.pointer + c < 5632 then d.cal.pass else d.cal.pass + 1

/-- Pixels that await pass conversion c: the measurements that are owed, its own pixel last; none past pass 15 (R263, R266). -/
def Dev.passQueue (d : Dev) (t c : Nat) : List Nat :=
  if 16 ≤ d.convPassNo c then [] else ((d.calTile t).owed ++ [(d.cal.pointer + c) % 5632]).filter (d.eligible t)

/-- Pass conversion c: the first pixel of its queue; a discarded one stays owed. R266 repeats it "at the next conversion of its
kind" and says neither what becomes of the measurement that conversion was for nor which pass a late one counts in: here the tile's
later measurements move down the queue, and one of pass 3 that comes after the end of that pass counts in pass 4, so that its pixel's
m is the mean of three (DEDUCED, log 145). -/
def Dev.convPass (d : Dev) (t c code : Nat) (discard : Bool) : Dev :=
  let k := d.convPassNo c
  if 16 ≤ k then d
  else
    let queue := d.passQueue t c
    match queue with
    | [] => d.onCalTile t (fun x => { x with owed := [] })
    | j :: rest =>
      if discard then d.onCalTile t (fun x => { x with owed := queue })
      else d.onCalTile t (fun x => { x.measure k j code with owed := rest })

/-! ## Reference conversions (R270) -/

/-- The reference conversion: unit cells 0 to 15 alone and then the selected twelve, in rotation. -/
def Dev.convRef (d : Dev) (t code : Nat) (discard : Bool) : Dev :=
  if discard then d
  else d.onCalTile t (fun x => { x with
    refTurn := (x.refTurn + 1) % 17, cellSums := updNth x.cellSums x.refTurn (fun s => (s.1 + code, s.2 + 1)) })

/-! ## Candidates (R264, R269) -/

/-- The finger masks: ten of twelve, in increasing value. -/
def masks10 : List Nat := (List.range 4096).filter (fun k => popcount 12 k == 10)

/-- |a − b|. -/
def absDiff (a b : Int) : Nat := (a - b).natAbs

/-- Current of mask `k` as the basis conversions give it: `codes` holds s_all and d[0] to d[11]. -/
def maskEst (codes : List Nat) (k : Nat) : Int :=
  let sAll : Int := (nth 0 codes 0 : Nat)
  ((List.range 12).filter (fun n => !bit k n)).foldl (fun acc n => acc - (sAll - (nth 0 codes (n + 1) : Nat))) sAll

/-- The mask with its error, and the least error of any mask. -/
structure Choice where
  best : Nat
  bestErr : Nat
  limErr : Nat
  deriving DecidableEq, Repr, Inhabited

/-- One mask of the search. -/
def chooseStep (codes : List Nat) (m med : Nat) (settling : Bool) (c : Choice) (k : Nat) : Choice :=
  let est := maskEst codes k
  let err := absDiff est med
  let c := if err < c.limErr then { c with limErr := err } else c
  if !settling && decide (8 * m < absDiff est m * 10000) then c
  else if err < c.bestErr then { c with best := k, bestErr := err } else c

/-- The finger set chosen from the basis conversions. -/
def chooseMask (codes : List Nat) (cur m med : Nat) (settling : Bool) : Choice :=
  let e := absDiff m med
  masks10.foldl (chooseStep codes m med settling) { best := cur, bestErr := e, limErr := e }

/-- A chosen set is accepted: `v8` is the sum of its eight verifications. -/
def acceptMask (v8 m med : Nat) (settling : Bool) : Bool :=
  (settling || decide (absDiff v8 (8 * m) * 1000 ≤ 8 * m)) && decide (absDiff v8 (8 * med) < 8 * absDiff m med)

/-- A free place. -/
def freePlace : Cand := { pixel := 5632, codes := [], best := none }

/-- Put a candidate in place `j`. -/
def CalTile.setPlace (x : CalTile) (j : Nat) (c : Cand) : CalTile :=
  { x with cands := setNth (x.cands ++ List.replicate (j + 1 - x.cands.length) freePlace) j c }

/-- The candidate whose conversion place `j` takes: the one in work, or the next eligible pixel. -/
def Dev.candAt (d : Dev) (t j : Nat) : Option Cand :=
  let x := d.calTile t
  let c := nth freePlace x.cands j
  if d.eligible t c.pixel then some c
  else ((List.range tilePixels).find? (fun i => decide (x.nextCand ≤ i) && d.eligible t i && (SMap.get none x.m i).isSome)).map
    (fun i => { pixel := i, codes := [], best := none })

/-- A result of candidate `c` in place `j`; `cur` is its active mask. -/
def CalTile.candResult (x : CalTile) (j : Nat) (c : Cand) (cur code : Nat) (settling : Bool) : CalTile :=
  let codes := c.codes ++ [code]
  let m := (SMap.get none x.m c.pixel).getD 0
  let x := { x with nextCand := Nat.max x.nextCand (c.pixel + 1) }
  if codes.length = 13 then
    let ch := chooseMask codes cur m x.median settling
    let x := { x with limited := x.limited + b1 (decide (15 * x.median < ch.limErr * 10000)) }
    x.setPlace j (if ch.best = cur then freePlace else { c with codes := codes, best := some (BitVec.ofNat 12 ch.best) })
  else if codes.length = 21 then
    let ok := acceptMask (sumNat (codes.drop 13)) m x.median settling
    let x := if ok then { x with accepted := SMap.set 0 x.accepted c.pixel (c.best.getD 0) } else x
    x.setPlace j freePlace
  else x.setPlace j { c with codes := codes }

/-- A candidate conversion in place `j`. -/
def State.convCand (s : State) (t j code : Nat) : State :=
  match s.dev.candAt t j with
  | none => s
  | some c =>
    let cur := (s.cell (pixelAt t c.pixel)).trim.toNat
    s.onDev (fun d => d.onCalTile t (fun x => x.candResult j c cur code (d.cal.settle != 0)))

/-- The finger set of a candidate's next conversion: all twelve, all but finger n, or the set to verify (R264). -/
def Cand.fingers (c : Cand) : BitVec 12 :=
  let k := c.codes.length
  if k = 0 then BitVec.allOnes 12
  else if k ≤ 12 then BitVec.allOnes 12 &&& ~~~(1#12 <<< (k - 1))
  else c.best.getD 0

/-- Conversion `c` of the lamp frame is still to run in tile `t`: in the period of the tile that holds it, four to a period (R58,
R262, R266, R273). Between the end of pass 15 and the trim-commit tick reference conversions are idle too, where R273 names the other two
kinds (DESIGN CHOICE, log 163). -/
def State.converts (s : State) (t c : Nat) : Bool :=
  let d := s.dev
  s.tileRuns t && decide (t < 192) && d.measures (t % 16) && c / 4 == (d.groupPeriod (t % 16)).1 && d.sweeps t && !d.cal.staging &&
    !d.cal.stopped && decide ((d.calTile t).nextConv ≤ c)

/-- The pixel that conversion `c` of tile `t` drives and its finger set; the reference conversion and an idle one drive none
(R262 to R264, R267). -/
def State.convDrive (s : State) (t c : Nat) : Option (Nat × BitVec 12) :=
  let d := s.dev
  if c < d.base then (d.passQueue t c).head?.map (fun i => (i, (s.cell (pixelAt t i)).trim))
  else if c = d.base ∨ d.trims t = false then none
  else (d.candAt t (c - d.base - 1)).map (fun x => (x.pixel, x.fingers))

/-- TILE_SENSE holds the last completed measurement of a pixel (R28, R53, log 110). -/
def Tile.sense (x : Tile) (drive : Option (Nat × BitVec 12)) (code : Nat) : Tile :=
  match drive with
  | some e => { x with senseCode := code, sensePixel := e.1, senseValid := true }
  | none => x

/-- CONVERSION: conversion `c` of tile `t` in this lamp frame ends with result `code`. A candidate's discarded conversion is repeated in the
candidate's own place in the next lamp frame, which is here the next conversion of its kind (R266; DEDUCED, log 145). -/
def State.conversion (s : State) (t c code : Nat) : State :=
  let d := s.dev
  let n := d.base
  if !s.converts t c then s
  else
    let discard := decide (d.now < d.cal.discardUntil + 4 * d.slot)
    let drive := if discard then none else s.convDrive t c
    let s := s.onDev (fun d => (d.onCalTile t (fun x => { x with nextConv := c + 1 })).onTile t (fun x => x.sense drive code))
    if c < n then s.onDev (fun d => d.convPass t c code discard)
    else if c = n then s.onDev (fun d => d.convRef t code discard)
    else if d.trims t = true ∧ discard = false then s.convCand t (c - n - 1) code
    else s

/-- CONVERSION. -/
def execConversion (tile c code : Nat) (s : State) : Host.Outcome State Fault Refusal := .next (s.conversion tile c code)

/-! ## The end of pass 3 (R267, R268) -/

/-- Mean of a pixel's pass measurements, in whole codes. -/
def meanOf (l : List Nat) : Nat := sumNat l / l.length

/-- The means of a tile's eligible pixels that have measurements. -/
def Dev.tileMeans (d : Dev) (t : Nat) : SMap (Option Nat) :=
  ((d.calTile t).meas.filter (fun e => d.eligible t e.1)).map (fun e => (e.1, some (meanOf e.2)))

/-- The means `m` and their lower median M_t. -/
def CalTile.form (x : CalTile) (m : SMap (Option Nat)) : CalTile :=
  { x with m := m, meas := [], median := lowerMedian 0 ltNat (m.map (fun e => e.2.getD 0)) }

/-- Pixels of a tile that are eligible (R267). -/
def Dev.eligibleCount (d : Dev) (t : Nat) : Nat := (List.range tilePixels).countP (d.eligible t)

/-- A tile forms its means and its median, or is skipped; one whose sweep was discarded and that has too few measurements since goes
on measuring (log 131). -/
def Dev.formTile (d : Dev) (t : Nat) : Dev :=
  if !d.sweeps t then d
  else
    let m := d.tileMeans t
    if 2816 ≤ m.length then d.onCalTile t (fun x => x.form m)
    else if (d.calTile t).aborted = true ∧ 2816 ≤ d.eligibleCount t then d
    else (d.onCalTile t (fun x => { x with skip := true, m := m, meas := [] })).raise 90

/-- The tiles that take part in T_ARR, and whose reference has a target: neither dark nor skipped, and with a median where the sweep
was discarded (R267, R268). -/
def Dev.partakes (d : Dev) (t : Nat) : Bool := d.sweeps t && !(d.calTile t).skip && !(d.calTile t).reforms

/-- ρ_t of tile `t` for the median tile `a` (R268). -/
def CalTile.target (x : CalTile) (a : Nat × Nat) (iu : Nat) : CalTile := { x with rho := (a.1 * iu, a.2 * x.median) }

/-- Medians and reference targets; the tile of the median stands for T_ARR as M × 500 / IU_NA. -/
def Dev.formTargets (d : Dev) : Dev :=
  let ts := (List.range 192).filter d.partakes
  let ms := ts.map (fun t => ((d.calTile t).median, d.iuNa t))
  let a := lowerMedian (0, 1) (fun p q => decide (p.1 * q.2 < q.1 * p.2)) ms
  let d := d.onCal (fun c => { c with tArrNow := if ts.isEmpty then 0 else a.1 * 500 / a.2, tArrOf := a })
  ts.foldl (fun d t => d.onCalTile t (fun x => x.target a (d.iuNa t))) d

/-- A tile whose sweep was discarded forms its median and its reference target at the end of pass 15, if it has not by then and the
rest of the sweep gave it the 2,816 measurements that R267 asks for (R275, R330, log 131). -/
def Dev.formLate (d : Dev) (t : Nat) : Dev :=
  let x := d.calTile t
  let m := d.tileMeans t
  if d.sweeps t && !x.skip && x.reforms && decide (2816 ≤ m.length) && d.cal.tArrOf.1 != 0 then
    d.onCalTile t (fun x => (x.form m).target d.cal.tArrOf (d.iuNa t))
  else d

/-! ## The end of pass 15 (R270, R273, R280) -/

/-- Σ of the cell currents of a set of unit cells, in 1/`den` codes. -/
def cellSum (cs : List Nat) (set : Nat) : Nat := sumNat ((List.range 16).map (fun u => if bit set u then nth 0 cs u else 0))

/-- The mean currents of the 16 unit cells over a common denominator. -/
def cellMeans (sums : List (Nat × Nat)) : List Nat :=
  let den := sums.foldl (fun a s => a * s.2) 1
  sums.map (fun s => s.1 * den / s.2)

/-- The set of 12 unit cells nearest to ρ × Σ, in steps of at most 0.05 % unless settling; the lowest mask of equals. -/
def chooseCells (sums : List (Nat × Nat)) (cur : Nat) (rho : Nat × Nat) (settling : Bool) : Nat :=
  let cs := cellMeans sums
  let was := cellSum cs cur
  let sets := (List.range 65536).filter (fun k => popcount 16 k == 12 &&
    (settling || decide (absDiff (cellSum cs k) was * 10000 ≤ 5 * was)))
  let err (k : Nat) : Nat := absDiff (cellSum cs k * rho.2) (rho.1 * was)
  match sets with
  | [] => cur
  | k :: ks => ks.foldl (fun b k => if err k < err b then k else b) k

/-- The integer square root. -/
def isqrt (n : Nat) : Nat :=
  (List.range 64).foldl (fun r i => let c := r + 2 ^ (63 - i)
                                    if c * c ≤ n then c else r) 0

/-- Three times the rms deviation from M_t in 0.001 %, truncated, and held at 65,535 where its field cannot show it (R280 gives no value there:
DESIGN CHOICE, log 165). -/
def CalTile.resid (x : CalTile) : Nat :=
  let dev : Int := (x.sqSum : Nat) - 2 * (x.median : Nat) * (x.sSum : Nat) + (x.sqN : Nat) * (x.median : Nat) * (x.median : Nat)
  if x.sqN = 0 ∨ x.median = 0 then 0
  else Nat.min 65535 (isqrt (9 * dev.toNat * 10000000000 / (x.sqN * x.median * x.median)))

/-- The reference step in 0.001 %; a free value when the sum is 0, for which the manual states none. -/
def refStep (draw : Nat) (sums : List (Nat × Nat)) (old new : Nat) : Int :=
  let cs := cellMeans sums
  let was := cellSum cs old
  if was = 0 then Config.freeInt draw
  else Int.tdiv ((((cellSum cs new : Nat) : Int) - (was : Nat)) * 100000) (was : Nat)

/-- Charge and wear factor as CAL_WEAR_Q and CAL_WEAR report them from a sweep's end on (R280). -/
def CalTile.reportWear (x : CalTile) : CalTile := { x with rQ := x.q / 1000000, rWear := x.wear }

/-- One tile ends its sweep: it drops what lost eligibility, chooses its unit cells, reports, and requests TRIM passes. After a
tile-reference takeover its masks stay, and its reference is corrected without a step limit (R266, R272, R275, R330, log 131). -/
def Dev.endTile (d : Dev) (t : Nat) : Dev :=
  if d.isDark t then d
  else
    let d := d.formLate t
    let x := d.calTile t
    let works := d.partakes t
    let acc : SMap (BitVec 12) := if works && !x.aborted then x.accepted.filter (fun e => d.eligible t e.1) else []
    let old := d.activeCells t
    let known := works && x.cellSums.all (fun s => s.2 != 0)
    let new := if known then chooseCells x.cellSums old x.rho (d.cal.settle != 0 || x.refSettle) else old
    let step := if known then refStep d.cal.draws x.cellSums old new else 0
    let d := d.onCal (fun c => { c with draws := c.draws + 1 })
    let d := d.onCalTile t (fun x => { x with
      accepted := acc, cands := [], owed := [], newCells := if known then some (BitVec.ofNat 16 new) else none
      rMedian := if works then x.median else 0, rEligible := d.eligibleCount t, rSkip := x.skip, rAborted := x.aborted
      rAccepted := acc.length, rLimited := x.limited, rResid := if works then x.resid else 0, rRefStep := step })
    d.onTile t (fun y => { y with trimDue := 15 })

/-- The sweep ends for every tile; CAL_LIMITED when a tile's count has risen. -/
def Dev.endSweep (d : Dev) : Dev :=
  let more := (List.range 192).any (fun t => !d.isDark t && decide ((d.calTile t).rLimited < (d.calTile t).limited))
  let d := (List.range 192).foldl (fun d t => (d.endTile t).onCalTile t CalTile.reportWear) d
  let skipped := (List.range 192).countP (fun t => !d.isDark t && (d.calTile t).rSkip)
  let d := d.onCal (fun c => { c with tArr := c.tArrNow, skipped := skipped, staging := true, stagingTicks := 0, pointer := 0 })
  d.raiseIf more 91

/-- CAL_PASS_END: the pass pointer has completed a pass. -/
def execCalPassEnd (s : State) : Host.Outcome State Fault Refusal :=
  .next (s.onDev (fun d =>
    if !(d.cal.passEndDue && d.pwr.mainOn) then d
    else
      let d := d.onCal (fun c => { c with passEndDue := false })
      if d.cal.pass = 15 then d.endSweep
      else
        let d := if d.cal.pass = 3 then ((List.range 192).foldl (fun d t => d.formTile t) d).formTargets else d
        d.onCal (fun c => { c with pass := c.pass + 1 })))

/-! ## Wear (R279) -/

/-- The wear factor that a tile's charge calls for. -/
def Dev.wearTarget (d : Dev) (q : Nat) : Nat :=
  if !d.wearEn then 4096
  else 4096 + Nat.min 819 (interp (d.wearUplifts.map (fun p => ((p.1 * 16000000 : Nat), p.2))) q)

/-- WEAR_t at a trim-commit tick. -/
def Dev.stepWear (d : Dev) (t : Nat) (free : Bool) : Dev :=
  let x := d.calTile t
  let want := d.wearTarget x.q
  let w := Nat.max x.wear (if free then want else Nat.min want (x.wear + 2))
  let cap := decide (4915 ≤ w) && !x.capSent
  let d := d.onCalTile t (fun x => { x with wear := w, capSent := x.capSent || cap })
  if cap then (d.raise 92).send t 0x0F 1 0 else d

/-! ## Trim commit (R47, R273, R274, R432) -/

/-- A staged tile takes its reference selection and wear factor; an unstaged one is reported. A dark tile makes no copy and sends no
message, as at any other tick (log 123); its TRIM flags are cleared (R45). -/
def Dev.commitTile (d : Dev) (t : Nat) : Dev :=
  if d.isDark t then d.onTile t (fun y => { y with trim := 0 })
  else if (d.tile t).trimStaged then
    let b := d.chg.refActiveB t
    let new := (d.calTile t).newCells
    let d := d.onTile t (fun y => { y with
      trim := 0, trimDue := 0, cellsA := if b then y.cellsA else new.getD y.cellsA, cellsB := if b then new.getD y.cellsB else y.cellsB })
    d.stepWear t d.cal.commitFirst
  else
    let d := d.onTile t (fun y => { y with trim := 0, trimDue := 0 })
    ((d.onCal (fun c => { c with stageMisses := satInc 65535 c.stageMisses })).raise 89).send t 0x05 0 0

/-- A tile begins a new sweep. Its reference rotation begins again at unit cell 0: R270 gives the order of the 17 settings and not whether it
goes on from one sweep to the next (DESIGN CHOICE, log 163). -/
def CalTile.newSweep (x : CalTile) : CalTile :=
  { x with
    meas := [], m := [], median := 0, skip := false, aborted := false, cands := [], nextCand := 0, accepted := [], limited := 0
    sSum := 0, sqSum := 0, sqN := 0, owed := [], refTurn := 0, cellSums := List.replicate 16 (0, 0), rho := (0, 1)
    newCells := none, refSettle := x.refSettle && x.aborted }

/-- The active masks after the commit: those of staged tiles come from the shadow masks. -/
def State.committedCells (s : State) : SMap Cell :=
  SMap.mapAll {} (fun p c =>
    let t := s.dev.tile (tileOf p)
    if !t.dark && t.trimStaged then { c with trim := c.shadowTrim } else c) s.cells

/-- Index of a mask among the 66 (R432). -/
def maskIndex (mask : Nat) : Nat := masks10.idxOf mask

/-- The ledger cache: where part `p` of the image begins (R245, R432). -/
def cachePart (p : Nat) : Nat := 0x37000000 + 2464 * p

/-- The image in the cache with the reference selections, as bodies of TRIM records (R432). -/
def State.cacheImage (s : State) : List Bytes :=
  (List.range 384).map (fun p =>
    let x := s.dev.tile (p / 2)
    s.memNow.bytes s.dev.memc.draws (cachePart p) 2464 ++
      (if p % 2 = 0 then toBe 2 x.cellsA.toNat ++ toBe 2 x.cellsB.toNat else []))

/-- TRIM_COMMIT: what takes effect at a trim-commit tick. -/
def State.trimCommit (s : State) : State :=
  if !(s.dev.cal.commitDue && s.dev.frm.ticked && !s.dev.cal.stopped && s.dev.pwr.mainOn) then s
  else
    let d0 := s.dev
    let s := { s with cells := s.committedCells }
    let s := s.onDev (fun d => (List.range 192).foldl (fun d t => d.commitTile t) d)
    let s := if d0.memc.dramLess || d0.cal.commitFirst then
        s.onDev (fun d => d.onLedg (fun l => { l with toPack := [] }))
      else
        let image := s.cacheImage
        s.onDev (fun d => ((d.onLedg (fun l => { l with image := some image })).onMemc (fun m => { m with draws := m.draws + 1 })).countReads
          (granulesIn (cachePart 0) (cachePart 384)) (d.memc.forwardsIn (cachePart 0) (cachePart 384)))
    s.onDev (fun d =>
      let sum (f : CalTile → Nat) : Nat := sumNat ((List.range 192).map (fun t => if d.isDark t then 0 else f (d.calTile t)))
      let misses := d0.litTiles.countP (fun t => !(d0.tile t).trimStaged)
      let d := d.onLedg (fun l => { l with
        calHist := ([d.lampS, d.cal.tArr, d.cal.skipped, misses, sum (·.rAccepted), sum (·.rLimited)] :: l.calHist).take 8 })
      (d.onCal (fun c => { c with
        tiles := SMap.mapAll {} (fun _ x => x.newSweep) c.tiles
        settle := if c.commitFirst then c.settle else c.settle - 1
        staging := false, stagingTicks := 0, commitDue := false, commitFirst := false, pass := 0, pointer := 0, tArrOf := (0, 1)
        commits := satInc 65535 c.commits, lastTick := d.frm.tick })).raise 88)

/-- TRIM_COMMIT. -/
def execTrimCommit (s : State) : Host.Outcome State Fault Refusal := .next s.trimCommit

end Sys2Proof.Machine
end

