-- ==== Sys2Proof/Machine/Diagnostics.lean ====
section
/-! DEFINITION. Pixel diagnostics (R81 to R83, R282 to R297): judgements of drive pulses, the probe and checker windows, the
HEALTH entry with its confirmed findings, aggregation, overdue pixels and the pixel health map, and the readback rounds of
R52. -/

namespace Sys2Proof.Machine

/-! ## Judgements (R282) -/

/-- Cell current below 25 % of `full`, C × Iu × F in parts of 1 nA. -/
def pixOpen (full : Nat) (x : PixSample) : Bool := decide (4 * x.cur * naParts < full)

/-- Emitter voltage below 1.20 V while the cell delivers 75 % of `full` or more. -/
def pixShort (full : Nat) (x : PixSample) : Bool := decide (x.emitter < 1200) && decide (3 * full ≤ 4 * x.cur * naParts)

/-- The findings on tile-local index `i` at C × Iu × F `full`: OPEN and SHORT; a pixel that the list leaves out shows neither. -/
def findingsOf (samples : List PixSample) (i full : Nat) : Bool × Bool :=
  match samples.find? (fun x => x.idx == i) with
  | some x => (pixOpen full x, pixShort full x)
  | none => (false, false)

/-- Findings join the status of a cell (R35). -/
def Cell.flag (c : Cell) (f : Bool × Bool) : Cell :=
  { c with status := c.status ||| (if f.1 then 1 else 0) ||| (if f.2 then 2 else 0) }

/-- A judgement for open and short, with its findings (R35, R282). -/
def Cell.judge (c : Cell) (f : Bool × Bool) : Cell := { c.flag f with judgedNow := true }

/-- The cell conducts at slot 2 of its period (R31, R81). -/
def Cell.conducts (c : Cell) : Bool :=
  decide (3 ≤ bits c.sampled.toNat 0 10) && bits c.sampled.toNat 10 6 != 0 && !c.isolate

/-- C × Iu × F of a drive pulse of pixel `p`, in parts of 1 nA: the current code of its active drive word and its active trim mask
(R31, R282). -/
def Dev.pulseFull (d : Dev) (p : Nat) (c : Cell) : Nat := d.pixelParts p (bits c.sampled.toNat 10 6) c.trim

/-- Judgements are discarded for 50 µs after a timebase give-up (R282). -/
def Dev.discards (d : Dev) : Bool := decide (d.now < d.cal.discardUntil)

/-- The headroom sample of a tile (R81 to R83): the lowest of the frame, of the lowest tile and earliest among equals. -/
def Dev.headroom (d : Dev) (t vled mv : Nat) : Dev :=
  let d := d.onArr (fun a => { a with sample := match a.sample with
    | some (c, u, v) => if mv < c ∨ (mv = c ∧ t < u) then some (mv, t, vled) else some (c, u, v)
    | none => some (mv, t, vled) })
  if mv < 180 then
    (d.onTile t (fun x => { x with lowMv := some (match x.lowMv with | some m => Nat.min m mv | none => mv) })).raise 74
  else d

/-- DRIVE_PULSE_SAMPLE: slot 2 of a drive pulse of tile `t`; the sample of the cell voltage `mv` has steps of 4 mV (R81, log 95). -/
def State.drivePulse (s : State) (t vled mv : Nat) (samples : List PixSample) : State :=
  let lit := s.cells.any (fun e => tileOf e.1 == t && e.2.conducts)
  if !(s.running && decide (t < 192) && !s.dev.isDark t && lit) then s
  else
    let s := s.onDev (fun d => d.headroom t vled (mv / 4 * 4))
    if s.dev.discards || s.dev.diag.stopped then s
    else { s with cells := SMap.mapAll {} (fun p c =>
        if tileOf p = t ∧ c.conducts then c.judge (findingsOf samples (localOf p) (s.dev.pulseFull p c)) else c) s.cells }

/-- DRIVE_PULSE_SAMPLE. -/
def execDrivePulseSample (tile vledMv cellMv : Nat) (samples : List PixSample) (s : State) :
    Host.Outcome State Fault Refusal := .next (s.drivePulse tile vledMv cellMv samples)

/-! ## Windows of period N_base − 1 (R283 to R285, R294) -/

/-- The windows run: in period N_base − 1 of the tile in a normal frame of RUN, in tiles that are not dark (R58, R283). Diagnostics
makes no conversion in them and leaves TILE_SENSE as it stands (log 124). -/
def State.windowRuns (s : State) (t : Nat) : Bool :=
  s.tileRuns t && decide (t < 192) && s.dev.windows (t % 16) && !s.dev.isDark t && !s.dev.diag.stopped

/-- n_d of the frame whose last base period a tile runs: a tile that has not yet begun the new frame runs it after the tick that
has advanced n_d (R48, R283). -/
def Dev.ndOf (d : Dev) (t : Nat) : Nat := if d.frm.started (t % 16) = 0 then d.diag.nd - 1 else d.diag.nd

/-- The pixel lies inside an active sector in the frame that is lit, for its tile the one whose periods it still runs (R148). -/
def Dev.inSector (d : Dev) (p : Nat) : Bool :=
  SMap.get false (if d.frm.started (tileOf p % 16) = 0 then d.diag.sectBefore else d.diag.sectMap) p

/-- A skip marks the pixel overdue (R294). -/
def Pix.skip (x : Pix) (checker : Bool) : Pix :=
  { x with overdue := true, overdueSect := true, owedJudge := true, owedCycle := true, skippedCycle := x.skippedCycle || checker }

/-- The pixel is isolated, by its cell or by its class. -/
def State.isIsolated (s : State) (p : Nat) : Bool := (s.cell p).isolate || (s.dev.pix p).isolated

/-- Pixels whose probe turn it is in a tile (R284), before the sector policy. -/
def State.probeTurn (s : State) (t : Nat) : List Nat :=
  ((List.range 5632).map (pixelAt t)).filter (fun p =>
    localOf p % 64 == s.dev.ndOf t % 64 && (s.dev.pix p).unmeas && !s.isIsolated p)

/-- Up to eight pixels that await the confirmation of a probe finding. -/
def State.probeExtra (s : State) (t : Nat) : List Nat :=
  (((List.range 5632).map (pixelAt t)).filter (fun p =>
    Nat.land (s.dev.pix p).pending (s.dev.pix p).byProbe != 0 && !s.isIsolated p)).take 8

/-- The sector policy skips the pixel's probe (R148). -/
def Dev.probeSkips (d : Dev) (p : Nat) : Bool := d.policy != 0 && d.inSector p

/-- A probe judges the cell: a finding that does not stand in it from another judgement is the probe's, and goes with the next
capture (R35, R287). -/
def Cell.probe (c : Cell) (f : Bool × Bool) : Cell :=
  let own := Nat.land (b1 f.1 + 2 * b1 f.2) (3 - bits c.status.toNat 0 2)
  { c.judge f with probed := true, probeFound := Nat.lor c.probeFound own }

/-- One probe, at current code 4: it judges the pixel, and finding neither fault clears its UNMEAS mark (R282, R284). -/
def State.probe (s : State) (samples : List PixSample) (p : Nat) : State :=
  let f := findingsOf samples (localOf p) (s.dev.pixelParts p 4 (s.cell p).trim)
  let s := { s with cells := SMap.upd {} s.cells p (fun c => c.probe f) }
  if f.1 || f.2 then s else s.onDev (fun d => d.onPix p (fun x => { x with unmeas := false }))

/-- The pixels that a tile's probe window drives (R148, R284). -/
def State.probeSet (s : State) (t : Nat) : List Nat :=
  let turn := s.probeTurn t
  (turn ++ (s.probeExtra t).filter (fun p => !turn.contains p)).filter (fun p => !s.dev.probeSkips p)

/-- PROBE_WINDOW of a tile, once in its period N_base − 1. -/
def State.probeWindow (s : State) (t : Nat) (samples : List PixSample) : State :=
  if !s.windowRuns t || (s.dev.dtile t).probed then s
  else
    let skipped := (s.probeTurn t).filter s.dev.probeSkips
    let probed := s.probeSet t
    let s := s.onDev (fun d => (skipped.foldl (fun d p => d.onPix p (fun x => x.skip false)) d).onDtile t (fun y =>
      { y with probed := true }))
    if s.dev.discards then s else probed.foldl (fun s p => s.probe samples p) s

/-- PROBE_WINDOW. -/
def execProbeWindow (tile : Nat) (samples : List PixSample) (s : State) : Host.Outcome State Fault Refusal :=
  .next (s.probeWindow tile samples)

/-- The driven set of a checker phase (R285, log 109). -/
def checkerDriven (phase p : Nat) : Bool :=
  let x := p % 1536
  let y := p / 1536
  if phase = 0 then (x + y) % 2 == 0 else if phase = 1 then x % 2 == 0 else if phase = 2 then (x + y) % 2 == 1 else y % 2 == 0

/-- POLICY 2 leaves the pixel out of a checker phase (R148, R285). -/
def Dev.checkerSkips (d : Dev) (p : Nat) : Bool := d.policy == 2 && d.inSector p

/-- The pixel is driven in its tile's checker window (R148, R285). -/
def State.checkerDrives (s : State) (p : Nat) : Bool :=
  checkerDriven (s.dev.ndOf (tileOf p) % 4) p && !s.isIsolated p && !s.dev.checkerSkips p

/-- CHECKER_WINDOW of a tile, once in its period N_base − 1: `above` lists the tile-local indices of pixels whose anode is above
0.80 V. -/
def State.checkerWindow (s : State) (t : Nat) (above : List Nat) : State :=
  if !s.windowRuns t || (s.dev.dtile t).checked then s
  else
    let ph := s.dev.ndOf t % 4
    let ps := (List.range 5632).map (pixelAt t)
    let skipped := ps.filter (fun p => s.dev.checkerSkips p && !s.isIsolated p)
    let flagged := (above.filter (fun i => decide (i < 5632))).map (pixelAt t) |>.filter (fun p =>
      !checkerDriven ph p && !s.isIsolated p && !s.dev.checkerSkips p)
    let cells := if s.dev.discards then s.cells
      else flagged.foldl (fun m p => SMap.upd {} m p (fun c => { c with status := c.status ||| 4 })) s.cells
    ({ s with cells := cells } : State).onDev (fun d =>
      let d := skipped.foldl (fun d p => d.onPix p (fun x => x.skip true)) d
      d.onDtile t (fun y => { y with phases := y.phases.map (fun l => l ++ [ph]), checked := true }))

/-- CHECKER_WINDOW. -/
def execCheckerWindow (tile : Nat) (above : List Nat) (s : State) : Host.Outcome State Fault Refusal :=
  .next (s.checkerWindow tile above)

/-! ## The cycle of the checker (R288) -/

/-- A pixel flagged in phase `k`, in a tile whose cycle is complete. -/
def Dev.inS (d : Dev) (p k : Nat) : Bool := (d.pix p).nshort.getLsbD k && !(d.dtile (tileOf p)).incomplete

/-- Neighbours `a` and `b` are candidates for each other. -/
def Dev.candidates (d : Dev) (a b : Nat) : Bool :=
  ((d.inS a 0 && d.inS b 2) || (d.inS a 2 && d.inS b 0)) &&
  (if a / 1536 = b / 1536 then d.inS (if a % 2 = 1 then a else b) 1
   else d.inS (if a / 1536 % 2 = 1 then a else b) 3)

/-- The candidates of a pixel. -/
def Dev.candsOf (d : Dev) (p : Nat) : List Nat := (neighbours p).filter (d.candidates p)

/-- The pixels that flagged in phase 0 or 2. -/
def Dev.flagged02 (d : Dev) : List Nat :=
  (d.diag.pix.map (·.1)).filter (fun p => d.inS p 0 || d.inS p 2)

/-- Resolved pairs, lower member first. -/
def Dev.resolvedPairs (d : Dev) : List (Nat × Nat) :=
  d.flagged02.filterMap (fun p =>
    match d.candsOf p with
    | [q] => if p < q ∧ d.candsOf q = [p] then some (p, q) else none
    | _ => none)

/-- Unresolved pixels. -/
def Dev.unresolved (d : Dev) : List Nat := d.flagged02.filter (fun p => (d.candsOf p).length != 1)

/-! ## Findings and their messages (R287 to R289) -/

/-- A confirmed finding: the tile that sends it, its kind, its address and the pixels whose class it would change. -/
structure Finding where
  tile : Nat
  kind : Nat
  addr : Nat
  pixels : List Nat
  deriving DecidableEq, Repr, Inhabited

/-- A pixel with its partner, if it is tied. -/
def Dev.withPartner (d : Dev) (p : Nat) : List Nat :=
  match d.partner p with
  | some q => [p, q]
  | none => [p]

/-- Open and short findings that captures have confirmed. -/
def Dev.pixelFindings (d : Dev) : List Finding :=
  (d.diag.pix.filter (fun e => !e.2.isolated)).flatMap (fun e =>
    ([0, 1].filter (bit e.2.confirmed)).map (fun b =>
      { tile := tileOf e.1, kind := 0x09 + b, addr := e.1, pixels := d.withPartner e.1 }))

/-- Resolved pairs of GOOD pixels: PIX_NSHORT, or TIE_FULL when the tie table is full. -/
def Dev.pairFindings (d : Dev) : List Finding :=
  (d.resolvedPairs.filter (fun e => (d.pix e.1).cls == 0 && (d.pix e.2).cls == 0)).map (fun e =>
    { tile := tileOf e.1, kind := if d.diag.ties.length < 4096 then 0x0B else 0x0D
      addr := e.1 + (if e.2 = e.1 + 1 then 0 else 2 ^ 31), pixels := [e.1, e.2] })

/-- Pixels unresolved in two complete cycles in a row. -/
def Dev.unresolvedFindings (d : Dev) : List Finding :=
  (d.unresolved.filter (fun p => (d.pix p).unresolved && !(d.pix p).isolated)).map (fun p =>
    { tile := tileOf p, kind := 0x0C, addr := p, pixels := d.withPartner p })

/-- After its evaluation a cycle's flags are cleared; what an unskipped pixel owed is paid (R288, R294). -/
def Dev.closeCycle (d : Dev) (unres : List Nat) : Dev :=
  let whole (p : Nat) : Bool := !(d.dtile (tileOf p)).incomplete
  let pix := SMap.mapAll {} (fun p (x : Pix) =>
    let x := { x with nshort := 0, unresolved := if whole p then unres.contains p else false }
    let paid := whole p && !x.skippedCycle
    ({ x with owedCycle := x.owedCycle && !paid, skippedCycle := false } : Pix).settle) d.diag.pix
  d.onDiag (fun g => { g with
    pix := pix, cycleDue := false, tiles := SMap.mapAll {} (fun _ y => { y with incomplete := false }) g.tiles })

/-! ## Aggregation (R293) -/

/-- Pixels of tile `t` whose class the findings would change. -/
def changesIn (fs : List Finding) (t : Nat) : Nat :=
  ((fs.flatMap (·.pixels)).filter (fun p => tileOf p == t)).eraseDups.length

/-- A tile's episode begins, goes on or ends. -/
def Dev.aggregate (d : Dev) (fs : List Finding) (t : Nat) : Dev :=
  let n := changesIn fs t
  let agg := decide (64 < n)
  let starts := agg && !(d.dtile t).episode
  let d := if (d.dtile t).episode == agg then d else d.onDtile t (fun y => { y with episode := agg })
  let d := if (d.tile t).aggregated == agg then d else d.onTile t (fun x => { x with aggregated := agg })
  if starts then
    ((d.onDiag (fun g => { g with episodes := satInc 65535 g.episodes, aggLast := t })).raise 84).send t 0x0E 1 n
  else d

/-- A finding that is withheld stays unconfirmed; one that is sent is done with. -/
def Dev.dispose (d : Dev) (withheld : List Nat) (f : Finding) : Dev :=
  let held := f.pixels.any (fun p => withheld.contains (tileOf p))
  let d := if f.kind = 0x09 ∨ f.kind = 0x0A then
      let k := f.kind - 8
      d.onPix f.addr (fun x => { x with
        confirmed := Nat.land x.confirmed (3 - k), pending := if held then Nat.lor x.pending k else x.pending })
    else d
  if held then d else d.send f.tile f.kind 1 f.addr

/-! ## The pixel health map (R295) -/

/-- PARTNER: the direction of a tied pixel's partner. -/
def Dev.partnerCode (d : Dev) (p : Nat) : Nat :=
  match d.partner p with
  | some q => if q + 1 = p then 0 else if q = p + 1 then 1 else if q < p then 2 else 3
  | none => 0

/-- The map byte of a pixel with a GLITCH field. -/
def Dev.mapByte (d : Dev) (p glitch : Nat) : Nat :=
  let x := d.pix p
  x.cls + 4 * (if x.cls = 3 then d.partnerCode p else 0) + 16 * b1 x.unmeas + 32 * b1 x.overdue + 64 * glitch

/-- GLITCH as the entry writes it back: 0 where nothing has been written since the restart or the granule is poisoned. -/
def State.glitch (s : State) (po : List Nat) (p : Nat) : Nat :=
  if poisonedAt po (0x36000000 + p) then 0
  else Nat.min 3 (((s.memNow.read (0x36000000 + p)).map (fun b => b.toNat / 64)).getD 0 + (s.dev.pix p).glitches)

/-- A granule of the health map has been read poisoned (R257, R297). -/
def Dev.mapPoisoned (d : Dev) (a : Nat) : Dev := (d.uncorrectable a).raise 86

/-- The map is read and written; the counts of unconfirmed findings have gone into it. -/
def State.writeMap (s : State) (po co : List Nat) : State :=
  if s.dev.memc.dramLess then s.onDev (fun d => d.onDiag (fun g => { g with mapValid := false }))
  else
    let m := s.dev.memc
    let po := m.fromDram po
    let n := m.forwardsIn 0x36000000 (0x36000000 + nPixels)
    let bs := (List.range nPixels).map (fun p => BitVec.ofNat 8 (s.dev.mapByte p (s.glitch po p)))
    let bad := po.filter (fun a => decide (0x36000000 ≤ a) && decide (a < 0x36000000 + nPixels))
    (s.writeMem 0x36000000 bs).onDev (fun d =>
      let d := bad.foldl Dev.mapPoisoned (d.entryReads (nPixels / 32) n [] (m.fromDram co))
      d.onDiag (fun g => { g with
        mapValid := true, pix := SMap.mapAll {} (fun _ x => { x with glitches := 0 }) g.pix }))

/-! ## HEALTH -/

/-- A cycle is evaluated: its last frame has ended, and every phase group has run on into the next one, so that phase 3 is over
in all tiles (R48, R288). -/
def Dev.cycleOver (d : Dev) : Bool := d.diag.cycleDue && (List.range 16).all (fun g => d.frm.started g != 0)

/-- HEALTH: entry `i` of the schedule; `poison` lists the granules of the map read uncorrectable, `corrected` an element for each
error corrected. -/
def State.health (s : State) (i doneAt : Nat) (poison corrected : List Nat) : State :=
  if !s.entryReady i 7 then s
  else
    let s := s.onDev (fun d =>
      let d := d.begin i (some doneAt)
      if d.diag.stopped then d
      else
        let d := d.processReturned
        let due := d.cycleOver
        let unres := if due then d.unresolved else []
        let fs := d.pixelFindings ++ (if due then d.pairFindings ++ d.unresolvedFindings else [])
        let d := if due then d.closeCycle unres else d
        let withheld := (List.range 192).filter (fun t => decide (64 < changesIn fs t))
        let d := (List.range 192).foldl (fun d t => d.aggregate fs t) d
        let d := fs.foldl (fun d f => d.dispose withheld f) d
        let late := d.diag.pix.any (fun e => e.2.overdue)
        let d := d.raiseIf (late && !d.diag.wasOverdue) 85
        d.onDiag (fun g => { g with
          aggTiles := withheld.length, unmeas := g.pix.countP (fun e => e.2.unmeas), wasOverdue := late }))
    s.writeMap poison corrected

/-- HEALTH. -/
def execHealth (i doneAt : Nat) (poison : List Nat) (s : State) (corrected : List Nat := []) : Host.Outcome State Fault Refusal :=
  .next (s.health i doneAt poison corrected)

/-! ## Readback rounds (R52) -/

/-- SAFE_READBACK_DUE: 1,024 lamp frames have passed, and every tile that is not dark owes one READ a chain. -/
def execSafeReadbackDue (s : State) : Host.Outcome State Fault Refusal :=
  .next (s.onDev (fun d =>
    if s.running && d.arr.framesLeft == 0 && !d.arr.roundOn then
      (d.onArr (fun a => { a with roundOn := true, sinceRead := 0 })).onTiles (fun _ x =>
        if x.dark then x else { x with readDue := 15, reads := [none, none, none, none] })
    else d))

end Sys2Proof.Machine
end

