-- ==== Sys2Proof/Machine/Scan.lean ====
section
/-! DEFINITION. The scan engines CE2 and CE3 (R339 to R351): their configuration, the bytes they read, the CRC over fold word
and data, and the judgement of an entry. -/

namespace Sys2Proof.Machine

/-! ## Configuration (R339, R343, R344) -/

/-- POLY, INIT, XOROUT, WIDTH, REFIN and REFOUT of CE2 (false) or CE3 (true). -/
structure ScanPar where
  poly : Nat
  init : Nat
  xorOut : Nat
  width : Nat
  refIn : Bool
  refOut : Bool
  deriving DecidableEq, Repr, Inhabited

/-- The parameters in the scan words `word`. -/
def scanParOf (word : Nat → Nat) (ce3 : Bool) : ScanPar :=
  let b := if ce3 then 4 else 0
  { poly := word b, init := word (b + 1), xorOut := word (b + 2), width := bits (word (b + 3)) 0 6
    refIn := bit (word (b + 3)) 6, refOut := bit (word (b + 3)) 7 }

/-- The parameters in force. -/
def Dev.scanPar (d : Dev) (ce3 : Bool) : ScanPar := scanParOf d.scanWord ce3

/-- START, LENGTH and LOC of entry `e`. -/
def Dev.scanStart (d : Dev) (e : Nat) : Nat := d.scanWord (9 + 4 * e)
def Dev.scanLength (d : Dev) (e : Nat) : Nat := bits (d.scanWord (10 + 4 * e)) 0 25
def Dev.scanStore (d : Dev) (e : Nat) : Bool := bit (d.scanWord (10 + 4 * e)) 28

/-- An engine's position, and a change of it. -/
def Chk.engine (c : Chk) (ce3 : Bool) : ScanEng := if ce3 then c.ce3 else c.ce2
def Chk.onEngine (c : Chk) (ce3 : Bool) (f : ScanEng → ScanEng) : Chk :=
  if ce3 then { c with ce3 := f c.ce3 } else { c with ce2 := f c.ce2 }

/-! ## What is read (R345, R346, R390) -/

/-- `n` bytes of the configuration store from address `a`. A valid range covers bytes of sections only (R343, R390). -/
def Dev.storeBytes (d : Dev) (a n : Nat) : Bytes :=
  storeOrder.flatMap (fun id =>
    let base := storeAddr d.cfg.head id
    let bs := d.sect id
    slice bs (a - base) (Nat.min (a + n) (base + bs.length) - Nat.max a base))

/-- STORE_LEN of SYMBOLS (R388). -/
def Dev.storeLen (d : Dev) : Nat := d.sw 12 1

/-- A range of layer memory has been filled in START: what of it lies below 0x3500_0000 in the symbol store, the rest in the pixel
gains, and they are loaded (R245, R346). -/
def Dev.scanFilled (d : Dev) (a n : Nat) : Bool :=
  let m := 0x35000000
  (decide (m ≤ a) || (decide (0x34000000 ≤ a) && decide (Nat.min (a + n) m ≤ 0x34000000 + d.storeLen) && d.eng.libReady)) &&
  (decide (a + n ≤ m) || (decide (a + n ≤ 0x35210000) && d.has 7))

/-- The entry is skipped (R346). -/
def Dev.scanSkips (d : Dev) (e : Nat) : Bool :=
  !d.scanStore e && (d.memc.dramLess || !d.scanFilled (d.scanStart e) (d.scanLength e))

/-- Bytes `off` to `off` + n − 1 of entry `e` as they are read: `flips` names offsets in the entry and the bits disturbed on the
read path. -/
def State.scanRead (s : State) (e off n : Nat) (flips : List (Nat × Byte)) : Bytes :=
  let a := s.dev.scanStart e + off
  let bs := if s.dev.scanStore e then s.dev.storeBytes a n else s.memNow.bytes s.dev.memc.draws a n
  if flips.isEmpty then bs
  else bs.mapIdx (fun i b => flips.foldl (fun b f => if f.1 = off + i then b ^^^ f.2 else b) b)

/-- The CRC register after more bytes (R340). -/
def ScanPar.run (p : ScanPar) (r : Nat) (bs : Bytes) : Nat := bs.foldl (fun r b => crcByte p.width p.poly r p.refIn b) r

/-- The register after the fold word of an entry. -/
def ScanPar.begin (p : ScanPar) (fold : Nat) : Nat := p.run p.init (toBe 4 fold)

/-- The result. -/
def ScanPar.result (p : ScanPar) (r : Nat) : Nat := Nat.xor (if p.refOut then reflect p.width r else r) p.xorOut

/-- The result over a fold word and data (R340). -/
def ScanPar.crc (p : ScanPar) (fold : Nat) (bs : Bytes) : Nat := p.result (p.run (p.begin fold) bs)

/-! ## The judgement (R347) -/

/-- What an entry's result leads to. -/
inductive Verdict where
  | pass | data | value | transient | poisoned | skipped
  /-- The entry is rescanned. -/
  | again
  deriving DecidableEq, Repr, Inhabited

/-- CHK_LAST.VERDICT. -/
def Verdict.code : Verdict → Nat
  | .pass | .again => 0
  | .data => 1 | .value => 2 | .transient => 3 | .poisoned => 4 | .skipped => 5

/-- The first row of R347 that applies. -/
def judge (poisoned : Bool) (a b r : Nat) (rescan : Bool) : Verdict :=
  if poisoned then .poisoned
  else if a ≠ b then .value
  else if decide (r = a) != decide (r = b) then .value
  else if r = a then (if rescan then .transient else .pass)
  else if rescan then .data else .again

/-- The engine advances to its next entry (R345). -/
def Dev.scanAdvance (d : Dev) (ce3 : Bool) : Dev :=
  let n := (d.ownEntries ce3).length
  let last := decide (n ≤ (d.chk.engine ce3).pos + 1)
  let d := d.onChk (fun c => c.onEngine ce3 (fun g => { g with
    pos := if last then 0 else g.pos + 1, done := 0, crc := 0, rescan := false, poisoned := false
    rounds := if last then satInc 65535 g.rounds else g.rounds }))
  d.raiseIf last 109

/-- A message of kind `k` that entry `e` sends once a restart (R348). -/
def Dev.scanSend (d : Dev) (k e addr : Nat) : Dev :=
  if d.chk.sent.contains (k, e) then d
  else (d.onChk (fun c => { c with sent := c.sent ++ [(k, e)] })).send 0xC7 k 1 addr

/-- A verdict other than PASS is recorded (R350). -/
def Dev.scanRecord (d : Dev) (ce3 : Bool) (e : Nat) (v : Verdict) (r : Nat) : Dev :=
  d.onChk (fun c => { c with
    lastCe3 := ce3, lastEntry := e, lastVerdict := v.code, lastResult := if v = .poisoned ∨ v = .skipped then 0 else r })

/-- Carry out a verdict on entry `e` with result `r` (R347, R348). -/
def Dev.scanVerdict (d : Dev) (ce3 : Bool) (e : Nat) (v : Verdict) (r : Nat) : Dev :=
  match v with
  | .pass => d.scanAdvance ce3
  | .again => d.onChk (fun c => c.onEngine ce3 (fun g => { g with done := 0, crc := 0, rescan := true, poisoned := false }))
  | .data =>
    let d := (d.scanRecord ce3 e v r).onChk (fun c => { c with data := satInc 65535 c.data })
    ((d.raise 104).scanSend 0x30 e (d.scanStart e)).scanAdvance ce3
  | .value =>
    let d := (d.scanRecord ce3 e v r).onChk (fun c => { c with value := satInc 65535 c.value })
    ((d.raise 105).scanSend 0x31 e (b1 ce3 * 16 + e)).scanAdvance ce3
  | .transient =>
    let d := (d.scanRecord ce3 e v r).onChk (fun c => { c with transient := satInc 65535 c.transient })
    (d.raise 106).scanAdvance ce3
  | .poisoned =>
    let d := (d.scanRecord ce3 e v r).onChk (fun c => { c with poisonedCnt := satInc 255 c.poisonedCnt })
    (d.raise 107).scanAdvance ce3
  | .skipped =>
    let first := d.chk.skipped == 0
    let d := (d.scanRecord ce3 e v r).onChk (fun c => { c with skipped := satInc 255 c.skipped })
    (d.raiseIf first 108).scanAdvance ce3

/-- The engine reads up to `n` bytes of its entry `e`; what it finds in the granules it reads, whole ones, is reported (R246, R250, R256,
R257), and the end of the entry is judged. -/
def State.scanStep (s : State) (ce3 : Bool) (e n : Nat) (flips : List (Nat × Byte)) (poison corrected : List Nat) : State :=
  let g := s.dev.chk.engine ce3
  let len := s.dev.scanLength e
  let start := s.dev.scanStart e
  let n := Nat.min n (len - g.done)
  let bs := s.scanRead e g.done n flips
  let par := s.dev.scanPar ce3
  let crc := par.run (if g.done = 0 then par.begin start else g.crc) bs
  let lo := start + g.done
  let read (l : List Nat) : List Nat := if s.dev.scanStore e || n == 0 then []
    else (s.dev.memc.fromDram l).filter (fun a => decide (lo < a + 32) && decide (a < lo + n))
  let bad := read poison
  let all := if s.dev.scanStore e || n == 0 then 0 else granulesIn lo (lo + n)
  let fwd := if s.dev.scanStore e || n == 0 then 0 else s.dev.memc.forwardsIn lo (lo + n)
  let poi := g.poisoned || !bad.isEmpty
  s.onDev (fun d =>
    let d := d.entryReads all fwd bad (read corrected)
    let d := d.onMemc (fun m => { m with draws := m.draws + 1 })
    let d := d.onChk (fun c => c.onEngine ce3 (fun g => { g with done := g.done + n, crc := crc, poisoned := poi }))
    if g.done + n < len then d
    else
      let r := par.result crc
      d.scanVerdict ce3 e (judge poi (nth 0 d.chk.expA e) (nth 0 d.chk.expB e) r g.rescan) r)

/-- SCAN: entry `i` of the schedule works on its engine's current scan entry (R345). -/
def State.scan (s : State) (i doneAt : Nat) (flips : List (Nat × Byte)) (poison corrected : List Nat) : State :=
  if !s.entryReady i 6 then s
  else
    let s := s.onDev (fun d => d.begin i (some doneAt))
    let op := (s.dev.entry i).operand
    let ce3 := bit op 24
    match (s.dev.ownEntries ce3)[(s.dev.chk.engine ce3).pos]? with
    | none => s
    | some e =>
      if s.dev.scanSkips e then s.onDev (fun d => d.scanVerdict ce3 e .skipped 0)
      else s.scanStep ce3 e (bits op 0 20) flips poison corrected

/-- SCAN. -/
def execScan (i doneAt : Nat) (flips : List (Nat × Byte)) (poison : List Nat) (s : State)
    (corrected : List Nat := []) : Host.Outcome State Fault Refusal :=
  .next (s.scan i doneAt flips poison corrected)

end Sys2Proof.Machine
end

