-- ==== Sys2Proof/Machine/Checks.lean ====
section
/-! DEFINITION. The checks of START on what the flash holds: header (R379), directory (R380, R381) and the load checks of each
section (R494 and the rule of each layout). The check of a section runs on the blocks with that section already placed,
so that it reads the fields through the same names as every other rule. -/

namespace Sys2Proof.Machine

/-! ## Header and directory (R379 to R382) -/

/-- The header meets R379. -/
def headerOk (h : SlotHead) : Bool :=
  h.header.length == 64 && h.dir.length == 672 && hdrField h 0 4 == 0x4D5A4C4C && hdrField h 4 2 == 1 &&
  hdrField h 6 2 == 0x1080 && decide (hdrRollback h ≤ 64) && hdrField h 13 3 == 0 && decide (hdrImageLen h ≤ 29360128) &&
  hdrField h 28 36 == 0

/-- A section that may be stored encrypted (R358). -/
def mayEncrypt (id : Nat) : Bool := [4, 5, 6, 7, 8, 11, 12, 13].contains id

/-- Plaintext lengths that the layout of a section allows (R380, R381); where the content fixes the length, any length of its
form (DEDUCED, log 72: the directory is judged before the content is read). -/
def lengthOk (id n : Nat) : Bool :=
  match id with
  | 1 => n == 136704
  | 2 => decide (68 ≤ n) && (n - 68) % 12 == 0
  | 3 => n == 16
  | 4 => n == 2884
  | 5 => decide (4 ≤ n) && (n - 4) % 128 == 0
  | 6 => n == 2248
  | 7 => n == 2163456
  | 8 => n == 0 || n == 4
  | 9 => n == 240
  | 10 => decide (20 ≤ n) && (n - 20) % 8 == 0
  | 11 => n == 0 || n == 52
  | 12 => n == 0 || (decide (16 ≤ n) && n % 16 == 0)
  | 13 => n == 574496
  | 14 => n == 0 || (decide (16 ≤ n) && n % 4 == 0)
  | _ => false

/-- One directory entry meets R380. -/
def dirEntryOk (h : SlotHead) (id : Nat) : Bool :=
  let e := dirEntry h id
  let tag := if dirEnc h id then 16 else 0
  dirId h id == id && decide (dirFlags h id < 2) && beNat (slice e 2 2) == 0 && beNat (slice e 12 4) == 0 &&
  dirOffset h id % 32 == 0 && decide (1280 ≤ dirOffset h id) && (!dirEnc h id || mayEncrypt id) &&
  decide (tag ≤ dirLength h id) && lengthOk id (plainLength h id) && decide (dirOffset h id + dirLength h id ≤ hdrImageLen h)

/-- Sections `a` and `b` of the slot overlap. -/
def dirOverlap (h : SlotHead) (a b : Nat) : Bool :=
  decide (dirOffset h a < dirOffset h b + dirLength h b) && decide (dirOffset h b < dirOffset h a + dirLength h a)

/-- The section IDs. -/
def sectionIds : List Nat := [1, 2, 3, 4, 5, 6, 7, 8, 9, 10, 11, 12, 13, 14]

/-- The directory meets R380. -/
def directoryOk (h : SlotHead) : Bool :=
  sectionIds.all (dirEntryOk h) &&
  sectionIds.all (fun a => sectionIds.all (fun b => decide (b ≤ a) || !dirOverlap h a b))

/-! ## Small helpers of the load checks -/

/-- Bits [lo + w − 1 : lo] of a word are 0. -/
def zeroBits (w lo n : Nat) : Bool := bits w lo n == 0

/-- A value lies in a range. -/
def within (v lo hi : Nat) : Bool := decide (lo ≤ v) && decide (v ≤ hi)

/-- `r` holds between neighbours of a list. -/
def chainB {α : Type} (r : α → α → Bool) (l : List α) : Bool := (l.zip (l.drop 1)).all (fun p => r p.1 p.2)

/-! ## SAFE_MASK, LIMITS, BOUNDS, TINT, WEAR_MODEL, STANDALONE, KEYS, WARP, GAIN_MAP -/

/-- SAFE_MASK (R383). -/
def Dev.safeMaskOk (d : Dev) : Bool := (List.range 192).all (fun t =>
  let w0 := d.sw 1 (178 * t)
  let w1 := d.sw 1 (178 * t + 1)
  let iu := bits w0 0 10
  zeroBits w0 10 6 && zeroBits w0 22 10 && zeroBits w1 29 3 && (iu == 0 || within iu 300 750) &&
  d.safeExpected t == safeCrc t (d.safeMask t) && d.safeCount t == sumNat ((d.safeMask t).map (fun b => popcount 8 b.toNat)))

/-- Leading-light current in nA (R76). -/
def Dev.leadingNa (d : Dev) : Nat := sumNat ((List.range 192).map (fun t => d.safeCount t * d.safeCode t * d.iuNa t))

/-- LIMITS (R76, R77, R384). -/
def Dev.limitsOk (d : Dev) : Bool :=
  let mv := bits (d.sw 9 0) 16 9
  let knee := bits (d.sw 9 1) 24 6
  let n := bits (d.sw 9 3) 0 4
  let pts := (List.range n).map (fun i => d.sw 9 (4 + i))
  within d.ceilingMa 1 16000 && (mv == 0 || within mv 300 500) && (knee == 0 || within knee 4 32) &&
  decide (d.boost ≤ 1024) && (n == 0 || within n 2 8) &&
  pts.all (fun w => zeroBits w 12 4 && zeroBits w 29 3 && decide (bits w 16 13 ≤ 4096)) &&
  chainB (fun (a b : Int × Nat) => decide (a.1 < b.1) && decide (b.2 ≤ a.2)) d.foldback &&
  (List.range 8).all (fun i => decide (i < n) || d.sw 9 (4 + i) == 0) &&
  (List.range 192).all (fun t => d.weight t != 0) &&
  zeroBits (d.sw 9 0) 25 7 && zeroBits (d.sw 9 1) 20 4 && zeroBits (d.sw 9 1) 30 2 && zeroBits (d.sw 9 2) 11 21 &&
  zeroBits (d.sw 9 3) 4 28 && decide (d.leadingNa ≤ d.ceilingMa * 1000000)

/-- BOUNDS (R164). -/
def Dev.boundsOk (d : Dev) : Bool :=
  within d.nLayer 2 16 && within d.bSteps 1 32 && decide (d.nSect ≤ 64) && decide (d.nSym ≤ 32) &&
  decide (d.symArea ≤ nPixels) && within d.fetchBatch 1 524288 && decide (d.linkRate ≤ 2400) && decide (d.slackWarn ≤ 1000) &&
  zeroBits (d.sw 3 0) 5 3 && zeroBits (d.sw 3 0) 14 2 && zeroBits (d.sw 3 0) 23 1 && zeroBits (d.sw 3 0) 30 2 &&
  zeroBits (d.sw 3 1) 21 11 && zeroBits (d.sw 3 2) 20 12 && zeroBits (d.sw 3 3) 12 4 && zeroBits (d.sw 3 3) 26 6

/-- TINT (R381, R385). -/
def Dev.tintOk (d : Dev) : Bool :=
  (d.sect 8).isEmpty || (decide (d.tMin ≤ 128) && decide (128 ≤ d.tMax) && zeroBits (d.sw 8 0) 24 8)

/-- WEAR_MODEL (R278, R381). -/
def Dev.wearModelOk (d : Dev) : Bool :=
  (d.sect 11).isEmpty ||
  (within d.wearNq 2 8 && within d.wearNt 1 4 && zeroBits (d.sw 11 0) 1 3 && zeroBits (d.sw 11 0) 11 21 &&
    (List.range 4).all (fun i => let w := d.sw 11 (1 + i)
                                 if i < d.wearNt then zeroBits w 12 4 && zeroBits w 28 4 else w == 0) &&
    (List.range 8).all (fun i => decide (i < d.wearNq) || d.sw 11 (5 + i) == 0) &&
    chainB (fun (a b : Int × Nat) => decide (a.1 < b.1)) d.wearTemps &&
    chainB (fun (a b : Nat × Nat) => decide (a.1 < b.1) && decide (a.2 ≤ b.2)) d.wearUplifts)

/-- STANDALONE (R389). -/
def Dev.standaloneOk (d : Dev) : Bool := decide (d.sw 13 0 < 2) && (List.range 7).all (fun i => d.sw 13 (1 + i) == 0)

/-- KEYS (R357, R381). -/
def Dev.keysOk (d : Dev) : Bool :=
  (d.sect 14).isEmpty ||
  (decide (d.nSvc ≤ 8) && decide (d.nMkr ≤ 4) && decide (d.nCa ≤ 4) && decide (d.nDeny ≤ 16) && decide (d.nWrap ≤ 16) &&
    decide (d.minMode ≤ 2) && zeroBits (d.sw 14 0) 24 8 && d.sw 14 1 == 0 && d.sw 14 2 == 0 && d.sw 14 3 == 0 &&
    (d.sect 14).length == 16 + 64 * (d.nSvc + d.nMkr + d.nCa) + 20 * d.nDeny + 120 * d.nWrap &&
    (List.range (d.nSvc + d.nMkr + d.nCa)).all (fun i => Config.onCurve (d.pubKey i)))

/-- All differences between neighbours are nonzero and of one sign (R140). -/
def oneSign (l : List Int) : Bool := chainB (fun a b => decide (a < b)) l || chainB (fun a b => decide (b < a)) l

/-- WARP (R140). -/
def Dev.warpOk (d : Dev) : Bool :=
  decide (bits (d.sw 6 0) 0 3 ≤ 4) && d.policy != 3 && zeroBits (d.sw 6 0) 3 1 && zeroBits (d.sw 6 0) 6 26 &&
  (List.range 17).all (fun j => oneSign ((List.range 33).map (fun i => d.nodeH i j))) &&
  (List.range 33).all (fun i => oneSign ((List.range 17).map (fun j => d.nodeV i j)))

/-- A gain lies in its range (R125). -/
def gainOk (g : Nat) : Bool := within g 0x2000 0x8000

/-- Every pair of bytes holds a gain. -/
def gainsOk : Bytes → Bool
  | a :: b :: bs => gainOk (a.toNat * 256 + b.toNat) && gainsOk bs
  | _ => true

/-- GAIN_MAP, given its plaintext: pixel gains, then tile gains (R125). -/
def gainMapOk (bs : Bytes) : Bool :=
  gainsOk (bs.take 2162688) && (List.range 192).all (fun t => gainOk (beNat (slice bs (2162688 + 4 * t) 4)))

/-! ## BLEND (R121, R386) -/

/-- A word is no step: a reserved code or field (R121). -/
def stepBad (w : Nat) : Bool := decide (8 ≤ bits w 0 4) || decide (19 ≤ bits w 5 5) || !zeroBits w 10 2

/-- The steps of a program: its words up to and including the first END (R121). -/
def stepsOf (ws : List Nat) : List Nat := ws.take ((ws.takeWhile (fun w => bits w 0 4 != 0)).length + 1)

/-- BLEND. The length of a program counts its END step (DEDUCED, log 73). -/
def Dev.blendOk (d : Dev) : Bool :=
  let progs := (List.range d.nProg).map (fun n => stepsOf ((List.range 32).map (d.progWord n)))
  decide (d.nProg ≤ 8) && zeroBits (d.sw 5 0) 4 4 && zeroBits (d.sw 5 0) 12 20 &&
  (!bit (d.sw 5 0) 0 || decide (bits (d.sw 5 0) 1 3 < d.nProg)) && (d.sect 5).length == 4 + 128 * d.nProg &&
  progs.all (fun p => p.all (fun w => !stepBad w) && decide (p.length ≤ d.bSteps))

/-! ## KEEPER_TABLE (R206, R254, R289, R304) -/

/-- The rules of R304 on reactions that a DEFn word and an entry share. -/
def reactOk (react sev : Nat) : Bool :=
  bit react 0 && (bit react 2 == decide (1 ≤ sev)) && (bit react 9 == (sev == 3)) && (!bit react 6 || sev == 2) &&
  (decide (1 ≤ sev) || !(bit react 5 || bit react 7 || bit react 8))

/-- DEFn keeps R304; 0 selects the built-in default. -/
def defOk (w n : Nat) : Bool :=
  w == 0 || (decide (w < 1024) && reactOk w n && !(bit w 3 || bit w 4 || bit w 5 || bit w 6))

/-- Every source of the range has a GIVE_UP target for messages of the kind (R307). -/
def targetsAll (e : KEntry) : Bool := e.kind == 0x10 || decide (e.hi ≤ 0xC3) || (decide (0xCD ≤ e.lo) && decide (e.hi ≤ 0xCE))

/-- The reaction that R289 requires for a kind of finding, as its bit. -/
def requiredReact (kind : Nat) : Option Nat :=
  if kind = 0x09 ∨ kind = 0x0A ∨ kind = 0x0C ∨ kind = 0x0D then some 3 else if kind = 0x0B then some 4 else none

/-- The range of an entry includes a source. -/
def KEntry.covers (e : KEntry) (src : Nat) : Bool := decide (e.lo ≤ src) && decide (src ≤ e.hi)

/-- An entry keeps R206, R254, R289 and R304. -/
def KEntry.ok (e : KEntry) : Bool :=
  let r := e.react
  reactOk r e.sev && decide (e.lo ≤ e.hi) && decide (e.hi < 0xFF) && !kindReserved e.kind &&
  (!bit r 6 || targetsAll e) && (decide (e.hi ≤ 0xBF) || !(bit r 3 || bit r 4 || bit r 5)) &&
  !(e.kind == 0x11 && decide (e.lo ≤ 0xC3)) && (!(e.kind == 0x06 || e.kind == 0x07 || e.kind == 0x26) || decide (1 ≤ e.sev)) &&
  (e.kind != 0x1D || e.sev == 0) && !(e.kind == 0x1A && e.covers 0xC4 && e.sev != 1) &&
  (match requiredReact e.kind with | some b => bit r b && !bit r (7 - b) | none => true)

/-- Every tile source has an entry for each of the first five kinds of R289. -/
def coversTiles (es : List KEntry) : Bool := [0x09, 0x0A, 0x0B, 0x0C, 0x0D].all (fun k =>
  (List.range 192).all (fun t => es.any (fun e => e.kind == k && e.covers t)))

/-- KEEPER_TABLE. -/
def Dev.keeperTableOk (d : Dev) : Bool :=
  decide (d.keepCount ≤ 256) && zeroBits (d.sw 10 0) 9 23 && (d.sect 10).length == 20 + 8 * d.keepCount &&
  (List.range 4).all (fun n => defOk (d.sw 10 (1 + n)) n) &&
  (List.range d.keepCount).all (fun e => zeroBits (d.sw 10 (5 + 2 * e)) 24 8 && zeroBits (d.sw 10 (6 + 2 * e)) 10 22) &&
  d.keepEntries.all KEntry.ok && coversTiles d.keepEntries

/-! ## LAYERS (R387) with R165, R245, R247, R258 and R343 -/

/-- Parameters of an engine keep R339. -/
def ScanPar.ok (p : ScanPar) : Bool :=
  within p.width 1 32 && bit p.poly 0 && decide (p.poly < 2 ^ p.width) && decide (p.init < 2 ^ p.width) &&
  decide (p.xorOut < 2 ^ p.width)

/-- Where the sections lie in the store of the image being loaded: start and end, in order (R390). -/
def Dev.storeSpans (d : Dev) : List (Nat × Nat) :=
  storeOrder.map (fun id => (storeAddr d.cfg.head id, storeAddr d.cfg.head id + plainLength d.cfg.head id))

/-- Every byte of [a, b) is one that a section occupies. -/
def spanned (spans : List (Nat × Nat)) (a b : Nat) : Bool :=
  decide (b ≤ spans.foldl (fun (c : Nat) (s : Nat × Nat) => if s.1 ≤ c ∧ c < s.2 then s.2 else c) a)

/-- Scan entry `e` keeps R343. -/
def Dev.scanEntryOk (d : Dev) (e : Nat) : Bool :=
  let a := d.scanStart e
  let n := d.scanLength e
  let w := d.scanWord (10 + 4 * e)
  let xa := d.scanWord (11 + 4 * e)
  zeroBits w 25 3 && zeroBits w 30 2 && a % 32 == 0 && n % 32 == 0 && within n 32 16777216 &&
  xa == d.scanWord (12 + 4 * e) && decide (xa < 2 ^ (d.scanPar (d.scanCe3 e)).width) &&
  (if d.scanStore e then spanned d.storeSpans a (a + n) else decide (0x34000000 ≤ a) && decide (a + n ≤ 0x35210000))

/-- The scan words (R339, R343). -/
def Dev.scanWordsOk (d : Dev) : Bool :=
  (d.scanPar false).ok && (d.scanPar true).ok && zeroBits (d.scanWord 3) 8 24 && zeroBits (d.scanWord 7) 8 24 &&
  zeroBits (d.scanWord 8) 5 27 && decide (d.scanCount ≤ 16) && (List.range d.scanCount).all d.scanEntryOk &&
  (List.range 64).all (fun i => decide (i < 4 * d.scanCount) || d.scanWord (9 + i) == 0)

/-- A buffer keeps R245. -/
def Dev.bufferOk (d : Dev) (b : Nat) : Bool :=
  !d.declared b || (d.bufBase b % 32 == 0 && d.bufSize b % 32 == 0 && decide (d.bufBase b + d.bufSize b ≤ 0x34000000))

/-- The descriptor checks without the restrictions of DRAM-less mode, which bind LAYER messages alone (R258). -/
def Dev.initOk (d : Dev) (n : Nat) : Bool :=
  !dEn (d.initDesc n) || (d.onMemc (fun m => { m with dramLess := false })).descReason n (d.initDesc n) == 0

/-- LAYERS. -/
def Dev.layersOk (d : Dev) : Bool :=
  let w := d.sw 4
  zeroBits (w 0) 2 30 && zeroBits (w 1) 15 1 && zeroBits (w 1) 31 1 && zeroBits (w 2) 15 1 && zeroBits (w 2) 28 4 &&
  zeroBits (w 3) 16 16 && zeroBits (w 4) 24 8 && w 5 == 0 && w 6 == 0 && w 7 == 0 &&
  (List.range 256).all d.bufferOk && (List.range 16).all d.initOk && d.withinBounds ((List.range 16).map d.initDesc) &&
  (List.range 2).all (fun n => d.declared (d.fb n) && decide (d.bufSize (d.fb n) ≤ 262144)) &&
  decide (bits (w 4) 0 8 ≤ 16) && decide (bits (w 4) 8 8 ≤ 32) && decide (bits (w 4) 16 8 ≤ 16) && d.scanWordsOk

/-! ## SYMBOLS (R149, R388) -/

/-- Bits per pixel of a sprite format. -/
def spriteBpp (f : Nat) : Nat := if f = 0 then 1 else if f = 1 then 4 else 8

/-- A sprite entry of a section with a store of `len` bytes. -/
def spriteOk (bs : Bytes) (len n : Nat) : Bool :=
  let w (i : Nat) := wordAt bs (4 + 4 * n + i)
  let f := bits (w 1) 16 2
  w 0 % 32 == 0 && f != 3 && zeroBits (w 1) 18 14 && zeroBits (w 2) 20 12 && w 3 == 0 &&
  decide (w 0 + (bits (w 1) 8 8 + 1) * (((bits (w 1) 0 8 + 1) * spriteBpp f + 7) / 8) ≤ len)

/-- SYMBOLS, given its plaintext. -/
def symbolsOk (bs : Bytes) : Bool :=
  bs.isEmpty ||
  (let nent := bits (wordAt bs 0) 0 13
   let len := wordAt bs 1
   decide (nent ≤ 4096) && zeroBits (wordAt bs 0) 13 19 && len % 32 == 0 && decide (len ≤ 16777216) &&
   wordAt bs 2 == 0 && wordAt bs 3 == 0 && bs.length == 16 + 16 * nent + len && (List.range nent).all (spriteOk bs len))

end Sys2Proof.Machine
end

