-- ==== Sys2Proof/Machine/Security.lean ====
section
/-! DEFINITION. Identity and access (R352 to R355, R365 to R372): the check of the unit key, claiming, unlocks with their
lockout, signed status, and the perturbed-since-start flag. -/

namespace Sys2Proof.Machine

/-! ## The unit key (R353) -/

/-- The private key yields the public key of the certificate. -/
def Otp.keyFits (o : Otp) : Bool :=
  match Config.certInfo o.cert with
  | some c => Config.derivePub o.privKey == c.pub
  | none => false

/-- KEY_CHECK, once in START. -/
def execKeyCheck (s : State) : Host.Outcome State Fault Refusal :=
  .next (
    if !(s.dev.inStart && s.dev.pwr.mainOn && !s.dev.sec.keyChecked) then s
    else
      let ok := s.otp.keyFits
      s.onDev (fun d =>
        let d := d.onSec (fun x => { x with keyChecked := true, keyOk := ok })
        if ok then d else d.send 0xC8 0x33 1 0))

/-! ## Lockout (R369) -/

/-- Length of the lockout that `fails` consecutive failures bring, in s. -/
def lockLength (fails : Nat) : Nat := if fails < 4 then 0 else Nat.min 640 (10 * 2 ^ (fails - 4))

/-- A lockout begins. -/
def Dev.lockout (d : Dev) : Dev :=
  let n := lockLength d.sec.fails
  if n = 0 then d
  else
    let d := (d.onSec (fun x => { x with lockLen := n, lockAt := d.now })).raise 114
    (d.send 0xC8 0x32 0 n).checkpoint otherTrigger

/-- Seconds of lockout that remain, begun ones counted (R373). -/
def Dev.lockLeft (d : Dev) : Nat := d.sec.lockLen - (d.now - d.sec.lockAt) / cyclesPerS

/-- LOCKOUT_EXPIRY: the time of the lockout has passed; the engine sees it while it runs (R415). -/
def execLockoutExpiry (s : State) : Host.Outcome State Fault Refusal :=
  .next (if s.dev.pwr.mainOn then s.onDev (fun d => d.onSec (fun x => { x with lockLen := 0 })) else s)

/-! ## Commands (R354, R366 to R370) -/

/-- The engine is at work: BUSY. -/
def Sec.busy (x : Sec) : Bool := x.job.isSome || x.fusing

/-- A run of registers as bytes. -/
def wordsBytes (ws : List Word) : Bytes := ws.flatMap (fun w => toBe 4 w.toNat)

/-- Bytes as words, most significant byte first, zero-filled to `n` words. -/
def bytesWords (n : Nat) (bs : Bytes) : List Word :=
  (List.range n).map (fun i => BitVec.ofNat 32 (beNat (padTo 4 (slice bs (4 * i) 4))))

/-- The nonce. -/
def Sec.nonceBytes (x : Sec) : Bytes := randomBytes x.nonce 32

/-- The status block (R370). -/
def State.statusBlock (s : State) : List Word :=
  let d := s.dev
  [s.otp.serial.extractLsb' 32 32, s.otp.serial.extractLsb' 0 32, BitVec.ofNat 32 d.frm.tick,
   pack [(b1 s.lat.perturbed, 0, 1), (b1 s.lat.safe, 1, 1), (b1 d.memc.dramLess, 2, 1), (s.lat.level.toNat, 3, 2),
         (b1 d.ses.up, 5, 1), (s.otp.rollback, 8, 8)],
   if d.cfg.signed then BitVec.ofNat 32 (hdrVersion d.cfg.head) else 0, BitVec.ofNat 32 d.keep.received, BitVec.ofNat 32 d.lampS, 0]

/-- A write of SEC_AUTH: CMD and KEY are stored (R7, R373), and a command starts; one written while BUSY is discarded (R368). -/
def State.secCommand (s : State) (cmd key : Nat) : State :=
  if cmd = 0 ∨ 5 < cmd then s.onDev (fun d => d.onSec (fun x => { x with cmd := cmd, key := key }))
  else if s.dev.sec.busy then s.onDev (fun d => d.onSec (fun x => { x with cmd := cmd, key := key, result := 6 }))
  else
    let block := if cmd = 5 then s.statusBlock else []
    s.onDev (fun d => d.onSec (fun x => { x with
      cmd := cmd, key := key, job := some { cmd := cmd, key := key, resp := x.resp, block := block }
      sstat := if cmd = 5 then block else x.sstat }))

/-- The maker key with index `k`: of the KEYS list, or the root key of the image for 0xFF on a claimed unit (R366, R367). -/
def Dev.makerKey (d : Dev) (k : Nat) : Option Bytes :=
  if k = 0xFF then (if d.sec.claimed && d.cfg.signed then some d.cfg.rootKey else none)
  else if d.has 14 && decide (k < d.nMkr) then some (d.pubKey (d.nSvc + k)) else none

/-- Result of an unlock of SERVICE or MAKER by challenge and response (R366). -/
def State.unlockResult (s : State) (j : SecJob) : Nat :=
  let d := s.dev
  let key := if j.cmd = 1 then (if d.has 14 && decide (j.key < d.nSvc) then some (d.pubKey j.key) else none)
    else if d.has 14 then d.makerKey j.key else none
  match key with
  | none => 3
  | some k =>
    let digest := Config.sha256 (d.sec.nonceBytes ++ toBe 8 s.otp.serial.toNat ++ toBe 1 j.cmd)
    if Config.ecdsaVerify k digest (wordsBytes (j.resp.take 16)) then 1 else 2

/-- Result of a VENDOR token (R367). -/
def State.vendorResult (s : State) (j : SecJob) : Nat :=
  let d := s.dev
  let tok := wordsBytes (j.resp.take 36)
  let idx := beNat (slice tok 8 1)
  let sigV := Config.ecdsaVerify Config.vendorPub (Config.sha256 (slice tok 0 16 ++ d.sec.nonceBytes)) (slice tok 16 64)
  let shape := beNat (slice tok 0 8) == s.otp.serial.toNat && allZero (slice tok 9 7)
  if !d.sec.claimed then (if shape && sigV then 1 else 2)
  else match d.makerKey idx with
    | none => 3
    | some k =>
      let sigM := Config.ecdsaVerify k (Config.sha256 (slice tok 0 80 ++ d.sec.nonceBytes)) (slice tok 80 64)
      if shape && sigV && sigM then 1 else 2

/-- Result of a CLAIM (R354, R355). -/
def State.claimResult (s : State) (j : SecJob) : Nat :=
  let x := s.dev.sec
  if x.claimed || x.torn || s.otp.claimed then 5
  else if Config.ecdsaVerify (wordsBytes (j.resp.take 16)) (Config.sha256 (x.nonceBytes ++ toBe 8 s.otp.serial.toNat))
      (wordsBytes ((j.resp.drop 16).take 16)) then 1
  else 2

/-- Result code of a command: 1 OK, 2 BAD_SIG, 3 NO_KEY, 4 LOCKOUT, 5 STATE (R373). -/
def State.secResult (s : State) (j : SecJob) : Nat :=
  if j.cmd = 5 then 1
  else if j.cmd = 4 then s.claimResult j
  else if j.cmd ≤ s.lat.level.toNat then 5
  else if s.dev.sec.lockedOut then 4
  else if j.cmd = 3 then s.vendorResult j
  else s.unlockResult j

/-- A new nonce is drawn (R368). -/
def Sec.newNonce (x : Sec) : Sec := { x with nonce := x.draws, draws := x.draws + 1 }

/-- An unlock has ended with `res` (R365, R369, R374). -/
def State.unlockEnds (s : State) (cmd res : Nat) : State :=
  if res = 1 then
    (s.onLat (fun l => { l with level := BitVec.ofNat 2 cmd })).onDev (fun d =>
      (d.onSec (fun x => { x with fails := 0 })).raise 112)
  else if res = 2 then
    s.onDev (fun d => ((d.onSec (fun x => { x with fails := satInc 255 x.fails })).raise 113).lockout)
  else s

/-- The command that runs ends. -/
def State.secDone (s : State) : State :=
  match s.dev.sec.job with
  | none => s
  | some j =>
    let res := s.secResult j
    let s1 := s.onDev (fun d => d.onSec (fun x =>
      let x := { x with job := none, result := res }
      if j.cmd = 5 then x else x.newNonce))
    if j.cmd = 5 then
      let sig := Config.ecdsaSign s.otp.privKey (Config.sha256 (wordsBytes (j.resp.take 8) ++ wordsBytes j.block)) s.dev.sec.draws
      s1.onDev (fun d => d.onSec (fun x => { x with ssig := bytesWords 16 sig, draws := x.draws + 1 }))
    else if j.cmd = 4 then
      if res = 1 then
        -- the hash is fused first, with its CRC-16: a restart before the claim bit is fused finds the claim torn (R354, R355)
        let hash := Config.sha256 (wordsBytes (j.resp.take 16))
        let s1 := { s1 with otp := { s1.otp with rootHash := hash, rootCrc := BitVec.ofNat 16 (crc16 hash) } }
        s1.onDev (fun d => d.onSec (fun x => { x with fusing := true }))
      else s1
    else s1.unlockEnds j.cmd res

/-- SEC_COMMAND_DONE; in PARK the engine stands still (R415). -/
def execSecCommandDone (s : State) : Host.Outcome State Fault Refusal := .next (if s.dev.pwr.mainOn then s.secDone else s)

/-- CLAIM_FUSED: the claim bit is fused; the claim takes effect at the next restart. -/
def execClaimFused (s : State) : Host.Outcome State Fault Refusal :=
  .next (if s.dev.pwr.mainOn && s.dev.sec.fusing then
      ({ s with otp := { s.otp with claimed := true } } : State).onDev (fun d => (d.onSec (fun x => { x with fusing := false })).raise 119)
    else s)

/-! ## Perturbation (R371) -/

/-- The first perturbation that takes effect sets the flag; `jtag` marks a JTAG instruction. -/
def State.perturb (s : State) (jtag : Bool) : State :=
  if s.lat.perturbed then s
  else
    let lv := s.lat.level
    let s := s.onLat (fun l => { l with
      perturbed := true, pertLevel := lv, pertJtag := jtag, pertTick := s.dev.frm.tick })
    s.onDev (fun d => (d.raise 118).send 0xC8 0x35 0 (if jtag then 4 else lv.toNat))

end Sys2Proof.Machine
end

