-- ==== Sys2Proof/Machine/Restore.lean ====
section
/-! DEFINITION. The ledger in START and in the schedule: which records are valid (R428), what they restore (R274, R369, R429,
R430, R436), and the LEDGER entry that packs the trim image into the cache (R432). -/

namespace Sys2Proof.Machine

/-! ## The order of the loader (R393) -/

/-- Sections in the order in which the loader verifies them; 0 stands for the trim image. -/
def loadOrder : List Nat := [1, 10, 9, 3, 2, 14, 13, 8, 11, 6, 5, 4, 0, 7, 12]

/-- What the loader reads next. -/
def Cfg.loading (c : Cfg) : Option Nat :=
  match c.load with
  | .sections n => loadOrder[n]?
  | _ => none

/-- The step after. -/
def Cfg.loadNext (c : Cfg) : Cfg :=
  match c.load with
  | .sections n => { c with load := .sections (n + 1) }
  | _ => c

/-! ## Records (R426, R428) -/

/-- A record as read from the flash. -/
structure RecRead where
  addr : Nat
  kind : Nat
  cause : Nat
  part : Nat
  seq : Nat
  lampS : Nat
  body : Bytes
  deriving DecidableEq, Repr, Inhabited

/-- The fields of a record. -/
def recRead (addr : Nat) (bs : Bytes) : RecRead :=
  { addr := addr, kind := beNat (slice bs 4 1), cause := beNat (slice bs 5 1), part := beNat (slice bs 6 2)
    seq := beNat (slice bs 8 4), lampS := beNat (slice bs 12 4), body := slice bs 16 4064 }

/-- MAGIC and CRC match. -/
def recCrcOk (bs : Bytes) : Bool :=
  bs.length == 4096 && beNat (slice bs 0 4) == 0x55524F53 &&
  crcCalc 32 0x04C11DB7 0xFFFFFFFF true true 0xFFFFFFFF (slice bs 8 4 ++ bs.take 4092) == beNat (slice bs 4092 4)

/-- TAG matches. -/
def recTagOk (privKey bs : Bytes) : Bool :=
  (Config.hmacSha256 (Config.ledgerKey privKey) (bs.take 4080)).take 8 == slice bs 4080 8

/-- The valid records among those read. -/
def validRecs (privKey : Bytes) (recs : List (Nat × Bytes)) : List RecRead :=
  (recs.filter (fun r => recCrcOk r.2 && recTagOk privKey r.2)).map (fun r => recRead r.1 r.2)

/-- The record with the highest SEQ. -/
def newest (rs : List RecRead) : Option RecRead :=
  rs.foldl (fun m r => match m with
    | some x => if x.seq < r.seq then some r else some x
    | none => some r) none

/-- The write pointer of a ring after its newest record. -/
def ringPtr (rs : List RecRead) (base : Nat) : Nat :=
  match newest (rs.filter (fun r => decide (base ≤ r.addr) && decide (r.addr < base + 0x400000))) with
  | some r => ((r.addr - base) / 4096 + 1) % 1024
  | none => 0

/-! ## The STATE record (R429, R436, R369) -/

/-- `n` numbers of `w` bytes from offset `o` of a body. -/
def bodyNums (b : Bytes) (o w n : Nat) : List Nat := (List.range n).map (fun i => beNat (slice b (o + w * i) w))

/-- A CAL_HIST entry; an entry of zeros is none. -/
def calHistEntry (b : Bytes) (i : Nat) : List Nat :=
  let e := slice b (0x160 + 16 * i) 16
  [beNat (slice e 0 4), beNat (slice e 4 2), beNat (slice e 6 1), beNat (slice e 7 1), beNat (slice e 8 4), beNat (slice e 12 4)]

/-- The ledger after the STATE record `r`. The lamp clock goes on from its LAMP_S, plus 600 s after a periodic record; what START
has logged so far counts on top of KINDS (R429). -/
def Ledg.restoreState (l : Ledg) (r : RecRead) : Ledg :=
  let b := r.body
  let num (o w : Nat) : Nat := beNat (slice b o w)
  { l with
    stateRestored := true
    lampBase := (r.lampS + (if r.cause = 0 then 600 else 0)) * 1000
    starts := num 0 4, parks := num 4 4, arrayOn := num 8 4 * cyclesPerS, tmax := sext 16 (num 12 2)
    anchorUtc := num 0x10 8, anchorClock := num 0x18 8
    thermal := bodyNums b 0x20 4 16
    kinds := List.zipWith (satAdd 0xFFFFFFFF) (bodyNums b 0x60 4 64) l.kinds
    calHist := ((List.range 8).map (calHistEntry b)).filter (fun e => e.any (· != 0))
    tileOn := ((bodyNums b 0x1E0 4 192).zipIdx.map (fun e => (e.2, e.1 * cyclesPerS))).filter (fun e => e.2 != 0) }

/-- The unit after the STATE record `r`: also the charges of the tiles and the failed unlocks. -/
def Dev.restoreState (d : Dev) (r : RecRead) : Dev :=
  let b := r.body
  let d := d.onLedg (fun l => l.restoreState r)
  let d := (bodyNums b 0x4E0 8 192).zipIdx.foldl (fun d e => d.onCalTile e.2 (fun x => { x with q := e.1 })) d
  (d.onSec (fun x => { x with fails := beNat (slice b 14 1) })).lockout

/-- An entry of an EVENT record (R430). -/
def eventRead (e : Bytes) : LEvent :=
  let m := beNat (slice e 0 6)
  { msg := mkMsg (m / 2 ^ 40) (bits m 34 6) (bits m 32 2) (m % 2 ^ 32)
    flags := beNat (slice e 6 1), lampS := beNat (slice e 8 4), tick := beNat (slice e 12 4), written := true }

/-- The entries of an EVENT record. -/
def eventsOf (r : RecRead) : List LEvent :=
  (List.range (Nat.min 253 (beNat (slice r.body 0 2)))).map (fun i => eventRead (slice r.body (2 + 16 * i) 16))

/-- The event buffer is rebuilt from EVENT records older than the STATE record; what START has logged so far follows. -/
def Ledg.restoreEvents (l : Ledg) (rs : List RecRead) (state : Nat) : Ledg :=
  let old := (sortBy (fun a b => decide (a.seq < b.seq)) (rs.filter (fun r => r.kind == 2 && decide (r.seq < state)))).flatMap eventsOf
  let all := old ++ l.events
  { l with events := all.drop (all.length - 256) }

/-! ## The trim image (R274, R428, R432) -/

/-- The 7-bit index number `i` of a run, most significant bit first. -/
def index7 (bs : Bytes) (i : Nat) : Nat :=
  let o := 7 * i
  beNat [nth 0 bs (o / 8), nth 0 bs (o / 8 + 1)] / 2 ^ (9 - o % 8) % 128

/-- The records of the image whose part 0 has number `seq`, if it is complete and every index names a mask. -/
def imageParts (rs : List RecRead) (seq : Nat) : Option (List RecRead) :=
  let parts := (List.range 384).map (fun p => rs.find? (fun r => r.kind == 3 && r.part == p && r.seq == seq + p))
  if parts.all Option.isSome then
    let found := parts.filterMap id
    if found.all (fun r => (List.range 2816).all (fun i => decide (index7 r.body i < 66))) then some found else none
  else none

/-- The records of the newest valid trim image. -/
def newestParts (rs : List RecRead) : Option (List RecRead) :=
  let starts := sortBy (fun a b => decide (b < a)) ((rs.filter (fun r => r.kind == 3 && r.part == 0)).map (·.seq))
  starts.findSome? (imageParts rs)

/-- Its bodies. -/
def newestImage (rs : List RecRead) : Option (List Bytes) := (newestParts rs).map (fun ps => ps.map (·.body))

/-- What of the ledger but the trim image is restored. -/
def Dev.restoreLedger (d : Dev) (rs : List RecRead) (badTags : List Nat) : Dev :=
  let d := badTags.foldl (fun d a =>
    ((d.onLedg (fun l => { l with tagFails := satInc 255 l.tagFails })).send 0xCB 0x3B 1 a).raise 123) d
  let d := d.onLedg (fun l => ({ l with
    recordsRead := true, seq := ((newest rs).map (·.seq)).getD 0, ptr0 := ringPtr rs 0x3800000, ptr1 := ringPtr rs 0x3C00000
    imgSectors := ((newestParts rs).getD []).map (fun r => (r.addr - 0x3C00000) / 4096) } : Ledg).eraseAhead)
  match newest (rs.filter (fun r => r.kind == 1)) with
  | some r => (d.restoreState r).onLedg (fun l => l.restoreEvents rs r.seq)
  | none => d

/-- The mask of tile `t` at tile-local index `i` in an image. -/
def imageMask (bodies : List Bytes) (t i : Nat) : BitVec 12 :=
  BitVec.ofNat 12 (nth 0x3FF masks10 (index7 (nth [] bodies (2 * t + i / 2816)) (i % 2816)))

/-- The TRIM pass of the image on chain `k` of tile `t` is refused (R41). -/
def Dev.refusesTrim (d : Dev) (hdr : List HdrErr) (t k : Nat) : Bool :=
  d.refuses k (passHeader 2 k 0 d.nextTick ^^^ hdrFlip hdr t k).toNat

/-- Every tile that is not dark is written from the image by TRIM passes, but for chains whose pass is refused, and the reference
selections are loaded (R41, R45, R274). -/
def State.restoreTrim (s : State) (bodies : List Bytes) (hdr : List HdrErr) : State :=
  let lit := s.dev.litTiles
  let chains := lit.flatMap (fun t => (List.range 4).map (fun k => (t, k)))
  let ok := chains.filter (fun c => !s.dev.refusesTrim hdr c.1 c.2)
  let cells := ok.foldl (fun m c => SMap.updAll {} m ((List.range chainLen).map (pixelOnChain c.1 c.2)) (fun p x =>
    { x with shadowTrim := imageMask bodies c.1 (localOf p) })) s.cells
  let s := { s with cells := cells }
  s.onDev (fun d =>
    let d := ok.foldl (fun d c => d.onTile c.1 (fun x => { x with trim := x.trim ||| (1#4 <<< c.2) })) d
    let d := (chains.filter (fun c => s.dev.refusesTrim hdr c.1 c.2)).foldl (fun d c => d.refusePass c.1 c.2) d
    let sel (t o : Nat) : BitVec 16 := BitVec.ofNat 16 (beNat (slice (nth [] bodies (2 * t)) o 2))
    let d := (List.range 192).foldl (fun d t => d.onTile t (fun x => { x with cellsA := sel t 2464, cellsB := sel t 2466 })) d
    let d := d.onLedg (fun l => { l with trimRestored := true })
    d.onCal (fun c => { c with restored := true, restoreDone := true, commitDue := true, commitFirst := true, settle := 0 }))

/-- The records of both rings by flash address: what of the ledger but the trim image they restore, once in START (R369, R429, R430,
R436). -/
def State.readRecords (s : State) (recs : List (Nat × Bytes)) : State :=
  let bad := (recs.filter (fun r => recCrcOk r.2 && !recTagOk s.otp.privKey r.2)).map (·.1)
  if s.dev.ledg.recordsRead then s else s.onDev (fun d => d.restoreLedger (validRecs s.otp.privKey recs) bad)

/-- Step 4 of R393: the trim image, or none. The reads of the ledger end with it (R375). -/
def State.imageStep (s : State) (recs : List (Nat × Bytes)) (hdr : List HdrErr) : State :=
  let s := match newestImage (validRecs s.otp.privKey recs) with
    | some b => s.restoreTrim b hdr
    | none => s.onDev (fun d => (d.onCal (fun c => { c with restoreDone := true, settle := 2 })).raise 93)
  s.onDev (fun d => d.onCfg (fun c => { c.loadNext with tries := 0 }))

/-- TRIM_IMAGE_RESTORE: `recs` are the records of both rings by flash address, `hdr` the headers of TRIM passes as
disturbed (R41). What the ledger restores in every START does not wait
for step 4 of the loader, which a START without an image never reaches (R369, R393, R395, R430, R436; DEDUCED, log 136). -/
def execTrimImageRestore (recs : List (Nat × Bytes)) (s : State) (hdr : List HdrErr := []) : Host.Outcome State Fault Refusal :=
  .next (
    if !(s.dev.inStart && s.dev.pwr.mainOn) then s
    else
      let s := s.readRecords recs
      if s.dev.cfg.loading == some 0 then s.imageStep recs hdr else s)

/-! ## The LEDGER entry (R161, R432) -/

/-- Eight indices in seven bytes. -/
def pack7 (idx : List Nat) : Bytes := toBe 7 (idx.foldl (fun a i => a * 128 + i % 128) 0)

/-- Where the index of pixel `p` lies in the cache: its first byte, for the first of eight pixels. -/
def cacheAddr (p : Nat) : Nat :=
  let i := localOf p
  cachePart (2 * tileOf p + i / 2816) + i % 2816 / 8 * 7

/-- Pack runs of eight pixels into the cache. LEDG writes whole granules, those that a run touches: their other bytes go back as they
are read (R246, log 115). -/
def packRuns : Nat → State → SMap (BitVec 12) → State
  | 0, s, _ => s
  | n + 1, s, es =>
    match es with
    | [] => s
    | e :: _ =>
      let a := cacheAddr e.1
      let from_ := a / 32 * 32
      let old := s.memNow.bytes s.dev.memc.draws from_ ((a + 38) / 32 * 32 - from_)
      let run := pack7 ((es.take 8).map (fun x => maskIndex x.2.toNat))
      packRuns n (s.writeMem from_ (old.take (a - from_) ++ run ++ old.drop (a - from_ + 7))) (es.drop 8)

/-- The granules that packing `n` runs reads, in order. -/
def packReads : Nat → SMap (BitVec 12) → List Nat
  | 0, _ => []
  | n + 1, es =>
    match es with
    | [] => []
    | e :: _ =>
      let a := cacheAddr e.1
      (List.range ((a + 38) / 32 - a / 32)).map (fun i => 32 * (a / 32 + i)) ++ packReads n (es.drop 8)

/-- A pending image read poisoned is abandoned; one that is being written stops. -/
def Dev.abandonImage (d : Dev) : Dev :=
  if d.ledg.image.isNone && d.ledg.writing.isNone then d
  else (d.onLedg (fun l => { l with poisoned := satInc 255 l.poisoned })).dropImage

/-- LEDGER: entry `i` transfers up to its bytes. -/
def State.ledgerEntry (s : State) (i doneAt : Nat) (poison corrected : List Nat) : State :=
  if !s.entryReady i 5 then s
  else
    let s := s.onDev (fun d => d.begin i (some doneAt))
    if s.dev.memc.dramLess then s
    else
      let n := bits (s.dev.entry i).operand 0 20 / 7
      let es := s.dev.ledg.toPack
      let read (l : List Nat) : List Nat :=
        (s.dev.memc.fromDram l).filter (fun a => decide (cachePart 0 ≤ a) && decide (a < cachePart 384))
      let bad := read poison
      let co := read corrected
      let from_ := packReads n es
      let fwd := from_.countP s.dev.memc.forwards
      let s := packRuns n s es
      s.onDev (fun d =>
        let d := d.onLedg (fun l => { l with toPack := es.drop (8 * n) })
        let d := d.entryReads from_.length fwd bad co
        if bad.isEmpty then d else d.abandonImage)

/-- LEDGER. -/
def execLedger (i doneAt : Nat) (poison : List Nat) (s : State) (corrected : List Nat := []) : Host.Outcome State Fault Refusal :=
  .next (s.ledgerEntry i doneAt poison corrected)

end Sys2Proof.Machine
end

