-- ==== Sys2Proof/Machine/Session.lean ====
section
/-! DEFINITION. Fairway sessions (R359 to R364): the handshake of SESSION frames, its failures, new keys and REKEY. -/

namespace Sys2Proof.Machine

/-! ## Frames and failures -/

/-- Transmit a SESSION frame with MSG and ATTEMPT (R359), in START too (R360, R395, log 31). -/
def State.sendSession (s : State) (msg : Nat) (attempt : Byte) (payload : Bytes) : State :=
  if s.dev.rxOn && s.dev.link.txSet != 0 then s.sendPlain 3 payload.length (toBe 1 msg ++ [attempt]) payload else s

/-- The handshake fails: its state is discarded, and the failure is reported with its reason (R363, R372). A session that is
up stays up. -/
def Dev.sessionFail (d : Dev) (reason : Nat) : Dev :=
  ((d.onSes (fun x => { x with hs := none, fails := satInc 65535 x.fails })).raise 116).send 0xC8 0x34 0 reason

/-- The MZN1080 sends ABORT, and the handshake fails. -/
def State.abortSession (s : State) (reason : Nat) (attempt : Byte) : State :=
  (s.sendSession 6 attempt (toBe 1 reason)).onDev (fun d => d.sessionFail reason)

/-- A SESSION frame with message `msg` arrives; a frame of another kind is another event. -/
def State.sessionIn (s : State) (f : Bytes) (msg : Nat) (k : State → Bytes → State) : State :=
  if !s.dev.rxOn then s
  else match s.dev.checkFrame f with
    | .bad n arg => s.onDev (fun d => d.rxSlot.discardFrame n arg)
    | .good p => if fType f = 3 ∧ fField f 8 1 = msg then k (s.onDev Dev.rxSlot) (p.take (fLen f)) else s
    | .numberedGood _ _ _ => s

/-- ATTEMPT of a SESSION frame. -/
def fAttempt (f : Bytes) : Byte := nth 0 f 9

/-! ## HELLO_H (R359, R360) -/

/-- Fields of a HELLO_H or HELLO_D payload. -/
def helloMode (p : Bytes) : Nat := beNat (p.take 1)
def helloNonce (p : Bytes) : Bytes := slice p 4 32
def helloKey (p : Bytes) : Bytes := slice p 36 64
def helloCert (p : Bytes) : Bytes := slice p 102 (beNat (slice p 100 2))

/-- A host certificate that the MZN1080 accepts (R360). -/
def Dev.certOk (d : Dev) (c : Config.CertInfo) : Bool :=
  let signers := d.cfg.rootKey :: (List.range d.nCa).map (fun i => d.pubKey (d.nSvc + d.nMkr + i))
  let digest := Config.sha256 c.tbs
  c.shapeOk && c.mayS && signers.any (fun k => Config.ecdsaVerify k digest c.sig) &&
    !(List.range d.nDeny).any (fun i => d.denied i == c.serial)

/-- HELLO_D up to its signature (R359). -/
def helloDHead (mode : Nat) (nonce key cert : Bytes) : Bytes :=
  toBe 1 mode ++ toBe 3 0 ++ nonce ++ key ++ toBe 2 cert.length ++ cert

/-- HELLO_H: it abandons a handshake under way; HELLO_D or ABORT answers it. The order of the checks is KEY, CERT, MODE. -/
def State.helloH (s : State) (f p : Bytes) : State :=
  let a := fAttempt f
  let s := s.onDev (fun d => d.onSes (fun x => { x with hs := none, rekeySent := false }))
  let d := s.dev
  if !d.sec.keyOk || !d.has 14 then s.abortSession 5 a
  else match Config.certInfo (helloCert p) with
    | none => s.abortSession 1 a
    | some c =>
      if !d.certOk c then s.abortSession 1 a
      else if helloMode p < d.minMode ∨ 2 < helloMode p then s.abortSession 3 a
      else
        let n := d.sec.draws
        let priv := randomBytes n 32
        let head := helloDHead (helloMode p) (randomBytes (n + 1) 32) (Config.derivePub priv) s.otp.cert
        let helloD := head ++ Config.ecdsaSign s.otp.privKey (Config.sha256 (p ++ head)) (n + 2)
        let hs : Handshake := { helloH := p, helloD := helloD, attempt := a, hostPub := c.pub, mode := helloMode p
                                priv := priv, at_ := d.now }
        (s.sendSession 2 a helloD).onDev (fun d =>
          (d.onSec (fun x => { x with draws := n + 3 })).onSes (fun x => { x with hs := some hs }))

/-- HELLO_H. -/
def execHelloH (frame : Bytes) (s : State) : Host.Outcome State Fault Refusal :=
  .next (s.sessionIn frame 1 (fun s p => s.helloH frame p))

/-! ## FINISH_H (R359, R362) -/

/-- The ASCII bytes "FWKEYS". -/
def fwKeysLabel : Bytes := [0x46, 0x57, 0x4B, 0x45, 0x59, 0x53]

/-- The keys of a completed handshake (R359). -/
def Handshake.keys (h : Handshake) (finishH : Bytes) : Keys :=
  let thf := Config.sha256 (h.helloH ++ h.helloD ++ finishH)
  let z := Config.ecdhX h.priv (helloKey h.helloH)
  let out := Config.hkdf z (helloNonce h.helloH ++ helloNonce h.helloD) (fwKeysLabel ++ thf) 32
  { toUnit := out.take 16, toHost := out.drop 16 }

/-- The session comes up under new keys; previous ones stay for the overlap (R216, R362, R364). -/
def Dev.sessionUp (d : Dev) (keys : Keys) (mode : Nat) (safe : Bool) : Dev :=
  let was := d.ses.up
  let d := d.onSes (fun x => { x with
    oldKeys := x.keys, oldMode := x.mode, keys := some keys, mode := mode, hs := none
    handshakes := satInc 65535 x.handshakes, rekeys := satAdd 65535 x.rekeys (b1 was) })
  let d := d.onFw (fun f => { f with rxNextOld := f.rxNext, rxNext := 0, txNext := 0 })
  ((d.raise 115).raiseIf was 117).witnessWait safe

/-- FINISH_H: its signature is verified, FINISH_D is sent and the session is up. One of another attempt belongs to no handshake. -/
def State.finishH (s : State) (f p : Bytes) : State :=
  match s.dev.ses.hs with
  | none => s
  | some h =>
    if fAttempt f ≠ h.attempt then s
    else if !Config.ecdsaVerify h.hostPub (Config.sha256 (h.helloH ++ h.helloD)) (p.take 64) then s.abortSession 2 h.attempt
    else (s.sendSession 4 h.attempt []).onDev (fun d => d.sessionUp (h.keys p) h.mode s.lat.safe)

/-- FINISH_H. -/
def execFinishH (frame : Bytes) (s : State) : Host.Outcome State Fault Refusal :=
  .next (s.sessionIn frame 3 (fun s p => s.finishH frame p))

/-! ## Failure and REKEY (R363, R364) -/

/-- ABORT received: the handshake fails with the host's reason. -/
def execAbort (frame : Bytes) (s : State) : Host.Outcome State Fault Refusal :=
  .next (s.sessionIn frame 6 (fun s p =>
    match s.dev.ses.hs with
    | some h => if fAttempt frame = h.attempt then s.onDev (fun d => d.sessionFail (beNat (p.take 1))) else s
    | none => s))

/-- HANDSHAKE_TIMEOUT: FINISH_H has not arrived 200 ms after HELLO_H. -/
def execHandshakeTimeout (s : State) : Host.Outcome State Fault Refusal :=
  .next (if s.dev.ses.hs.isSome && s.dev.pwr.mainOn then s.onDev (fun d => d.sessionFail 6) else s)

/-- The next number of a direction has reached 0xF000_0000. -/
def Fw.runsOut (f : Fw) : Bool := decide (0xF0000000 ≤ f.rxNext) || decide (0xF0000000 ≤ f.txNext)

/-- REKEY is sent. -/
def execRekey (s : State) : Host.Outcome State Fault Refusal :=
  .next (if s.dev.ses.up && s.dev.fw.runsOut && !s.dev.ses.rekeySent && s.dev.ses.hs.isNone && s.dev.txOn then
      (s.sendSession 5 0 []).onDev (fun d => d.onSes (fun x => { x with rekeySent := true }))
    else s)

/-- REKEY_REPEAT: 1.00 s later, with no HELLO_H since, it is sent again. -/
def execRekeyRepeat (s : State) : Host.Outcome State Fault Refusal :=
  .next (if s.dev.ses.rekeySent && s.dev.txOn then s.sendSession 5 0 [] else s)

end Sys2Proof.Machine
end

