-- ==== Sys2Proof/Machine/Regs.lean ====
section
/-! DEFINITION. The register map (R457 to R465): which registers exist, the block and clock domain of each, and the value
each shows. A register lists its fields as (value, lowest bit, width); a bit that no field covers is reserved and reads 0.
LL fields read 0 until their section is verified (R9). Access levels, writes and the side effects of reads stand in
Port.lean. -/

namespace Sys2Proof.Machine

/-- The register blocks (R457). -/
inductive Block where
  | sys | pwr | keep | evt | link | wit | mem | eng | frm | arr | tile | cal | diag | chg | chk | sec | ledg | cfg | test
  deriving DecidableEq, Repr, Inhabited

/-- The domain that serves a block (R457). -/
def Block.domain : Block → Domain
  | .sys | .pwr | .evt | .test => .aon
  | .keep | .chg => .keep
  | .link => .lrx
  | .wit => .ltx
  | .mem => .mem
  | .eng => .core
  | .frm | .arr | .tile | .cal | .diag => .pix
  | .chk | .sec | .ledg | .cfg => .cfg

/-- The runs of register addresses, first and last, each with its block (R465). -/
def regRuns : List (Nat × Nat × Block) := [
  (0x0000, 0x0010, .sys), (0x0400, 0x0424, .pwr), (0x0800, 0x0834, .keep), (0x0C00, 0x0C24, .evt),
  (0x1000, 0x1024, .link), (0x1040, 0x1064, .link), (0x1400, 0x1408, .wit), (0x1800, 0x1820, .mem),
  (0x2000, 0x2018, .eng), (0x2040, 0x207C, .eng), (0x2080, 0x2098, .eng), (0x2800, 0x2848, .frm),
  (0x3000, 0x3030, .arr), (0x4000, 0x57FC, .tile), (0x6000, 0x602C, .cal), (0x6400, 0x642C, .diag),
  (0x6800, 0x681C, .chg), (0x6C00, 0x6C54, .chk), (0x7000, 0x7008, .sec), (0x7010, 0x702C, .sec),
  (0x7030, 0x704C, .sec), (0x7050, 0x7054, .sec), (0x7060, 0x70EC, .sec), (0x7100, 0x711C, .sec),
  (0x7120, 0x715C, .sec), (0x7160, 0x7164, .sec), (0x7170, 0x717C, .sec), (0x7400, 0x7418, .ledg),
  (0x7800, 0x7828, .cfg), (0x7C00, 0x7C20, .test)]

/-- The block of a register that exists (R458, R465). -/
def regBlock (a : Nat) : Option Block :=
  if a % 4 != 0 then none
  else (regRuns.find? (fun r => decide (r.1 ≤ a) && decide (a ≤ r.2.1))).map (fun r => r.2.2)

/-! ## Views of the blocks: register number `i`, its offset from the block's base divided by 4 -/

/-- PWR_STATUS.STATE (R423). -/
def PwrState.code : PwrState → Nat
  | .start => 0 | .run => 1 | .levelChange => 2 | .prepare => 3 | .entry => 4 | .park => 5 | .wake => 6

/-- A section-loaded field: 0 until the section is verified (R9). -/
def Dev.ll (d : Dev) (id v : Nat) : Nat := if d.has id then v else 0

/-- Two registers' worth of a 64-bit number. -/
def hi32 (n : Nat) : Word := BitVec.ofNat 32 (n / 2 ^ 32)
def lo32 (n : Nat) : Word := BitVec.ofNat 32 n

/-- SYS_STATUS: what AON holds itself, and its latches of what lies in other domains (R459, R460). -/
def State.sysStatus (s : State) : Word :=
  let d := s.dev
  pack [(d.pwr.state.code, 0, 3), (d.pwr.level.toNat, 3, 2), (b1 d.evt.attn, 10, 1)] ||| BitVec.ofNat 32 s.sysCopies

/-- SYS_DOMAINS (R459). -/
def Dev.domainBits (d : Dev) : Word :=
  pack (([Domain.core, .pix, .mem, .lrx, .ltx, .keep, .aon, .cfg].zipIdx).map (fun p => (b1 (d.domainOn p.1), p.2, 1)))

/-- The SYS block (R459). -/
def State.viewSys (s : State) : Nat → Word
  | 0 => 0xA2011080
  | 1 => 0x00010101
  | 2 => s.sysStatus
  | 3 => s.dev.mgmt.scratch
  | 4 => s.dev.domainBits
  | _ => 0

/-- The PWR block (R423). -/
def Dev.viewPwr (d : Dev) (i : Nat) : Word :=
  let p := d.pwr
  let r (n : Nat) : Nat := nth 0 p.refused n
  match i with
  | 0 => pack [(p.level.toNat, 0, 2), (p.state.code, 2, 3), (p.vsel.toNat, 5, 3), (b1 p.pgood, 8, 1), (d.floor, 9, 2)]
  | 1 => pack [(p.target.toNat, 0, 3), (b1 p.pend.isSome, 8, 1), ((p.pend.getD 0).toNat, 9, 3)]
  | 2 => pack [(p.parks, 0, 16), (p.superseded, 16, 16)]
  | 3 => pack [(r 0, 0, 8), (r 1, 8, 8), (r 2, 16, 8), (r 3, 24, 8)]
  | 4 => pack [(r 4, 0, 8), (r 5, 8, 8), (r 6, 16, 8), (p.lastRefuser, 24, 3), (p.lastTarget.toNat, 28, 3)]
  | 5 => pack [(p.wakeSource, 0, 2), (p.wakeTime, 8, 16)]
  | 6 => pack [(p.domoffCount, 0, 16), (p.domoffAddr.toNat, 16, 16)]
  | 7 => pack [(p.changes, 0, 16), (p.timeouts, 16, 8), (p.pgoodLosses, 24, 8)]
  | 8 => pack [(p.cause.toNat, 0, 3)]
  | 9 => lo32 p.parkTick
  | _ => 0

/-- The words KEEP_HIST0 to KEEP_HIST3 of an entry (R323). -/
def Hist.word (h : Hist) : Nat → Word
  | 0 => pack [(h.msg.source.toNat, 0, 8), (h.msg.kind.toNat, 8, 6), (h.msg.sev.toNat, 14, 2), (h.sev.toNat, 16, 2),
      (b1 h.conseq, 18, 1), (b1 h.hardwired, 19, 1), (b1 h.defaulted, 20, 1), (1, 21, 1), (b1 h.preTick, 22, 1)]
  | 1 => h.msg.addr
  | 2 => lo32 h.tick
  | _ => pack [(h.us, 0, 16), (h.seq.toNat, 16, 16)]

/-- The KEEP block (R323). -/
def State.viewKeep (s : State) (i : Nat) : Word :=
  let k := s.dev.keep
  let first (f : Hist → Word) : Word := (k.first.map f).getD 0
  let hist (n : Nat) : Word := (k.histView.map (fun h => h.word n)).getD 0
  match i with
  | 0 => pack [(b1 s.lat.safe, 0, 1), (s.lat.safeCause.toNat, 1, 3), (b1 k.unc1, 4, 1), (b1 k.unc2, 5, 1), (b1 k.dipHeld, 6, 1),
      (b1 k.standaloneHeld, 7, 1), (b1 k.first.isSome, 8, 1), (b1 (k.tableLoaded || k.tableShown), 9, 1), (b1 s.faultN, 10, 1),
      (b1 ((k.first.map Hist.preTick).getD false), 11, 1), (s.dev.ll 10 s.dev.keepCount, 16, 9)]
  | 1 => first (fun h => pack [(h.msg.source.toNat, 0, 8), (h.msg.kind.toNat, 8, 6), (h.sev.toNat, 14, 2), (h.us, 16, 16)])
  | 2 => first (fun h => h.msg.addr)
  | 3 => first (fun h => lo32 h.tick)
  | 4 => 0
  | 5 => pack [(k.histSel, 0, 4)]
  | 6 => hist 0
  | 7 => hist 1
  | 8 => hist 2
  | 9 => hist 3
  | 10 => lo32 k.received
  | 11 => lo32 k.overwritten
  | 12 => pack [(k.hist.length, 0, 5), (k.dropped, 8, 8), (k.conseq, 16, 16)]
  | 13 => pack [(nth 0 k.sevCnt 0, 0, 8), (nth 0 k.sevCnt 1, 8, 8), (nth 0 k.sevCnt 2, 16, 8), (nth 0 k.sevCnt 3, 24, 8)]
  | _ => 0

/-- The EVT block (R456). -/
def Dev.viewEvt (d : Dev) (i : Nat) : Word :=
  if i < 4 then d.evt.pend.extractLsb' (32 * i) 32
  else if i < 8 then d.evt.en.extractLsb' (32 * (i - 4)) 32
  else if i = 8 then pack [(b1 d.evt.attn, 0, 1), (d.evt.last, 8, 7), (d.evt.raised, 16, 16)]
  else pack [(d.mgmt.lastWAddr.toNat, 0, 16), (d.mgmt.lastWStatus.toNat, 16, 3), (b1 d.mgmt.crcPending, 23, 1),
    (d.mgmt.crcErrors, 24, 8)]

/-- LINK_STATE.STATE (R209). -/
def LinkState.code : LinkState → Nat
  | .down => 0 | .detect => 1 | .trainA => 2 | .trainB => 3 | .active => 4 | .rewidth => 5 | .backoff => 6

/-- LINK_LANEn (R209). -/
def Link.laneWord (l : Link) (n : Nat) : Word :=
  let x := l.lane n
  pack [(b1 x.locked, 0, 1), (b1 (bit l.rxSet n), 1, 1), (x.preset, 4, 3), (x.ctle, 8, 4), (x.skew, 16, 7), (x.losses, 24, 8)]

/-- LINK_BUF_STAT of the selected buffer (R240). -/
def Dev.bufStat (d : Dev) : Word :=
  let b := d.fw.bufSel
  let x := SMap.get {} d.fw.bufs b
  pack [(d.tokens b, 0, 2), (b1 (d.inForce b), 2, 1), (d.pendingRefs b, 3, 2), (d.ll 4 (b1 (d.declared b)), 5, 1),
    (b1 x.gen.isSome, 6, 1), (x.ready, 16, 16)]

/-- The LINK block (R209, R240). -/
def Dev.viewLink (d : Dev) (i : Nat) : Word :=
  let l := d.link
  let f := d.fw
  match i with
  | 0 => pack [(l.state.code, 0, 3), (setWidth l.rxSet, 4, 3), (l.rxSet, 8, 4), (l.txSet, 12, 2), (setWidth l.txSet, 14, 2),
      (l.backoffMs, 16, 7)]
  | 1 => l.laneWord 0
  | 2 => l.laneWord 1
  | 3 => l.laneWord 2
  | 4 => l.laneWord 3
  | 5 => pack [((l.lane 0).viol, 0, 8), ((l.lane 1).viol, 8, 8), ((l.lane 2).viol, 16, 8), ((l.lane 3).viol, 24, 8)]
  | 6 => pack [(nth 0 l.txPreset 0, 0, 3), (nth 0 l.txPreset 1, 4, 3), (l.hostGood, 8, 2), (l.txLosses, 16, 8)]
  | 7 => pack [(l.trained, 0, 16), (l.fails, 16, 8), (l.lastFail, 24, 3)]
  | 8 => pack [(l.rewidths, 0, 16), (l.restores, 16, 16)]
  | 9 => pack [(b1 l.spread, 0, 1), (l.refLosses, 16, 16)]
  | 16 => lo32 f.accepted
  | 17 => pack [(f.crcFail, 0, 16), (f.format, 16, 8), (f.noSession, 24, 8)]
  | 18 => pack [(f.tagFail, 0, 16), (f.creditViol, 16, 8)]
  | 19 => pack [(f.limit0, 0, 8), (f.limit1, 8, 8), (f.exp0, 16, 8), (f.exp1, 24, 8)]
  | 20 => pack [(f.lost0, 0, 16), (f.lost1, 16, 16)]
  | 21 => pack [(f.busy, 0, 16), (f.bounds, 16, 16)]
  | 22 => pack [(f.partials, 0, 16), (f.malformed, 16, 16)]
  | 23 => pack [(f.bufSel, 0, 8)]
  | 24 => d.bufStat
  | 25 => pack [(f.replyDropped, 0, 16), (f.replies.length, 16, 9)]
  | _ => 0

/-- The WIT block (R240). -/
def State.viewWit (s : State) (i : Nat) : Word :=
  let w := s.dev.wit
  match i with
  | 0 => pack [(b1 w.running, 0, 1), (b1 s.lat.perturbed, 1, 1), (b1 (s.dev.ses.mode == 2), 2, 1), (w.stops, 16, 16)]
  | 1 => lo32 w.frames
  | 2 => lo32 w.lastTick
  | _ => 0

/-- The MEM block (R260). -/
def Dev.viewMem (d : Dev) (i : Nat) : Word :=
  let m := d.memc
  let c (n : Nat) : Chan := m.chan n
  match i with
  | 0 => pack [(b1 m.trained, 0, 1), (b1 m.dramLess, 1, 1), (b1 m.cause, 2, 1), (b1 m.flagged, 3, 1), ((c 0).mr4, 4, 3),
      ((c 1).mr4, 8, 3), (m.panic.toNat, 12, 3)]
  | 1 => pack [(d.ll 4 (d.bankMask 0), 0, 15), (d.ll 4 (d.bankMask 1), 16, 15)]
  | 2 => pack [(d.ll 4 (d.bankMask 2), 0, 15), (d.ll 4 (d.fb 0), 16, 8), (d.ll 4 (d.fb 1), 24, 8)]
  | 3 => pack [(m.corrected, 0, 20), (m.uncorrectable, 20, 12)]
  | 4 => lo32 m.eccAddr
  | 5 => pack [(m.window, 0, 12), (d.ll 4 d.ceLimit, 12, 12), (m.retrainFails, 24, 8)]
  | 6 => pack [((c 0).debt, 0, 4), ((c 1).debt, 4, 4), (m.maxDebt, 8, 4), (m.forced, 16, 16)]
  | 7 => pack [(m.forwarded, 0, 16), (nth 0 m.panics 0, 16, 8), (nth 0 m.panics 1, 24, 4), (nth 0 m.panics 2, 28, 4)]
  | 8 => pack [(d.ll 4 (d.wm 0), 0, 8), (d.ll 4 (d.wm 1), 8, 8), (d.ll 4 (d.wm 2), 16, 8)]
  | _ => 0

/-- ENG_SLOTn (R134); the run and total of the last frame whose composition is complete (R127). -/
def Eng.slotWord (e : Eng) (n : Nat) : Word :=
  let x := nth {} e.slots n
  pack [(x.shownRun, 0, 8), (x.shownTotal, 8, 8), (dFmt x.cur, 16, 4), (b1 (dEn x.cur), 20, 1), (b1 x.staged.isSome, 21, 1),
    (b1 (dBilin x.cur), 22, 1), (dBuf x.cur, 24, 8)]

/-- The ENG block (R134, R157). In DRAM-less mode the order is FIXED (R258). -/
def Dev.viewEng (d : Dev) (i : Nat) : Word :=
  let e := d.eng
  let program := if d.memc.dramLess then none else e.blend
  if 16 ≤ i ∧ i < 32 then e.slotWord (i - 16)
  else match i with
  | 0 => pack [(b1 d.engineB, 0, 1), (b1 program.isSome, 1, 1), (program.getD 0, 2, 3), (b1 d.comp.dramLess, 5, 1),
      (b1 d.mirror, 6, 1), (b1 d.flip, 7, 1), (e.enabledBits, 16, 16)]
  | 1 => pack [(e.rejects, 0, 16), (e.rejectSlot, 16, 4), (e.rejectReason, 20, 4)]
  | 2 => pack [(e.bbCorrected, 0, 16), (e.bbUncorrectable, 16, 8)]
  | 3 => lo32 e.statTick
  | 4 => pack [(e.statTloss, 0, 24)]
  | 5 => pack [(e.statTquads, 0, 19)]
  | 6 => pack [(e.statClip, 0, 21)]
  | 32 => pack [(((e.sect.map (fun x => x.boxes.length)).getD 0), 0, 7), (b1 e.sectStaged.isSome, 7, 1), (e.sectAge, 8, 8),
      (b1 e.dip, 16, 1), (b1 d.keep.dipHeld, 17, 1), (d.policy, 18, 2), (d.fresh, 20, 3)]
  | 33 => pack [(e.sectDropped, 0, 16), (e.dipFrames, 16, 16)]
  | 34 => pack [(e.sectRefused, 0, 16), (e.sectReason, 16, 3), (e.sectBox, 20, 7)]
  | 35 => pack [(e.sectId, 0, 8)]
  | 36 => pack [(((e.sym.map (fun x => x.insts.length)).getD 0), 0, 6), (b1 e.symStaged.isSome, 6, 1), (b1 e.libReady, 7, 1),
      (d.ll 12 d.nEnt, 8, 13)]
  | 37 => pack [(e.symDropped, 0, 16), (e.symClamped, 16, 16)]
  | 38 => pack [(e.symRefused, 0, 16), (e.symReason, 16, 2), (e.symIndex, 24, 6)]
  | _ => 0

/-- FRM_MODEm (R103). -/
def Dev.modeReg (d : Dev) (m : Nat) : Word :=
  pack [(d.slotCyc m, 0, 8), (d.nBase m, 8, 5), (b1 (d.fixedPacing m), 13, 1), (b1 (d.modeValid m), 14, 1)]

/-- The FRM block (R103, R182). -/
def Dev.viewFrm (d : Dev) (i : Nat) : Word :=
  let f := d.frm
  let e := f.schedErr
  match i with
  | 0 => lo32 f.tick
  | 1 => pack [(f.period, 0, 5), (f.lastLen, 8, 5), (f.mode, 16, 2), ((f.modePend.map ModeCmd.mode).getD 0, 18, 2),
      (b1 f.modePend.isSome, 20, 1), (b1 f.transitional, 21, 1), (b1 (d.comp.content == .standalone), 22, 1)]
  | 2 => d.modeReg 0
  | 3 => d.modeReg 1
  | 4 => d.modeReg 2
  | 5 => d.modeReg 3
  | 6 => pack [(f.extFrames, 0, 16), (f.forcedTicks, 16, 16)]
  | 7 => pack [(f.late, 0, 12), (f.refused, 12, 8), (f.reason, 20, 2), (Nat.min 255 f.since, 24, 8)]
  | 8 => pack [(f.repeatFrames, 0, 16), (f.modeChanges, 16, 16)]
  | 9 => pack [(d.syncRole, 0, 2), (b1 f.locked, 2, 1), (b1 f.partnerReady, 3, 1), (f.syncFault, 4, 2), (f.offset, 16, 8),
      (f.syncFaults, 24, 8)]
  | 10 => pack [(d.modeFirst f.mode, 0, 12), (d.modeCount f.mode, 12, 13), (d.minPl f.mode, 25, 2), (b1 f.schedLoaded, 27, 1)]
  | 11 => pack [(e.2.2.2.1, 0, 2), (b1 e.2.2.1, 2, 1), (b1 e.2.1, 3, 1), (e.2.2.2.2, 4, 12), (e.1, 16, 4)]
  | 12 => pack [(f.misses, 0, 16), (f.missEntry, 16, 12), (f.missAct, 28, 4)]
  | 13 => lo32 f.missTick
  | 14 => pack [(f.minSlack, 0, 22), (d.slackWarn, 22, 10)]
  | 15 => pack [(d.nLayer, 0, 5), (d.bSteps, 8, 6), (d.nSect, 16, 7), (d.nSym, 24, 6)]
  | 16 => pack [(d.symArea, 0, 21)]
  | 17 => pack [(d.fetchBatch, 0, 20), (d.linkRate, 20, 12)]
  | 18 => pack [(f.limitReject, 0, 16), (f.throttle, 16, 16)]
  | _ => 0

/-- Tiles that meet a condition. -/
def Dev.countTiles (d : Dev) (p : Tile → Bool) : Nat := (List.range 192).countP (fun t => p (d.tile t))

/-- The ARR block (R54, R85, R324). DESIGN CHOICE: R52's interval is 1,024 frames and FRAMES_LEFT shows at most 1,023; the frames
are counted from 1,024 and the field is clamped, so that 1,023 shows in two successive frames (log 117). -/
def State.viewArr (s : State) (i : Nat) : Word :=
  let d := s.dev
  let a := d.arr
  match i with
  | 0 => pack [(a.repeatedTiles, 0, 8), (a.passFail, 16, 16)]
  | 1 => pack [(b1 (a.startDone || a.startShown), 0, 1), (b1 (decide (d.countTiles (fun t => t.safeVerified) = 192)), 1, 1),
      (d.countTiles (fun t => t.safeFailed), 8, 8), (Nat.min 1023 a.framesLeft, 16, 10)]
  | 2 => pack [(d.slot, 0, 8), (d.knee, 8, 6), (d.targetMv, 16, 9)]
  | 3 => pack [(d.tMin, 0, 8), (d.tMax, 8, 8)]
  | 4 => pack [(d.ceilingMa, 0, 16), (a.effectiveMa, 16, 16)]
  | 5 => pack [(a.demandMa, 0, 16), (a.deliveredMa, 16, 16)]
  | 6 => pack [(a.globalG, 0, 13), (a.clampedTiles, 16, 8)]
  | 7 => pack [(a.overFrames, 0, 16), (a.clampFrames, 16, 16)]
  | 8 => pack [(a.factor, 0, 13), (b1 a.therm, 13, 1), (b1 a.overtemp, 14, 1), (a.hotSensor, 16, 6)]
  | 9 => pack [(a.tmax.toNat, 0, 12)]
  | 10 => pack [(a.vledMeas, 0, 13), (a.vledReq, 16, 13), (b1 a.vledValid, 31, 1)]
  | 11 => pack [(a.cellMin, 0, 10), (a.worstTile, 16, 8), (b1 a.low, 24, 1)]
  | 12 => pack [(b1 s.lat.safe, 0, 1), (d.countTiles (fun t => t.excluded), 8, 8),
      (if d.has 1 && d.has 9 then d.leadingNa / 1000000 else 0, 16, 16)]
  | _ => 0

/-- The window of tile `t` (R53). -/
def State.viewTile (s : State) (t i : Nat) : Word :=
  let d := s.dev
  let x := d.tile t
  let r := d.chg.pair (.tileRef t false)
  match i with
  | 0 => pack [(b1 x.dark, 0, 1), (b1 x.refSel, 1, 1), (b1 (r.a == .retired), 2, 1), (b1 (r.b == .retired), 3, 1),
      (b1 x.safeVerified, 4, 1), (b1 x.driveReady, 5, 1), (b1 x.repeated, 6, 1), (b1 x.trimStaged, 7, 1), (b1 x.aggregated, 8, 1)]
  | 1 => pack [(d.iuNa t, 0, 10), (d.ll 1 (d.safeCode t), 16, 6)]
  | 2 => pack [(x.cellsA.toNat, 0, 16), (x.cellsB.toNat, 16, 16)]
  | 3 => pack [((nth 0 d.arr.temps (sensorOf t)).toNat, 0, 12), (sensorOf t, 16, 6)]
  | 4 => pack [(x.senseCode, 0, 16), (x.sensePixel, 16, 13), (b1 x.senseValid, 31, 1)]
  | 5 => pack [(x.hdrRefused, 0, 8), (x.crcFail, 8, 8), (x.returnFail, 16, 8), (x.cut, 24, 8)]
  | 6 => pack [(s.cells.countP (fun e => tileOf e.1 == t && e.2.isolate), 0, 13), (d.ll 1 (d.safeCount t), 16, 13)]
  | 7 => pack [(d.ll 1 (d.safeExpected t), 0, 16), (x.readback, 16, 16)]
  | _ => 0

/-- The CAL block (R280). A selector of 192 to 255 reads 0 in the tile registers. SETTLING shows a tile in the first sweep that begins after
its takeover, and not in the sweep that the takeover cut, at whose end its reference is chosen without the step limit too (R272, R275;
DESIGN CHOICE, log 164). T_ARR and REF_STEP show the low 16 bits of a value that their fields cannot hold (DESIGN CHOICE, log 165). -/
def Dev.viewCal (d : Dev) (i : Nat) : Word :=
  let c := d.cal
  let x := d.calTile c.sel
  let sel (fs : List (Nat × Nat × Nat)) : Word := if c.sel < 192 then pack fs else 0
  match i with
  | 0 => pack [(b1 c.restored, 0, 1),
      (b1 (c.settle != 0 || (List.range 192).any (fun t => (d.calTile t).refSettle && !(d.calTile t).aborted)), 1, 1),
      (b1 c.staging, 2, 1), (b1 c.stopped, 3, 1), (c.pass, 4, 4), (c.pointer, 8, 13)]
  | 1 => pack [(c.commits, 0, 16), (c.stageMisses, 16, 16)]
  | 2 => lo32 c.lastTick
  | 3 => pack [(c.tArr, 0, 16), (c.skipped, 16, 8)]
  | 4 => pack [(c.sel, 0, 8)]
  | 5 => sel [(x.rMedian, 0, 16), (x.rEligible, 16, 13), (b1 x.rSkip, 29, 1), (b1 x.rAborted, 30, 1)]
  | 6 => sel [(x.rAccepted, 0, 13), (x.rLimited, 16, 13)]
  | 7 => sel [(x.rResid, 0, 16), (lowBits 16 x.rRefStep, 16, 16)]
  | 8 => sel [(x.rQ, 0, 32)]
  | 9 => sel [(x.rWear, 0, 13), (b1 (x.rWear == 4915), 13, 1)]
  | 10 => pack [((List.range 192).countP (fun t => (d.calTile t).wear == 4915), 0, 8)]
  | 11 => pack [(b1 d.wearEn, 0, 1)]
  | _ => 0

/-- The four map bytes at DIAG_MAP_ADDR as the health store gives them, with GLITCH 0 (R295). -/
def State.mapStored (s : State) : Word :=
  BitVec.ofNat 32 (beNat ((List.range 4).map (fun i => BitVec.ofNat 8 (s.dev.mapByte (s.dev.diag.mapAddr + i) 0))))

/-- The four map bytes at DIAG_MAP_ADDR: from layer memory, and in DRAM-less mode from the health store (R295, R296). -/
def State.mapWord (s : State) : Word :=
  let d := s.dev
  if d.memc.dramLess then s.mapStored
  else BitVec.ofNat 32 (beNat ((List.range 4).map (fun i => s.memNow.byte d.memc.draws (0x36000000 + d.diag.mapAddr + i))))

/-- The DIAG block (R296). -/
def State.viewDiag (s : State) (i : Nat) : Word :=
  let d := s.dev
  let g := d.diag
  let count (f : Pix → Bool) : Nat := g.pix.countP (fun e => f e.2)
  match i with
  | 0 => pack [(g.nd % 64, 0, 6), (g.nd % 4, 6, 2), (b1 g.mapValid, 8, 1), (b1 g.stopped, 9, 1), (g.aggTiles, 16, 8)]
  | 1 => pack [(Nat.min 65535 (count (fun x => x.cls == 1)), 0, 16), (Nat.min 65535 (count (fun x => x.cls == 2)), 16, 16)]
  | 2 => pack [(g.ties.length, 0, 13), (g.tieFull, 16, 16)]
  | 3 => pack [(g.unmeas, 0, 21)]
  | 4 => pack [(count (fun x => x.overdue), 0, 21)]
  | 5 => pack [(count (fun x => x.overdue && x.overdueSect), 0, 21)]
  | 6 => pack [(d.boost, 0, 11)]
  | 7 => pack [(g.mapAddr, 0, 21)]
  | 8 => s.mapWord
  | 9 => pack [(g.lastPixel, 0, 21), (g.lastClass, 21, 2)]
  | 10 => pack [(g.episodes, 0, 16), (g.aggLast, 16, 8)]
  | 11 => pack [(g.unconfirmed, 0, 16), (g.unattributed, 16, 16)]
  | _ => 0

/-- Give-ups in a list that fall within the last 3,600 s (R333, R337). -/
def lastHour (ms : Nat) (l : List Nat) : Nat := l.countP (fun t => decide (ms - t ≤ 3600000))

/-- The CHG block (R337). -/
def Dev.viewChg (d : Dev) (i : Nat) : Word :=
  let c := d.chg
  let r := c.pair (.tileRef c.refSel false)
  let retired (t : Nat) : Bool := let p := c.pair (.tileRef t false); p.a == .retired || p.b == .retired
  match i with
  | 0 => pack [(c.eng.a.code, 0, 3), (c.eng.b.code, 4, 3), (c.tb.a.code, 8, 3), (c.tb.b.code, 12, 3), (b1 (c.tb.b == .active), 16, 1)]
  | 1 => pack [(c.cntEng, 0, 8), (c.cntTb, 8, 8), (c.cntRef, 16, 16)]
  | 2 => pack [(c.lastSource, 0, 8), (c.lastCause, 8, 8), (b1 c.lastB, 16, 1), (b1 c.lastFailed, 17, 1)]
  | 3 => lo32 c.lastTick
  | 4 => pack [(c.refSel, 0, 8)]
  | 5 => if c.refSel < 192 then
      pack [(r.a.code, 0, 3), (r.b.code, 4, 3), (lastHour d.lampMs r.gaveA, 8, 2), (lastHour d.lampMs r.gaveB, 10, 2),
        (r.takeovers, 16, 8)]
    else 0
  | 6 => pack [(c.startPass.toNat, 0, 4), (b1 c.startDone, 4, 1), (c.refFails, 8, 8), (c.runFails, 16, 16)]
  | 7 => pack [((List.range 192).countP retired, 0, 8), (c.darkTiles, 8, 8)]
  | _ => 0

/-- A parameter of a scan engine's window: POLY, INIT, XOR, CTL (R350). -/
def Dev.scanWindow (d : Dev) (ce3 : Bool) (i : Nat) : Word :=
  let p := d.scanPar ce3
  match i with
  | 0 => lo32 p.poly
  | 1 => lo32 p.init
  | 2 => lo32 p.xorOut
  | _ => pack [(p.width, 0, 6), (b1 p.refIn, 6, 1), (b1 p.refOut, 7, 1), (2, 8, 2)]

/-- The windows of CE0 and CE1, fixed by R341; MODE is 0 in CE0 and 1 in CE1. -/
def frameWindow (mode i : Nat) : Word :=
  match i with
  | 0 => 0x04C11DB7
  | 1 => 0xFFFFFFFF
  | 2 => 0xFFFFFFFF
  | _ => pack [(32, 0, 6), (1, 6, 1), (1, 7, 1), (mode, 8, 2)]

/-- CHK_SCAN2 and CHK_SCAN3 (R350). -/
def Dev.scanReg (d : Dev) (ce3 : Bool) : Word :=
  let x := d.chk.engine ce3
  let own := d.ownEntries ce3
  pack [(nth 0 own x.pos, 0, 4), (b1 x.rescan, 4, 1), (own.length, 8, 5), (x.rounds, 16, 16)]

/-- The CHK block (R350). -/
def Dev.viewChk (d : Dev) (i : Nat) : Word :=
  let c := d.chk
  if i < 8 then frameWindow (i / 4) (i % 4)
  else if i < 16 then d.scanWindow (i / 4 == 3) (i % 4)
  else match i with
  | 16 => d.scanReg false
  | 17 => d.scanReg true
  | 18 => pack [(c.data, 0, 16), (c.value, 16, 16)]
  | 19 => pack [(c.transient, 0, 16), (c.poisonedCnt, 16, 8), (c.skipped, 24, 8)]
  | 20 => pack [(b1 c.lastCe3, 0, 1), (c.lastEntry, 4, 4), (c.lastVerdict, 8, 3)]
  | 21 => lo32 c.lastResult
  | _ => 0

/-- Word `n` of a run of bytes, zero past its end. -/
def wordOfBytes (bs : Bytes) (n : Nat) : Word := BitVec.ofNat 32 (beNat (padTo 4 (slice bs (4 * n) 4)))

/-- The SEC block (R373). -/
def State.viewSec (s : State) (i : Nat) : Word :=
  let d := s.dev
  let x := d.sec
  if 4 ≤ i ∧ i < 12 then (if x.claimed then wordOfBytes x.rootHash (i - 4) else 0)
  else if 12 ≤ i ∧ i < 20 then wordOfBytes x.nonceBytes (i - 12)
  else if 24 ≤ i ∧ i < 60 then nth 0 x.resp (i - 24)
  else if 64 ≤ i ∧ i < 72 then nth 0 x.sstat (i - 64)
  else if 72 ≤ i ∧ i < 88 then nth 0 x.ssig (i - 72)
  else match i with
  | 0 => pack [(s.lat.level.toNat, 0, 2), (b1 x.claimed, 2, 1), (b1 x.torn, 3, 1), (b1 x.keyOk, 4, 1), (b1 x.lockedOut, 5, 1),
      (s.otp.rollback, 8, 7)]
  | 1 => s.otp.serial.extractLsb' 32 32
  | 2 => s.otp.serial.extractLsb' 0 32
  | 20 => pack [(x.cmd, 0, 3), (x.key, 8, 8)]
  | 21 => pack [(b1 x.busy, 0, 1), (x.result, 1, 3), (x.fails, 8, 8), (d.lockLeft, 16, 10)]
  | 88 => pack [(x.certWord, 0, 8), (Nat.min 1024 s.otp.cert.length, 16, 11)]
  | 89 => wordOfBytes (s.otp.cert.take 1024) x.certWord
  | 92 => pack [(d.ses.code, 0, 3), (d.ses.mode, 3, 2), (d.minMode, 5, 2), (d.ses.handshakes, 16, 16)]
  | 93 => pack [(d.ses.fails, 0, 16), (d.ses.rekeys, 16, 16)]
  | 94 => pack [(b1 s.lat.perturbed, 0, 1), (s.lat.pertLevel.toNat, 1, 2), (b1 s.lat.pertJtag, 3, 1)]
  | 95 => lo32 s.lat.pertTick
  | _ => 0

/-- The calendar estimate in ms, 0 without an anchor (R437). -/
def Dev.utc (d : Dev) : Nat :=
  if d.ledg.anchorUtc = 0 then 0 else (d.ledg.anchorUtc + d.lampMs + 2 ^ 64 - d.ledg.anchorClock) % 2 ^ 64

/-- The LEDG block (R439). -/
def Dev.viewLedg (d : Dev) (i : Nat) : Word :=
  let l := d.ledg
  match i with
  | 0 => pack [(b1 l.stateRestored, 0, 1), (b1 l.trimRestored, 1, 1), (b1 l.running.isSome, 2, 1), (b1 l.image.isSome, 3, 1),
      (l.unwrittenEvents.length, 8, 9)]
  | 1 => lo32 l.seq
  | 2 => lo32 d.lampS
  | 3 => hi32 d.utc
  | 4 => d.mgmt.utcHold.getD (lo32 d.utc)
  | 5 => pack [(l.checkpoints, 0, 16), (l.trimImages, 16, 16)]
  | 6 => pack [(l.writeFails, 0, 8), (l.tagFails, 8, 8), (l.poisoned, 16, 8)]
  | _ => 0

/-- CFG_STATUS.ROLLBACK_DUE (R392). -/
def State.rollbackDue (s : State) : Bool := s.dev.cfg.signed && decide (s.otp.rollback < hdrRollback s.dev.cfg.head)

/-- No rule can put the slot that is loaded out of force any more: its sections before SYMBOLS are verified, or its safe pattern is
lit (R394, R396, R399; DEDUCED, log 135). -/
def Cfg.slotFinal (c : Cfg) : Bool :=
  match c.load with
  | .done => true
  | .sections n => decide (14 ≤ n) || c.startLit
  | _ => c.startLit

/-- CFG_STATUS.SLOT: the slot in force, from the instant at which it is final (R7, R407; DEDUCED, log 135). -/
def Cfg.slotShown (c : Cfg) : Bool := c.slotB && c.slotFinal

/-- CFG_VERSION_ALT: the VERSION of the slot that SLOT does not name, from the instant at which SLOT cannot change any more (R7, R407;
DEDUCED, log 135). -/
def Cfg.altVersion (c : Cfg) : Word :=
  if !c.slotFinal && !c.noImage then 0
  else match (if c.slotShown then c.headA else c.headB) with
    | some o => lo32 (hdrVersion o)
    | none => 0

/-- The CFG block (R407). Directory fields read 0 until the image's SIGNATURE is verified. -/
def State.viewCfg (s : State) (i : Nat) : Word :=
  let d := s.dev
  let c := d.cfg
  let h := c.head
  let id := c.sectSel
  let shown := decide (1 ≤ id) && decide (id ≤ 14)
  let dirOn := shown && c.signed
  match i with
  | 0 => pack [(b1 c.slotShown, 0, 1), (b1 c.fallback, 1, 1), (b1 c.candA, 2, 1), (b1 c.candB, 3, 1), (b1 d.frm.ticked, 4, 1),
      (b1 c.allVerified, 5, 1), (b1 c.noImage, 6, 1), (b1 s.rollbackDue, 7, 1), (if c.signed then hdrRollback h else 0, 8, 7)]
  | 1 => if c.signed then lo32 (hdrVersion h) else 0
  | 2 => c.altVersion
  | 3 => pack [(c.failReason, 0, 4), (c.failSection, 8, 5), (b1 c.failSlotB, 16, 1)]
  | 4 => pack [(c.tick0, 0, 16), (c.verifiedAt, 16, 16)]
  | 5 => pack [(id, 0, 5)]
  | 6 => if dirOn then pack [(b1 (d.has id), 0, 1), (b1 (dirEnc h id), 1, 1), (b1 (inStore id), 2, 1),
      (if inStore id then storeAddr h id else 0, 8, 20)] else 0
  | 7 => if dirOn then pack [(dirLength h id, 0, 25)] else 0
  | 8 => pack [(b1 c.octal, 0, 1), (b1 c.imgReady, 1, 1), (c.mhz, 8, 8), (c.retries, 16, 16)]
  | 9 => pack [(c.imgAddr, 0, 26)]
  | 10 => if c.imgReady then c.imgWord else 0
  | _ => 0

/-- The TEST block (R473); GO reads 0. -/
def Dev.viewTest (d : Dev) (i : Nat) : Word :=
  let t := d.test
  match i with
  | 0 => pack [(b1 t.active, 0, 1), (b1 t.testEn, 1, 1)]
  | 1 => pack [(t.hold0, 0, 4), (t.hold1, 8, 6)]
  | 2 => pack [(t.compDelay, 0, 10), (t.gainDelay, 16, 10)]
  | 3 => pack [(t.commitDelay, 0, 16)]
  | 4 => pack [(t.jitter, 0, 5), (t.seed, 16, 16)]
  | 5 => t.injAddr
  | 6 => pack [(t.injHead.toNat, 0, 16)]
  | 7 => pack [(t.unit_, 0, 2), (t.tile, 8, 8)]
  | 8 => pack [(t.drills, 0, 8), (t.drillRefused, 8, 8), (t.injected, 16, 8), (t.injRefused, 24, 8)]
  | _ => 0

/-- The value of the register at an address that exists. -/
def State.regValue (s : State) (a : Nat) (b : Block) : Word :=
  match b with
  | .sys => s.viewSys (a / 4)
  | .pwr => s.dev.viewPwr ((a - 0x0400) / 4)
  | .keep => s.viewKeep ((a - 0x0800) / 4)
  | .evt => s.dev.viewEvt ((a - 0x0C00) / 4)
  | .link => s.dev.viewLink ((a - 0x1000) / 4)
  | .wit => s.viewWit ((a - 0x1400) / 4)
  | .mem => s.dev.viewMem ((a - 0x1800) / 4)
  | .eng => s.dev.viewEng ((a - 0x2000) / 4)
  | .frm => s.dev.viewFrm ((a - 0x2800) / 4)
  | .arr => s.viewArr ((a - 0x3000) / 4)
  | .tile => s.viewTile ((a - 0x4000) / 32) ((a - 0x4000) % 32 / 4)
  | .cal => s.dev.viewCal ((a - 0x6000) / 4)
  | .diag => s.viewDiag ((a - 0x6400) / 4)
  | .chg => s.dev.viewChg ((a - 0x6800) / 4)
  | .chk => s.dev.viewChk ((a - 0x6C00) / 4)
  | .sec => s.viewSec ((a - 0x7000) / 4)
  | .ledg => s.dev.viewLedg ((a - 0x7400) / 4)
  | .cfg => s.viewCfg ((a - 0x7800) / 4)
  | .test => s.dev.viewTest ((a - 0x7C00) / 4)

end Sys2Proof.Machine
end

