-- ==== Sys2Proof/Machine/Test.lean ====
section
/-! DEFINITION. The TEST block (R466 to R474): its control registers, injection of Keeper messages and drills. The rows
CREDIT_HOLD to DRILL reach it through the management port (Port.lean). With them what waits for the KEEP clock (R16). -/

namespace Sys2Proof.Machine

/-- A control has been stored: the write of a nonzero value takes effect in every state, and the first to do so marks the unit
(R467). Where the control's domain is off, it acts from the wake (R466). -/
def State.control (s : State) (nonzero : Bool) : State := if nonzero then s.perturb false else s

/-- TEST_CREDIT: lowering a value returns the difference through LIMIT at once (R469), VC1 within R223. -/
def State.writeCredit (s : State) (v : Nat) : State :=
  let h0 := Nat.min 8 (bits v 0 4)
  let h1 := Nat.min 32 (bits v 8 6)
  let s := s.onDev (fun d =>
    let back := d.fw.kept0 - h0
    let d := d.onTest (fun t => { t with hold0 := h0, hold1 := h1 })
    if !d.fairwayOn then d
    else d.onFw (fun f =>
      ({ f with kept0 := f.kept0 - back, limit0 := (f.limit0 + back) % 256 } : Fw).returnVc1 h1))
  s.control (h0 != 0 || h1 != 0)

/-- TEST_DRAM (R469). -/
def State.writeDram (s : State) (v : Nat) : State :=
  let c := bits v 0 10
  let g := bits v 16 10
  (s.onDev (fun d => d.onTest (fun t => { t with compDelay := c, gainDelay := g }))).control (c != 0 || g != 0)

/-- TEST_COMMIT (R469). -/
def State.writeCommitDelay (s : State) (v : Nat) : State :=
  let c := bits v 0 16
  (s.onDev (fun d => d.onTest (fun t => { t with commitDelay := c }))).control (c != 0)

/-- TEST_JITTER: the LFSR is loaded from SEED, with 0xACE1 for 0 (R470);
a postponement that runs is drawn anew. -/
def State.writeJitter (s : State) (v : Nat) : State :=
  let j := Nat.min 20 (bits v 0 5)
  let seed := bits v 16 16
  let s := s.onDev (fun d =>
    let d := d.onTest (fun t => { t with jitter := j, seed := seed, lfsr := if seed = 0 then 0xACE1 else seed })
    if d.pwr.mainOn then d.onFrm (fun f => { f with jitterLeft := none }) else d)
  s.control (j != 0 || seed != 0)

/-- Place an injected message into the FIFO of its source, which drops it when it holds four, or for 0xFF on the direct path
(R300, R471). -/
def Dev.placeInjected (d : Dev) (m : Msg) : Dev :=
  if m.source == 0xFF#8 then d.onKeep (fun k => { k with direct := k.direct ++ [m] })
  else if (d.keep.fifos.filter (fun x => x.source == m.source)).length < 4 then
    d.onKeep (fun k => { k with fifos := k.fifos ++ [m] })
  else (d.onKeep (fun k => { k with dropped := satInc 255 k.dropped })).raise 14

/-- An injection is sent (R471). -/
def State.injectGo (s : State) (head : BitVec 16) (addr : Word) : State :=
  (s.onDev (fun d =>
    let v := head.toNat
    let d := d.placeInjected (mkMsg (bits v 0 8) (bits v 8 6) (bits v 14 2) addr.toNat)
    (d.onTest (fun t => { t with injected := satInc 255 t.injected })).raise 126)).perturb false

/-- TEST_INJECT1: the fields are stored; GO injects, or is refused; where the KEEP clock does not run it injects once
it runs (R16, R466, R471; log 152). -/
def State.writeInject (s : State) (v : Nat) : State :=
  let s := s.onDev (fun d => d.onTest (fun t => { t with injHead := BitVec.ofNat 16 v }))
  if !bit v 16 then s
  else
    let src := bits v 0 8
    let kind := bits v 8 6
    if kindReserved kind || !kindSender kind src then
      s.onDev (fun d => (d.onTest (fun t => { t with injRefused := satInc 255 t.injRefused })).raise 127)
    else if s.dev.keeperRuns then s.injectGo (BitVec.ofNat 16 v) s.dev.test.injAddr
    else s.onDev (fun d => d.keepLater (.inject (BitVec.ofNat 16 v) d.test.injAddr))

/-- The active instance of the unit that TEST_DRILL names, if some instance is active. -/
def Dev.drillUnit (d : Dev) (unit_ tile : Nat) : Option UnitRef :=
  let pick (u : Bool → UnitRef) : Option UnitRef :=
    if d.chg.is (u false) .active then some (u false) else if d.chg.is (u true) .active then some (u true) else none
  if unit_ = 1 then pick .engine
  else if unit_ = 2 then pick .timebase
  else if unit_ = 3 ∧ tile < 192 ∧ d.isDark tile = false then pick (.tileRef tile)
  else none

/-- The drill is refused in START, under SAFE, without a STANDBY partner, and for a tile that does not exist or is dark (R472);
UNIT 0 names no unit. -/
def State.drillTarget (s : State) (unit_ tile : Nat) : Option UnitRef :=
  if s.dev.inStart || s.lat.safe then none
  else match s.dev.drillUnit unit_ tile with
    | some u => if s.dev.chg.is (unitPartner u) .standby then some u else none
    | none => none

/-- The instance that TEST_DRILL names has given up to its STANDBY in this KEEP cycle for another cause: the drill falls together
with that give-up, which stands alone (R472, log 133). -/
def State.drillMerges (s : State) (unit_ tile : Nat) : Bool :=
  let other (u : UnitRef) : Bool := match s.dev.gaveUpNow u with
    | some g => g.ok && g.cause != 0x11
    | none => false
  !s.dev.inStart && !s.lat.safe &&
  (if unit_ = 1 then other (.engine false) else if unit_ = 2 then other (.timebase false)
   else unit_ == 3 && decide (tile < 192) && !s.dev.isDark tile && other (.tileRef tile false))

/-- A drill has been performed: it is counted, and it marks the unit (R467, R472, R474). -/
def State.drilled (s : State) : State :=
  (s.onDev (fun d => (d.onTest (fun x => { x with drills := satInc 255 x.drills })).raise 124)).perturb false

/-- A drill is performed, or refused (R472). -/
def State.drillGo (s : State) (u t : Nat) : State :=
  if s.drillMerges u t then s.drilled
  else match s.drillTarget u t with
  | none => s.onDev (fun d => (d.onTest (fun x => { x with drillRefused := satInc 255 x.drillRefused })).raise 125)
  | some r => (s.onDev (fun d => d.giveUp s.lat.safe r 0x11)).drilled

/-- Work of the KEEP domain, in a cycle of it (R319, R394, R471, R472). -/
def State.keepAct (s : State) : KeepWork → State
  | .inject head addr => s.injectGo head addr
  | .drill u t => s.drillGo u t
  | .exclude t => s.onDev (fun d => d.exclude t)
  | .tableLoaded => s.onDev Dev.takeTable
  | .tableAbandoned => s.onDev (fun d => d.onKeep Keep.abandon)

/-- What has waited for the KEEP clock acts once it runs, in the order in which it came (R16, R466, R467). -/
def State.keepWake (s : State) : State :=
  if !s.dev.keeperRuns then s
  else s.dev.test.later.foldl State.keepAct (s.onDev (fun d => d.onTest (fun t => { t with later := [] })))

/-- TEST_DRILL: the fields are stored; GO performs the drill or refuses it; where the KEEP clock does not run, once
it runs (R16, R466, R472; log 152). -/
def State.writeDrill (s : State) (v : Nat) : State :=
  let u := bits v 0 2
  let t := bits v 8 8
  let s := s.onDev (fun d => d.onTest (fun x => { x with unit_ := u, tile := t }))
  if !bit v 16 then s
  else if s.dev.keeperRuns then s.drillGo u t
  else s.onDev (fun d => d.keepLater (.drill u t))

/-- The state of the TAP after a rising edge of TCK with TMS at a level (R491; IEEE 1149.1, PRESUMED, log 134). -/
def Tap.next : Tap → Bool → Tap
  | .reset, tms => if tms then .reset else .idle
  | .idle, tms => if tms then .selectDr else .idle
  | .selectDr, tms => if tms then .selectIr else .captureDr
  | .captureDr, tms => if tms then .exit1Dr else .shiftDr
  | .shiftDr, tms => if tms then .exit1Dr else .shiftDr
  | .exit1Dr, tms => if tms then .updateDr else .pauseDr
  | .pauseDr, tms => if tms then .exit2Dr else .pauseDr
  | .exit2Dr, tms => if tms then .updateDr else .shiftDr
  | .updateDr, tms => if tms then .selectDr else .idle
  | .selectIr, tms => if tms then .reset else .captureIr
  | .captureIr, tms => if tms then .exit1Ir else .shiftIr
  | .shiftIr, tms => if tms then .exit1Ir else .shiftIr
  | .exit1Ir, tms => if tms then .updateIr else .pauseIr
  | .pauseIr, tms => if tms then .exit2Ir else .pauseIr
  | .exit2Ir, tms => if tms then .updateIr else .shiftIr
  | .updateIr, tms => if tms then .selectDr else .idle

/-- One clock of TCK: the state, and whether an instruction has been loaded on the way, which Update-IR does. -/
def Tap.clock (x : Tap × Bool) (tms : Bool) : Tap × Bool := (x.1.next tms, x.2 || x.1.next tms == .updateIr)

/-- The TAP after the levels of TMS at the rising edges of TCK; while TRST_N is low it is held in reset (R491). -/
def Tap.after (x : Tap) (trstN : Bool) (tms : List Bool) : Tap × Bool :=
  if trstN then tms.foldl Tap.clock (x, false) else (.reset, false)

/-- JTAG_INSTRUCTION, other than those of boundary scan: the TAP follows TMS, and the instruction is loaded where it passes Update-IR;
below VENDOR it acts as BYPASS (R365, R371, R491, log 134). -/
def execJtagInstruction (s : State) (trstN : Bool := true)
    (tms : List Bool := [true, true, true, true, true, false, true, true, false, true, true]) : Host.Outcome State Fault Refusal :=
  .next (
    if !s.dev.domainOn .aon then s
    else
      let r := s.dev.test.tap.after trstN tms
      let s := s.onDev (fun d => d.onTest (fun x => { x with tap := r.1 }))
      if r.2 && s.lat.level == 3#2 && s.dev.pwr.mainOn then s.perturb true else s)

end Sys2Proof.Machine
end

