-- ==== Sys2Proof/Machine/Port.lean ====
section
/-! DEFINITION. The management port (R442 to R449, R422): the transactions, their order (R448), the judgement of an access by
existence, level and domain, what a write changes (R462) and what a read changes besides. Every row that is a write or read of one
register is the same transaction. With them the return of the KEEP clock, for which a transaction may wait. -/

namespace Sys2Proof.Machine

/-! ## Judgement (R422, R365) -/

/-- The section from which the LL fields of a register are loaded, where R358 allows it to be encrypted. ENG_STATUS takes its
fields from LAYERS and BLEND. -/
def encSections (a : Nat) : List Nat :=
  if a = 0x300C then [8]
  else if a = 0x2000 then [4, 5]
  else if 0x2040 ≤ a ∧ a ≤ 0x207C then [4]
  else if a = 0x2080 then [6]
  else if a = 0x2090 then [12]
  else if a = 0x1060 then [4]
  else if a = 0x1804 ∨ a = 0x1808 ∨ a = 0x1814 ∨ a = 0x1820 then [4]
  else if a = 0x602C then [11]
  else if 0x6C20 ≤ a ∧ a ≤ 0x6C44 then [4]
  else []

/-- The register holds an LL field loaded from an encrypted section (R365). -/
def Dev.encLoaded (d : Dev) (a : Nat) : Bool := (encSections a).any (fun id => d.has id && dirEnc d.cfg.head id)

/-- The lowest level at which a block may be accessed (R365, R466). -/
def Block.level : Block → Nat
  | .mem | .chk | .cal | .diag | .chg | .ledg => 1
  | .test => 2
  | _ => 0

/-- The lowest level that permits an access: `write` with its data, or a read (R365, R462, R466). -/
def Dev.needLevel (d : Dev) (a : Nat) (b : Block) (write : Bool) (data : Word) : Nat :=
  let own := Nat.max b.level (if d.encLoaded a then 2 else 0)
  if write then
    (if a = 0x0810 then Nat.max own 1 else if a = 0x7C18 ∧ data.toNat % 256 = 0xFF then 3 else own)
  else if a = 0x7828 then 2
  else own

/-- The status of an access: 3 no such register, 2 the level forbids it, 1 its domain is off, 0 it is carried out (R422). -/
def State.judge (s : State) (a : Nat) (write : Bool) (data : Word) : Nat :=
  match regBlock a with
  | none => 3
  | some b =>
    if s.lat.level.toNat < s.dev.needLevel a b write data then 2
    else if s.dev.domainOn b.domain then 0
    else 1

/-- What an access with a status raises and counts (R422, R446, R454). -/
def Dev.accessed (d : Dev) (a : BitVec 16) (status : Nat) : Dev :=
  if status = 2 then d.raise 7
  else if status = 1 then
    (d.onPwr (fun p => { p with domoffCount := satInc 65535 p.domoffCount, domoffAddr := a })).raise 5
  else d

/-! ## Effects of a write (R462) -/

/-- EVT_PENDm: writing 1 clears (R452). -/
def Evt.clear (e : Evt) (m : Nat) (v : Word) : Evt := { e with pend := e.pend &&& ~~~(v.setWidth 128 <<< (32 * m)) }

/-- Bits of EVT_ENm that belong to reserved events (R450, R455). -/
def enMask : BitVec 128 := BitVec.ofNat 128 (sumNat ((List.range 128).map (fun n => if reservedEvent n then 0 else 2 ^ n)))

/-- EVT_ENm: the value is stored but for reserved events (R455). -/
def Evt.enable (e : Evt) (m : Nat) (v : Word) : Evt :=
  { e with en := ((e.en &&& ~~~((0xFFFFFFFF#128) <<< (32 * m))) ||| (v.setWidth 128 <<< (32 * m))) &&& enMask }

/-- PWR_REQ: TARGET is stored; 1 to 4 make a request (R413, R423). -/
def State.writePwrReq (s : State) (v : Nat) : State :=
  let t := bits v 0 3
  let s := s.onDev (fun d => d.onPwr (fun p => { p with target := BitVec.ofNat 3 t }))
  if 1 ≤ t ∧ t ≤ 4 then s.request t else s

/-- DIAG_MAP_ADDR as stored (R296). -/
def mapAddrOf (v : Nat) : Nat :=
  let p := bits v 0 21 / 4 * 4
  if p > 1081340 then 0 else p

/-- What a write that is carried out changes; nothing where the register has no writable field (R7, R462). -/
def State.writeReg (s : State) (a : Nat) (w : Word) : State :=
  let v := w.toNat
  if a = 0x000C then s.onDev (fun d => d.onMgmt (fun m => { m with scratch := w }))
  else if a = 0x0404 then s.writePwrReq v
  else if a = 0x0810 then s.keepClear (bit v 0) (bit v 1)
  else if a = 0x0814 then s.onDev (fun d => d.histSelect (bits v 0 4))
  else if a = 0x6810 then s.onDev (fun d => d.onChg (fun c => { c with refSel := bits v 0 8 }))
  else if 0x0C00 ≤ a ∧ a ≤ 0x0C0C then s.onDev (fun d => d.onEvt (fun e => e.clear ((a - 0x0C00) / 4) w))
  else if 0x0C10 ≤ a ∧ a ≤ 0x0C1C then s.onDev (fun d => d.onEvt (fun e => e.enable ((a - 0x0C10) / 4) w))
  else if a = 0x105C then s.onDev (fun d => d.onFw (fun f => { f with bufSel := bits v 0 8 }))
  else if a = 0x6010 then s.onDev (fun d => d.onCal (fun c => { c with sel := bits v 0 8 }))
  else if a = 0x641C then s.onDev (fun d => d.onDiag (fun g => { g with mapAddr := mapAddrOf v }))
  else if a = 0x7050 then s.secCommand (bits v 0 3) (bits v 8 8)
  else if 0x7060 ≤ a ∧ a ≤ 0x70EC then s.onDev (fun d => d.onSec (fun x => { x with resp := setNth x.resp ((a - 0x7060) / 4) w }))
  else if a = 0x7160 then s.onDev (fun d => d.onSec (fun x => { x with certWord := bits v 0 8 }))
  else if a = 0x7814 then s.onDev (fun d => d.onCfg (fun c => { c with sectSel := bits v 0 5 }))
  else if a = 0x7824 then s.onDev (fun d => d.onCfg (fun c => { c.readEnds with imgAddr := bits v 2 24 * 4, imgReady := false }))
  else if a = 0x7C04 then s.writeCredit v
  else if a = 0x7C08 then s.writeDram v
  else if a = 0x7C0C then s.writeCommitDelay v
  else if a = 0x7C10 then s.writeJitter v
  else if a = 0x7C14 then s.onDev (fun d => d.onTest (fun t => { t with injAddr := w }))
  else if a = 0x7C18 then s.writeInject v
  else if a = 0x7C1C then s.writeDrill v
  else s

/-! ## Transactions (R443 to R447) -/

/-- A_W of the port: the address byte of a write (R442, R443). -/
def Mgmt.aw (m : Mgmt) : Byte := BitVec.ofNat 8 ((0x48 + m.addr.toNat) * 2)

/-- Bytes of a register address and of a word as they are sent. -/
def regBytes (a : BitVec 16) : Bytes := toBe 2 a.toNat
def wordBytes (w : Word) : Bytes := toBe 4 w.toNat

/-- The CRC byte of a register write (R444). -/
def Mgmt.writeCrc (m : Mgmt) (a : BitVec 16) (w : Word) : Byte := BitVec.ofNat 8 (crc8 (m.aw :: (regBytes a ++ wordBytes w)))

/-- The CRC byte of a register read (R444). -/
def Mgmt.readCrcOf (m : Mgmt) (status : BitVec 8) (w : Word) : Byte :=
  BitVec.ofNat 8 (crc8 (m.aw :: (regBytes m.pointer ++ [m.aw ||| 1, status] ++ wordBytes w)))

/-- A format or CRC error (R445). -/
def Dev.portError (d : Dev) : Dev :=
  (d.onMgmt (fun m => { m with crcPending := true, crcErrors := satInc 255 m.crcErrors })).raise 6

/-- A register write whose CRC matches: the pointer takes REG, the write is judged, its status recorded, and it is carried
out on status 0 (R443, R446). -/
def State.writeJudged (s : State) (a : BitVec 16) (w : Word) : State :=
  let status := s.judge a.toNat true w
  let s := s.onDev (fun d => (d.onMgmt (fun m => { m with
    pointer := a, lastWAddr := a, lastWStatus := BitVec.ofNat 3 status })).accessed a status)
  if status = 0 then s.writeReg a.toNat w else s

/-- A register write with the CRC byte `crc` (R445, R446). -/
def State.writeNow (s : State) (a : BitVec 16) (w : Word) (crc : Byte) : State :=
  if crc = s.dev.mgmt.writeCrc a w then s.writeJudged a w else s.onDev Dev.portError

/-- The hold register of LEDG_UTC_LO after a read of register `a` that was carried out (R464). -/
def Dev.utcAfter (d : Dev) (a : Nat) : Option Word := if a = 0x740C then some (lo32 d.utc) else none

/-- What a read that is carried out changes: the registers that advance, a read of the map that a queued write answers, and the
calendar hold (R250, R296, R373, R407, R464). -/
def Dev.readEffect (d : Dev) (a : Nat) : Dev :=
  if a = 0x6420 then
    (d.countReads 1 (b1 (d.memc.forwards (0x36000000 + d.diag.mapAddr)))).onDiag (fun g => { g with mapAddr := if g.mapAddr + 4 > 1081340 then 0 else g.mapAddr + 4 })
  else if a = 0x7164 then d.onSec (fun x => { x with certWord := (x.certWord + 1) % 256 })
  else if a = 0x7828 then
    d.onCfg (fun c => if c.imgReady then { c with imgAddr := (c.imgAddr + 4) % 2 ^ 26, imgReady := false } else c)
  else d

/-- The answer of a read: its STATUS, data and CRC bytes (R443, R444). -/
def Dev.answer (d : Dev) (status : Nat) (w : Word) : Dev :=
  let st : BitVec 8 := BitVec.ofNat 8 status
  d.onMgmt (fun m => { m with readStatus := st, readData := w, readCrc := m.readCrcOf st w })

/-- Byte `i` that the host reads in the transaction after the last answer: STATUS, D3 to D0 and the CRC, and 0xFF after it
(R443, R445). -/
def Mgmt.answerByte (m : Mgmt) (i : Nat) : Byte := ([m.readStatus] ++ wordBytes m.readData ++ [m.readCrc]).getD i 0xFF

/-- A register read at the pointer (R443, R447). -/
def State.readNow (s : State) : State :=
  let m := s.dev.mgmt
  let a := m.pointer.toNat
  if m.crcPending then s.onDev (fun d => (d.onMgmt (fun m => { m with crcPending := false })).answer 4 0)
  else
    let status := s.judge a false 0
    let value := match regBlock a with
      | some b => if status = 0 then s.regValue a b else 0
      | none => 0
    s.onDev (fun d =>
      let hold := if status = 0 then d.utcAfter a else m.utcHold
      let d := (d.answer status value).accessed m.pointer status
      let d := if status = 0 then d.readEffect a else d
      d.onMgmt (fun m => { m with utcHold := hold }))

/-- What ECC found in the granule of the map that a read of DIAG_MAP_DATA has taken from the DRAM: errors corrected are counted, and
a poisoned granule is reported and replaced by the store's bytes (R256, R257, R295, R297); `s` is the state before the read. -/
def State.mapEcc (s : State) (ecc : Ecc) (d : Dev) : Dev :=
  let a := (0x36000000 + s.dev.diag.mapAddr) / 32 * 32
  let d := if eccCorrected ecc = 0 then d else d.correctedErrors (eccCorrected ecc)
  if eccPoisons ecc then (d.mapPoisoned a).answer 0 s.mapStored else d

/-- The next read is carried out and takes a granule of the map from the DRAM (R250, R296, R447). -/
def State.mapFromDram (s : State) : Bool :=
  let m := s.dev.memc
  s.dev.mgmt.pointer == 0x6420 && !s.dev.mgmt.crcPending && s.judge 0x6420 false 0 == 0 && !m.dramLess
    && !m.forwards (0x36000000 + s.dev.diag.mapAddr)

/-- A read of DIAG_MAP_DATA, with what ECC finds (R296). -/
def State.mapReadNow (s : State) (ecc : Ecc) : State :=
  let fromDram := s.mapFromDram
  s.readNow.onDev (fun d => if fromDram then s.mapEcc ecc d else d)

/-! ## The order of transactions (R448, R463) -/

/-- A transaction, carried out. -/
def State.portDo (s : State) : PortOp → State
  | .pointer a => s.onDev (fun d => d.onMgmt (fun m => { m with pointer := a }))
  | .write a w crc => s.writeNow a w crc
  | .bad => s.onDev Dev.portError
  | .read => s.readNow
  | .mapRead ecc => s.mapReadNow ecc

/-- An access with status 0 of a register of the KEEP domain. -/
def State.ofKeep (s : State) (a : Nat) (write : Bool) (data : Word) : Bool :=
  (regBlock a).map Block.domain == some .keep && s.judge a write data == 0

/-- The transaction waits: an access is carried out in a cycle of the register's own domain, which an access of the KEEP domain does
not find while the KEEP clock stands still, and accesses are carried out in the order of their transactions (R16, R448; DEDUCED, log
137: the 10.0 µs of R448 bound the wait while the clock runs). -/
def State.portHolds (s : State) (op : PortOp) : Bool :=
  !s.dev.mgmt.waiting.isEmpty || (s.dev.keep.clockLost && match op with
    | .write a w crc => crc == s.dev.mgmt.writeCrc a w && s.ofKeep a.toNat true w
    | .read => !s.dev.mgmt.crcPending && s.ofKeep s.dev.mgmt.pointer.toNat false 0
    | _ => false)

/-- A transaction comes to the port, which lies in AON (R457): it is carried out, or waits. -/
def State.portOp (s : State) (op : PortOp) : State :=
  if !s.dev.domainOn .aon then s
  else if s.portHolds op then s.onDev (fun d => d.onMgmt (fun m => { m with waiting := m.waiting ++ [op] }))
  else s.portDo op

/-- What has waited for the KEEP clock is carried out in its order (R448). -/
def State.portGo (s : State) : State :=
  s.dev.mgmt.waiting.foldl State.portDo (s.onDev (fun d => d.onMgmt (fun m => { m with waiting := [] })))

/-- A register write (R443). -/
def State.portWrite (s : State) (a : BitVec 16) (w : Word) (crc : Byte) : State := s.portOp (.write a w crc)

/-- A pointer write and the read that follows it (R443). -/
def State.readAt (s : State) (a : BitVec 16) : State := (s.portOp (.pointer a)).portOp .read

/-- The bytes of a write transaction after A_W (R443, R445). -/
def State.portBytes (s : State) (bs : Bytes) : State :=
  match bs with
  | [hi, lo] => s.portOp (.pointer (hi ++ lo))
  | [hi, lo, d3, d2, d1, d0, crc] => s.portWrite (hi ++ lo) (d3 ++ d2 ++ d1 ++ d0) crc
  | _ => s.portOp .bad

/-! ## The rows -/

/-- REGISTER_WRITE: the bytes after A_W. -/
def execRegisterWrite (bytes : Bytes) (s : State) : Host.Outcome State Fault Refusal := .next (s.portBytes bytes)

/-- POINTER_WRITE. -/
def execPointerWrite (hi lo : Byte) (s : State) : Host.Outcome State Fault Refusal := .next (s.portOp (.pointer (hi ++ lo)))

/-- REGISTER_READ, with the pointer write of the transaction or without one. -/
def execRegisterRead (reg : Option (BitVec 16)) (s : State) : Host.Outcome State Fault Refusal :=
  .next (match reg with
    | some a => s.readAt a
    | none => s.portOp .read)

/-- I2C_BUS_TIMEOUT: the transaction is abandoned; no write was complete and the pointer is unchanged (R449). -/
def execI2cBusTimeout (s : State) : Host.Outcome State Fault Refusal := .next s

/-- CLEAR1: KEEP_CLEAR with bit 0 (R314). -/
def execClear1 (crc : Byte) (s : State) : Host.Outcome State Fault Refusal := .next (s.portWrite 0x0810 1 crc)

/-- CLEAR2: KEEP_CLEAR with bit 1 (R314). -/
def execClear2 (crc : Byte) (s : State) : Host.Outcome State Fault Refusal := .next (s.portWrite 0x0810 2 crc)

/-- KEEP_HIST_SEL (R323). -/
def execKeepHistSel (index : BitVec 4) (crc : Byte) (s : State) : Host.Outcome State Fault Refusal :=
  .next (s.portWrite 0x0814 (index.setWidth 32) crc)

/-- EVT_PENDm, W1C (R452). -/
def execEvtPendClear (m : BitVec 2) (data : Word) (crc : Byte) (s : State) : Host.Outcome State Fault Refusal :=
  .next (s.portWrite (0x0C00 + 4 * m.setWidth 16) data crc)

/-- CFG_IMG_ADDR (R407). -/
def execCfgImgAddr (addr : Word) (crc : Byte) (s : State) : Host.Outcome State Fault Refusal := .next (s.portWrite 0x7824 addr crc)

/-- A read of CFG_IMG_DATA (R407). -/
def execCfgImgData (s : State) : Host.Outcome State Fault Refusal := .next (s.readAt 0x7828)

/-- A read of SEC_CERT_DATA (R373). -/
def execSecCertData (s : State) : Host.Outcome State Fault Refusal := .next (s.readAt 0x7164)

/-- A read of LEDG_UTC_HI (R464). -/
def execLedgUtcHi (s : State) : Host.Outcome State Fault Refusal := .next (s.readAt 0x740C)

/-- A read of DIAG_MAP_DATA (R296). -/
def execDiagMapData (s : State) (ecc : Ecc := {}) : Host.Outcome State Fault Refusal :=
  .next ((s.portOp (.pointer 0x6420)).portOp (.mapRead ecc))

/-- The data of a SEC_AUTH write. -/
def authWord (cmd : Nat) (key : Byte) : Word := pack [(cmd, 0, 3), (key.toNat, 8, 8)]

/-- SEC_AUTH with CMD 1 (R366). -/
def execUnlockService (key crc : Byte) (s : State) : Host.Outcome State Fault Refusal := .next (s.portWrite 0x7050 (authWord 1 key) crc)

/-- SEC_AUTH with CMD 2 (R366). -/
def execUnlockMaker (key crc : Byte) (s : State) : Host.Outcome State Fault Refusal := .next (s.portWrite 0x7050 (authWord 2 key) crc)

/-- SEC_AUTH with CMD 3; the token names the maker key (R367). -/
def execUnlockVendor (crc : Byte) (s : State) : Host.Outcome State Fault Refusal := .next (s.portWrite 0x7050 (authWord 3 0) crc)

/-- SEC_AUTH with CMD 4 (R354). -/
def execClaim (crc : Byte) (s : State) : Host.Outcome State Fault Refusal := .next (s.portWrite 0x7050 (authWord 4 0) crc)

/-- SEC_AUTH with CMD 5 (R370). -/
def execSignStatus (crc : Byte) (s : State) : Host.Outcome State Fault Refusal := .next (s.portWrite 0x7050 (authWord 5 0) crc)

/-- PWR_REQ with TARGET 1 to 3; 0 makes no request (R413). -/
def execLevelRequest (target : BitVec 2) (crc : Byte) (s : State) : Host.Outcome State Fault Refusal :=
  .next (s.portWrite 0x0404 (target.setWidth 32) crc)

/-- PWR_REQ with TARGET 4 (R416). -/
def execParkRequest (crc : Byte) (s : State) : Host.Outcome State Fault Refusal := .next (s.portWrite 0x0404 4 crc)

/-- TEST_CREDIT (R469). -/
def execCreditHold (data : Word) (crc : Byte) (s : State) : Host.Outcome State Fault Refusal := .next (s.portWrite 0x7C04 data crc)

/-- TEST_DRAM (R469). -/
def execPortDelay (data : Word) (crc : Byte) (s : State) : Host.Outcome State Fault Refusal := .next (s.portWrite 0x7C08 data crc)

/-- TEST_COMMIT (R469). -/
def execCommitDelay (data : Word) (crc : Byte) (s : State) : Host.Outcome State Fault Refusal := .next (s.portWrite 0x7C0C data crc)

/-- TEST_JITTER (R469, R470). -/
def execTickJitter (data : Word) (crc : Byte) (s : State) : Host.Outcome State Fault Refusal := .next (s.portWrite 0x7C10 data crc)

/-- TEST_INJECT1 (R471). -/
def execInject (data : Word) (crc : Byte) (s : State) : Host.Outcome State Fault Refusal := .next (s.portWrite 0x7C18 data crc)

/-- TEST_DRILL (R472). -/
def execDrill (data : Word) (crc : Byte) (s : State) : Host.Outcome State Fault Refusal := .next (s.portWrite 0x7C1C data crc)

/-- KEEP_CLOCK_RESUME: the Keeper logs KEEP_CLOCK under 0xFF and records the cause of the latch that the clock's loss has set
(R318); then what has waited for the clock acts (R16, R448). -/
def execKeepClockResume (s : State) : Host.Outcome State Fault Refusal :=
  .next (if s.dev.pwr.keepDomain && s.dev.keep.clockLost then
      ((s.onLat (fun l => { l with safeCause := if l.safe && l.safeCause == 0 then 4 else l.safeCause })).onDev (fun d =>
        (d.onKeep (fun k => { k with clockLost := false, stood := k.stood + (d.now - k.lostAt) })).sendDirect 0xFF 0x3D 3 0)).keepWake.portGo
    else s)

end Sys2Proof.Machine
end

