-- ==== Sys2Proof/Machine/Schedcheck.lean ====
section
/-! DEFINITION. The load check of SCHEDULE: the table and its modes (R159 to R163), the cost model (R167 to R170) and the
reasons of R171 in their order. Where one condition of the table lists several failures they are taken in the order in
which it lists them, and within one failure in increasing index (DEDUCED, log 18). -/

namespace Sys2Proof.Machine

/-! ## Entries -/

/-- An entry with its table index. -/
structure SE where
  idx : Nat
  e : Entry
  deriving DecidableEq, Repr, Inhabited

def SE.start (x : SE) : Nat := x.e.start
def SE.dl (x : SE) : Nat := x.e.deadline
def SE.act (x : SE) : Nat := x.e.act

/-- Batches of a COMPOSE entry: the first, and how many. -/
def SE.b0 (x : SE) : Nat := bits x.e.operand 0 7
def SE.nb (x : SE) : Nat := bits x.e.operand 8 7
/-- Tile row of a chain entry. -/
def SE.row (x : SE) : Nat := bits x.e.operand 0 3
/-- A CHAIN_DRIVE or CHAIN_AUX entry. -/
def SE.chain (x : SE) : Bool := x.act == 2 || x.act == 3

/-- The activity code is none of the reserved ones (R161). -/
def actOk (act : Nat) : Bool := within act 1 8

/-- The operand lies in the range of its activity (R161). A COMPOSE entry that would reach beyond batch 87 has its operand out of
range, reason FORMAT (log 18). -/
def operandOk (act op : Nat) : Bool :=
  match act with
  | 1 => bit op 7 == false && decide (op < 32768) && within (bits op 8 7) 1 88 && decide (bits op 0 7 + bits op 8 7 ≤ 88)
  | 2 | 3 => decide (op < 8)
  | 4 => within op 1 8
  | 5 => within op 1 65536
  | 6 => zeroBits op 20 4 && zeroBits op 25 7 && bits op 0 20 != 0
  | 7 | 8 => op == 0
  | _ => false

/-- The entry is well-formed (R160, R161). -/
def Entry.formOk (e : Entry) : Bool := !e.reserved && operandOk e.act e.operand

/-- Two entries overlap. -/
def SE.meets (a b : SE) : Bool := decide (a.start < b.dl) && decide (b.start < a.dl)

/-- Entries in the table. -/
def Dev.schedEntries (d : Dev) : Nat := ((d.sect 2).length - 68) / 12

/-- The entries of mode `m`. -/
def Dev.modeEntries (d : Dev) (m : Nat) : List SE :=
  (List.range (d.modeCount m)).map (fun i => ⟨d.modeFirst m + i, d.entry (d.modeFirst m + i)⟩)

/-- E_base of mode `m` in cycles (R160). -/
def Dev.eBase (d : Dev) (m : Nat) : Nat := d.nBase m * 1040 * d.slotCyc m

/-! ## Section level (R171) -/

/-- A reserved bit of a mode record is set (R159). -/
def Dev.modeReserved (d : Dev) (m : Nat) : Bool :=
  !(zeroBits (d.modeWord m 0) 15 1 && zeroBits (d.modeWord m 0) 18 14 && zeroBits (d.modeWord m 1) 12 4 &&
    zeroBits (d.modeWord m 1) 29 3 && d.modeWord m 2 == 0 && d.modeWord m 3 == 0)

/-- The valid modes. -/
def Dev.validModes (d : Dev) : List Nat := (List.range 4).filter d.modeValid

/-- The entry ranges of two modes overlap; the range of a mode with COUNT 0 is empty and meets none. -/
def Dev.rangesMeet (d : Dev) (a b : Nat) : Bool :=
  d.modeCount a != 0 && d.modeCount b != 0 && decide (d.modeFirst a < d.modeFirst b + d.modeCount b) && decide (d.modeFirst b < d.modeFirst a + d.modeCount a)

/-- FORMAT at section level; COUNT 0 fails at mode level. -/
def Dev.schedFormatBad (d : Dev) : Bool :=
  let vs := d.validModes
  !zeroBits (d.sw 2 0) 2 30 || (List.range 4).any (fun m => !d.modeValid m && d.modeReserved m) || d.syncRole == 3 ||
  !d.modeValid 0 || !within d.schedEntries 1 4096 ||
  vs.any (fun a => vs.any (fun b => decide (a < b) && d.rangesMeet a b)) ||
  vs.any (fun m => d.modeCount m != 0 && decide (d.schedEntries < d.modeFirst m + d.modeCount m))

/-- The reason of a section-level failure, 0 for none. -/
def Dev.schedSection (d : Dev) : Nat :=
  if d.schedFormatBad then 1 else if !d.has 3 then 2
  else if 4096 < sumNat (d.validModes.map d.modeCount) then 11 else 0

/-! ## Mode level (R171): each check answers none, or the index it names, or no index -/

/-- Index of the first entry that `p` picks. -/
def firstBad (es : List SE) (p : SE → Bool) : Option (Option Nat) := (es.find? p).map (fun x => some x.idx)

/-- The first failure in a list of checks. -/
def firstOf {α : Type} (l : List (Option α)) : Option α := l.findSome? id

/-- A failure that names no entry. -/
def plainFail (b : Bool) : Option (Option Nat) := if b then some none else none

/-- FORMAT (1). -/
def Dev.modeFormat (d : Dev) (m : Nat) (es : List SE) : Option (Option Nat) :=
  firstOf [
    plainFail (d.modeReserved m),
    firstBad es (fun x => x.e.reserved),
    plainFail (!within (d.slotCyc m) 60 200 || !within (d.nBase m) 4 16 || d.modeCount m == 0),
    firstBad es (fun x => !actOk x.act),
    firstBad es (fun x => !operandOk x.act x.e.operand)]

/-- RANGE (3). -/
def Dev.modeRange (d : Dev) (m : Nat) (es : List SE) : Option (Option Nat) :=
  firstOf [firstBad es (fun x => x.e.dur == 0), firstBad es (fun x => decide (d.eBase m < x.dl))]

/-- How often an activity occurs on a tile row. -/
def rowCount (es : List SE) (act ty : Nat) : Nat := (es.filter (fun x => x.act == act && x.row == ty)).length

/-- COVER (4): what is missing or doubled names no entry; COMPOSE entries out of order name the later one (DEDUCED, log 18). -/
def modeCover (es : List SE) : Option (Option Nat) :=
  let comp := es.filter (fun x => x.act == 1)
  let times (b : Nat) : Nat := (comp.filter (fun x => within b x.b0 (x.b0 + x.nb - 1))).length
  if (List.range 88).any (fun b => times b != 1) || (List.range 8).any (fun ty => rowCount es 2 ty != 1 || rowCount es 3 ty != 1) ||
      (es.filter (fun x => x.act == 7)).length != 1 then some none
  else ((comp.zip (comp.drop 1)).find? (fun p => decide (p.2.b0 < p.1.b0))).map (fun p => some p.2.idx)

/-- The deadlines that the START of an entry may not precede, each with the index that sets it (R163). -/
def preds (es : List SE) (x : SE) : List (Nat × Nat) :=
  let before := es.filter (fun y => decide (y.idx < x.idx))
  let rows := (before.filter (fun y => y.chain && y.row == x.row)).map (fun y => (y.dl, y.idx))
  if x.act = 1 then ((before.filter (fun y => y.act == 1)).getLast?.map (fun y => (y.dl, y.idx))).toList
  else if x.act = 2 then
    rows ++ (es.filter (fun y => y.act == 1 && within (11 * x.row + 10) y.b0 (y.b0 + y.nb - 1))).map (fun y => (y.dl + 200, y.idx))
  else if x.act = 3 then rows
  else if x.act = 7 then (es.filter (fun y => y.act == 2)).map (fun y => (y.dl, y.idx))
  else []

/-- The first entry, in increasing index, that overlaps an earlier one under `r`. -/
def firstMeet (es : List SE) (r : SE → SE → Bool) : Option (Option Nat) :=
  firstBad es (fun x => es.any (fun y => decide (y.idx < x.idx) && r y x && y.meets x))

/-- The chain entries that run at a cycle. -/
def chainsAt (es : List SE) (c : Nat) : List SE := es.filter (fun y => y.chain && decide (y.start ≤ c) && decide (c < y.dl))

/-- ORDER (5). -/
def modeOrder (es : List SE) : Option (Option Nat) :=
  let late (x : SE) : List Nat := ((preds es x).filter (fun p => decide (x.start < p.1))).map (·.2)
  let heavy (y : SE) : Bool := y.act == 1 || y.act == 5 || y.act == 7
  let starts := sortBy (fun (a b : Nat) => decide (a < b)) ((es.filter SE.chain).map SE.start)
  firstOf [
    firstMeet es (fun a b => a.act == 1 && b.act == 1),
    (es.find? (fun x => !(late x).isEmpty)).map (fun x => some (maxNat (x.idx :: late x))),
    firstMeet es (fun a b => a.chain && b.chain && a.row == b.row),
    (starts.find? (fun c => decide (2 < (chainsAt es c).length))).map (fun c => some (maxNat ((chainsAt es c).map SE.idx))),
    firstBad es (fun x => x.chain && decide (x.e.dur < 5656)),
    firstMeet es (fun a b => (a.act == 8 && heavy b) || (b.act == 8 && heavy a)),
    firstBad es (fun x => x.act == 8 && decide (x.e.dur < 2000))]

/-- DECISION (6). -/
def Dev.modeDecision (d : Dev) (m : Nat) (es : List SE) : Option (Option Nat) :=
  firstBad es (fun x => x.act == 2 && decide (d.eBase m < x.dl + 16 * d.slotCyc m))

/-- CORE clock of a performance level in MHz (R168). -/
def coreMhz (pl : Nat) : Nat := if pl = 1 then 500 else if pl = 2 then 650 else 800

/-- Evaluated symbol pixels of an entry of `nb` batches (R168). -/
def Dev.symEval (d : Dev) (nb : Nat) : Nat := Nat.min d.symArea (d.nSym * 12288 * nb)

/-- CORE demand of a COMPOSE entry of `nb` batches (R168). -/
def Dev.coreDemand (d : Dev) (nb : Nat) : Nat :=
  let s := Nat.max (d.nLayer + 1) d.bSteps
  256 + nb * (512 + 768 * (s + 7) + 192 * d.nLayer + 192 * d.nSect) + (d.symEval nb + 3) / 4 + 64 * d.nSym

/-- CORE (7). -/
def Dev.modeCore (d : Dev) (m : Nat) (es : List SE) : Option (Option Nat) :=
  firstBad es (fun x => x.act == 1 && decide (x.e.dur * coreMhz (d.minPl m) / 200 < d.coreDemand x.nb))

/-- ⌈n / k⌉. -/
def ceilDiv (n k : Nat) : Nat := (n + k - 1) / k

/-- MEM demand of an entry (R169). -/
def Dev.memDemand (d : Dev) (x : SE) : Nat :=
  match x.act with
  | 1 => ceilDiv (x.nb * (d.fetchBatch + 24576) + 4 * d.symEval x.nb) 20
  | 4 => x.e.operand * 84
  | 5 => ceilDiv x.e.operand 20
  | 6 => ceilDiv (bits x.e.operand 0 20) 20
  | 7 => ceilDiv 2162688 20
  | _ => 0

/-- Link share of an entry (R169). -/
def Dev.linkShare (d : Dev) (dur : Nat) : Nat := (ceilDiv dur 12800 + 1) * 12800 * d.linkRate / 4000

/-- An entry exceeds its MEM capacity. -/
def Dev.memBad (d : Dev) (es : List SE) (x : SE) : Bool :=
  if x.act = 1 ∨ x.act = 5 ∨ x.act = 6 ∨ x.act = 7 then
    let others := es.filter (fun y => within y.act 4 7 && y.idx != x.idx && y.meets x)
    decide (x.e.dur * 4666 / 2000 < d.memDemand x + d.linkShare x.e.dur + sumNat (others.map d.memDemand))
  else false

/-- MEM (8). -/
def Dev.modeMem (d : Dev) (es : List SE) : Option (Option Nat) :=
  firstOf [firstBad es (d.memBad es), firstBad es (fun x => x.act == 4 && decide (x.e.dur < x.e.operand * 36))]

/-- One evaluation of the refresh debt over the base frame from `debt` on (R170): the debt at its end and the highest seen. -/
def debtRun (eBase : Nat) : List (Nat × Nat) → Nat → Nat → Nat → Nat × Nat
  | [], prev, debt, top => (debt + (eBase / 390 - prev / 390), Nat.max top (debt + (eBase / 390 - prev / 390)))
  | (at_, r) :: rest, prev, debt, top =>
    let up := debt + (at_ / 390 - prev / 390)
    debtRun eBase rest at_ (up - Nat.min up r) (Nat.max top up)

/-- REFRESH (9). -/
def Dev.modeRefresh (d : Dev) (m : Nat) (es : List SE) : Option (Option Nat) :=
  let rs := sortBy (fun (a b : Nat × Nat) => decide (a.1 < b.1)) ((es.filter (fun x => x.act == 4)).map (fun x => (x.start, x.e.operand)))
  let one := debtRun (d.eBase m) rs 0 0 0
  let two := debtRun (d.eBase m) rs 0 one.1 one.2
  if 8 < two.2 then some none else none

/-- The first mode-level failure of a mode: reason and the index it names. -/
def Dev.schedMode (d : Dev) (m : Nat) : Option (Nat × Option Nat) :=
  let es := d.modeEntries m
  let tag (r : Nat) (o : Option (Option Nat)) : Option (Nat × Option Nat) := o.map (fun i => (r, i))
  firstOf [tag 1 (d.modeFormat m es), if d.minPl m = 0 then some (2, none) else none, tag 3 (d.modeRange m es),
    tag 4 (modeCover es), tag 5 (modeOrder es), tag 6 (d.modeDecision m es), tag 7 (d.modeCore m es), tag 8 (d.modeMem es),
    tag 9 (d.modeRefresh m es), if d.eBase m < 360000 then some (10, none) else none]

/-- What FRM_SCHED_ERR records of the check: REASON, SECTION, NO_ENTRY, MODE, ENTRY; none when R171 finds nothing. -/
def Dev.schedError (d : Dev) : Option (Nat × Bool × Bool × Nat × Nat) :=
  if d.schedSection ≠ 0 then some (d.schedSection, true, true, 0, 0)
  else d.validModes.findSome? (fun m => (d.schedMode m).map (fun f =>
    match f.2 with
    | some i => (f.1, false, false, m, i)
    | none => (f.1, false, true, m, 0)))

/-- Entries of the table that belong to no valid mode keep their layout too (R494). -/
def Dev.strayOk (d : Dev) : Bool := (List.range d.schedEntries).all (fun i =>
  d.validModes.any (fun m => within i (d.modeFirst m) (d.modeFirst m + d.modeCount m - 1)) ||
    ((d.entry i).formOk && (d.entry i).dur != 0))

/-- SCHEDULE (R171, R494). -/
def Dev.scheduleOk (d : Dev) : Bool := d.schedError.isNone && d.strayOk

end Sys2Proof.Machine
end

