-- ==== Sys2Proof/Machine/Start.lean ====
section
/-! DEFINITION. Restart and start-up (R375, R391 to R400, R461): the causes of a restart, the slots, SIGNATURE and sections,
what a section does when it takes effect, what an invalid slot leaves, and tick 0 or the leading light in START. -/

namespace Sys2Proof.Machine

/-! ## Restart (R461) -/

/-- Everything but the fuses, the queue of commands and the model's clock and draws takes its reset value; `cause` is
PWR_RESET.CAUSE, and SEC_NONCE is a new draw (R245, R368, R423, R461). -/
def State.restart (s : State) (cause : Nat) : State :=
  let d := s.dev
  { pending := s.pending, otp := s.otp
    dev := {
      now := d.now, pwr := { cause := BitVec.ofNat 3 cause }, sec := { nonce := d.sec.draws, draws := d.sec.draws + 1 }
      keep := { draws := d.keep.draws }, memc := { draws := d.memc.draws + 1 }, link := { draws := d.link.draws }
      cal := { draws := d.cal.draws } } }

/-- A restart from power-on: the model's clock begins again (log 2). -/
def State.powerOn (s : State) : State := (s.restart 0).onDev (fun d => { d with now := 0 })

/-- POWER_ON. -/
def execPowerOn (s : State) : Host.Outcome State Fault Refusal := .next s.powerOn

/-- RESET_N low for `ns` nanoseconds restarts: for 10.0 µs it does, a pulse under 1.00 µs is ignored, and between them the manual
says nothing (R491, log 134). -/
def resetTakes (ns : Nat) : Bool := decide (10000 ≤ ns) || (decide (1000 ≤ ns) && Config.shortReset ns)

/-- A restart from RESET_N: the pin stays low until time 0 of the next start sequence (R377). -/
def State.resetPin (s : State) : State := (s.restart 1).onDev (fun d => d.onPwr (fun p => { p with resetLow := true }))

/-- RESET_N_ASSERTED (R491). -/
def execResetNAsserted (s : State) (lowNs : Nat := 10000) : Host.Outcome State Fault Refusal :=
  .next (if resetTakes lowNs && s.dev.domainOn .aon then s.resetPin else s)

/-- A restart from a supply. After the loss of VDD_AON (`aon`) nothing acts until it returns, which is POWER_ON, and the VSEL lands
read 0b000 (R398, R483). -/
def State.supplyRestart (s : State) (aon : Bool) : State :=
  (s.restart 2).onDev (fun d => d.onPwr (fun p => { p with aonLost := aon }))

/-- SUPPLY_FAULT of VDD_AON (`aon`) or of another supply but VLED; in PARK the supplies are watched under R482 (R398). -/
def execSupplyFault (s : State) (aon : Bool := false) : Host.Outcome State Fault Refusal :=
  .next (if s.dev.pwr.state == .park || s.dev.pwr.aonLost then s else s.supplyRestart aon)

/-- RETENTION_LOST: VDD_AON (`aon`) or another supply that PARK requires has fallen out of range, and `io` says whether VDD_IO is
absent with it. Without VDD_AON nothing acts until it returns, which is POWER_ON; without VDD_IO the pulls hold VSEL (R408, R482,
R483). -/
def execRetentionLost (aon : Bool) (s : State) (io : Bool := false) : Host.Outcome State Fault Refusal :=
  .next (if s.dev.pwr.state == .park then
      s.onDev (fun d => d.onPwr (fun p =>
        { p with aonLost := p.aonLost || aon, retentionLost := p.retentionLost || !aon, ioLost := p.ioLost || io }))
    else s)

/-- START_TIME_ZERO, for which every supply stands: ADDR and TEST_EN are sampled, the KEEP oscillator starts, and START reads the fuses (R355, R397, R442,
R461, R468). -/
def execStartTimeZero (addr : BitVec 3) (testEn : Bool) (s : State) : Host.Outcome State Fault Refusal :=
  .next (
    if s.dev.pwr.started || s.dev.pwr.aonLost then s
    else s.onDev (fun d =>
      let o := s.otp
      let d := { d with timeZero := d.now }
      let d := d.onPwr (fun p => { p with started := true, keepOn := true, pgood := true, resetLow := false })
      let d := (d.onMgmt (fun m => { m with addr := addr })).onTest (fun t => { t with testEn := testEn })
      let d := (d.onKeep (fun k => { k with tickAt := d.now })).onLedg (fun l => { l with lampAt := d.now })
      d.onSec (fun x => { x with
        claimed := o.claimed, rootHash := o.rootHash, torn := !o.claimed && (!allZero o.rootHash || o.rootCrc != 0) })))

/-- The clocks run again after PARK: the KEEP clock has not counted (R310), LOCK_S is as it was (R461), and the lamp clock takes what the AON oscillator,
accurate to ±1 %, has counted (R436, log 8). -/
def Dev.clocksResume (d : Dev) : Dev :=
  let t := d.now - d.pwr.parkAt
  let d := d.onLedg (fun l => { l with lampBase := l.lampBase + looseCount d.keep.draws 100 t / cyclesPerMs, lampAt := d.now })
  let d := d.onSec (fun x => { x with lockAt := x.lockAt + t })
  d.onKeep (fun k => { k with tickAt := k.tickAt + t, lostAt := k.lostAt + t, draws := k.draws + 1 })

/-- PLL_LOCKED: in START the domains come on; on a wake, 100 µs after PGOOD_CORE, the clocks start, the clamps are released, in which
cycle an access is still judged as off, and the DRAM leaves self-refresh (R208, R397, R419, R421, R422); what TEST deferred acts then
(R466). The Keeper's register check of the wake is KEEPER_REGISTER_CHECK. -/
def execPllLocked (s : State) : Host.Outcome State Fault Refusal :=
  .next (
    let p := s.dev.pwr
    if p.state == .start && p.started && !p.locked then
      s.onDev (fun d => (d.onPwr (fun p => { p with locked := true })).startLink)
    else if p.state == .wake && s.dev.seesPgood && !p.wakeClocks then
      (s.onDev (fun d =>
        let d := d.onPwr (fun p => { p with wakeClocks := true, clampAt := some d.now })
        let d := (d.onMemc (fun m => { m with selfRefresh := false })).clocksResume
        (d.onLink (fun l => { l with backoffMs := 1 })).startLink)).keepWake
    else s)

/-! ## Slots (R391, R394, R395) -/

/-- Reason why a slot is no candidate, 0 when it is one; `bad` is a reason already found (R391, R406). -/
def State.candReason (s : State) (bad : Nat) (h : Option SlotHead) : Nat :=
  if bad ≠ 0 then bad
  else match h with
    | none => 9
    | some h =>
      if !headerOk h then 1
      else if hdrSerial h ≠ 0 ∧ hdrSerial h ≠ s.otp.serial.toNat then 2
      else if hdrRollback h < s.otp.rollback then 3
      else 0

/-- The candidate to try next, true for B: the higher VERSION, slot A when the versions are equal (R391). -/
def Cfg.nextCandidate (c : Cfg) : Option Bool :=
  let a := c.candA && c.whyA == 0
  let b := c.candB && c.whyB == 0
  let ver (h : Option SlotHead) : Nat := (h.map hdrVersion).getD 0
  if a && b then some (decide (ver c.headA < ver c.headB)) else if a then some false else if b then some true else none

/-- NO_IMAGE (R395, R405). -/
def Dev.noImage (d : Dev) : Dev :=
  let d := d.onCfg (fun c => { c with noImage := true, load := .halted, tries := 0 })
  (d.send 0xC9 0x37 1 (d.cfg.whyB * 256 + d.cfg.whyA)).busFreed

/-- SECTION_INVALID is sent and recorded for the slot being loaded (R405, R407). -/
def Dev.reportInvalid (d : Dev) (sec why : Nat) : Dev :=
  let b := d.cfg.slotB
  let d := d.onCfg (fun c => { c with
    failReason := why, failSection := sec, failSlotB := b
    whyA := if b then c.whyA else why, whyB := if b then why else c.whyB, fallback := true })
  d.send 0xC9 0x36 1 (b1 b * 2 ^ 24 + sec * 256 + why)

/-- The directory of the slot chosen is valid (0), did not read (9) or breaks R380 (4): R391, R406. -/
def Cfg.directoryWhy (c : Cfg) : Nat :=
  if (if c.slotB then c.dirFailB else c.dirFailA) then 9 else if directoryOk c.head then 0 else 4

/-- Try the candidates that remain; a slot whose directory does not read or breaks R380 is invalid at once. -/
def Dev.trySlots : Nat → Dev → Dev
  | 0, d => d.noImage
  | n + 1, d =>
    match d.cfg.nextCandidate with
    | none => d.noImage
    | some b =>
      let d := d.onCfg (fun c => { c with slotB := b, load := .signature, tries := 0 })
      let w := d.cfg.directoryWhy
      if w = 0 then d else Dev.trySlots n (d.reportInvalid 0 w)

/-! ## The slot is abandoned (R394; log 116) -/

/-- What the calibration keeps when a slot is abandoned: the charges and wear that the ledger restored. -/
def CalTile.restoredOnly (x : CalTile) : CalTile := { q := x.q }

/-- Fairway receive without what a section gave it: no generation and no data waits for layer memory. The credits of the frames
that waited are freed as others are, nothing but R221 sets the counters, and what is to be sent stays. -/
def Fw.abandon (f : Fw) : Fw :=
  let n := f.writes.countP (fun w => w.owes)
  { f with
    partPkt := none, writes := [], held1 := f.held1 - n, kept1 := f.kept1 + n, vc1Bytes := 0, throttled := false, bufs := [] }

/-- The memory controller at reset but for its counters; the training of the DRAM and DRAM-less mode are no part of a section. -/
def Memc.abandon (m : Memc) : Memc :=
  { trained := m.trained, trainDone := m.trainDone, dramLess := m.dramLess, cause := m.cause, selfRefresh := m.selfRefresh
    corrected := m.corrected, uncorrectable := m.uncorrectable, window := m.window, windowOver := m.windowOver
    retrainFails := m.retrainFails, maxDebt := m.maxDebt, forced := m.forced, forwarded := m.forwarded, panics := m.panics
    draws := m.draws }

/-- The chains and registers of a tile at reset but for their counters; a dark tile stays dark, and a tile leaves the exclusion
mask at restart only (R319). -/
def Tile.abandon (x : Tile) : Tile :=
  { dark := x.dark, refSel := x.refSel, excluded := x.excluded, hdrRefused := x.hdrRefused, crcFail := x.crcFail
    returnFail := x.returnFail, cut := x.cut }

/-- The array block at reset but for its counters, what the sensors and VLED show, and START_DONE, which once set stays set (R7). -/
def Arr.abandon (a : Arr) : Arr :=
  { startShown := a.startDone || a.startShown, passFail := a.passFail, overFrames := a.overFrames, clampFrames := a.clampFrames, temps := a.temps, tmax := a.tmax
    vledMeas := a.vledMeas, vledReq := a.vledReq, vledValid := a.vledValid }

/-- The timebases and the schedule sequencer at reset but for their counters, FRM_SCHED_ERR and FRM_SCHED.LOADED, which once set stay
set (R7). -/
def Frm.abandon (f : Frm) : Frm :=
  { schedErr := f.schedErr, schedLoaded := f.schedLoaded, extFrames := f.extFrames, forcedTicks := f.forcedTicks, late := f.late, refused := f.refused
    repeatFrames := f.repeatFrames, modeChanges := f.modeChanges, syncFaults := f.syncFaults, misses := f.misses
    limitReject := f.limitReject, throttle := f.throttle }

/-- The beam engines at reset but for their counters. -/
def Eng.abandon (e : Eng) : Eng :=
  { rejects := e.rejects, bbCorrected := e.bbCorrected, bbUncorrectable := e.bbUncorrectable, sectDropped := e.sectDropped
    dipFrames := e.dipFrames, sectRefused := e.sectRefused, symDropped := e.symDropped, symClamped := e.symClamped
    symRefused := e.symRefused }

/-- The check engines at reset but for their counters. -/
def Chk.abandon (c : Chk) : Chk :=
  { ce2 := { rounds := c.ce2.rounds }, ce3 := { rounds := c.ce3.rounds }, data := c.data, value := c.value
    transient := c.transient, poisonedCnt := c.poisonedCnt, skipped := c.skipped }

/-- Pixel diagnostics at reset but for its counters; SAFE stays, and with it that it stands stopped. -/
def Diag.abandon (g : Diag) : Diag :=
  { stopped := g.stopped, tieFull := g.tieFull, episodes := g.episodes, unconfirmed := g.unconfirmed
    unattributed := g.unattributed }

/-- The calibration at reset but for its counters, what the ledger restored and RESTORED, which once set stays set (R7); SAFE stays, and
with it that it stands stopped. -/
def Cal.abandon (c : Cal) : Cal :=
  { restored := c.restored, tiles := SMap.mapAll {} (fun _ x => x.restoredOnly) c.tiles, draws := c.draws, stopped := c.stopped, commits := c.commits
    stageMisses := c.stageMisses }

/-- The security engine at reset; the fuses it has read, the key check and a lockout are no part of a section. -/
def Sec.abandon (x : Sec) : Sec :=
  { claimed := x.claimed, rootHash := x.rootHash, torn := x.torn, keyOk := x.keyOk, keyChecked := x.keyChecked, nonce := x.nonce
    draws := x.draws, fusing := x.fusing, fails := x.fails, lockLen := x.lockLen, lockAt := x.lockAt }

/-- Every block that took a section of the slot returns to its reset state but for its counters (R382, R394), the Keeper once its clock
runs (R16, log 152); a block that took none stays as it is. -/
def State.abandonSlot (s : State) : State :=
  let took (ids : List Nat) : Bool := ids.any s.dev.has
  let d := s.dev.endSession
  let c := d.cfg
  { s with
    cells := if took [1] then [] else s.cells
    dev := { d with
      tiles := if took [1] then SMap.mapAll {} (fun _ x => x.abandon) d.tiles else d.tiles
      arr := if took [1, 9] then d.arr.abandon else d.arr
      frm := if took [2] then d.frm.abandon else d.frm
      eng := if took [3, 4, 5, 6, 7, 8, 9, 12, 13] then d.eng.abandon else d.eng
      comp := if took [3, 4, 5, 6, 7, 8, 9, 12, 13] then {} else d.comp
      chk := if took [4] then d.chk.abandon else d.chk
      diag := if took [6, 9] then d.diag.abandon else d.diag
      keep := if took [10] && d.keeperRuns then d.keep.abandon else d.keep
      test := if took [10] && !d.keeperRuns then (d.keepLater .tableAbandoned).test else d.test
      fw := if took [3] then d.fw.abandon else d.fw
      memc := if took [4] then d.memc.abandon else d.memc
      sec := if took [14] then d.sec.abandon else d.sec
      cal := if took [11] then d.cal.abandon else d.cal
      cfg := { c with
        signed := false, rootKey := [], signerKey := [], verified := 0, sects := [], contentKey := none, symbolsOff := false } } }

/-- The slot being loaded is invalid before tick 0: with the leading light lit nothing further is read, else the slot is
abandoned and the other candidate is tried (R394, R399). -/
def State.slotInvalid (s : State) (sec why : Nat) : State :=
  let s := s.onDev (fun d => d.reportInvalid sec why)
  if s.dev.cfg.startLit then s.onDev (fun d => (d.onCfg (fun c => { c with load := .halted, tries := 0 })).busFreed)
  else s.abandonSlot.onDev (Dev.trySlots 2)

/-- SYMBOLS fails: the symbol layer draws nothing until restart, and the slot stays in force (R396). -/
def Dev.symbolsFail (d : Dev) (why : Nat) : Dev :=
  let b := d.cfg.slotB
  let d := d.onCfg (fun c => { c with
    failReason := why, failSection := 12, failSlotB := b, symbolsOff := true, load := .done, tries := 0 })
  (d.send 0xC9 0x36 1 (b1 b * 2 ^ 24 + 12 * 256 + why)).busFreed

/-- A finding at a header: the last one stands in CFG_FAIL; no message belongs to a slot that is not being loaded (R394, R407,
log 71). -/
def Cfg.headerFinding (c : Cfg) (slotB : Bool) (why : Nat) : Cfg :=
  if slotB then
    if why = 0 ∨ c.whyB ≠ 0 then c else { c with whyB := why, failReason := why, failSection := 0, failSlotB := true }
  else if why = 0 ∨ c.whyA ≠ 0 then c else { c with whyA := why, failReason := why, failSection := 0, failSlotB := false }

/-- A unit that holds no claim: no slot is tried, whatever its header, and the reason is UNCLAIMED for both; slot B's finding is the
last (R2, R395, R406, R407). -/
def Cfg.unclaimed (c : Cfg) : Cfg :=
  { c with whyA := 10, whyB := 10, failReason := 10, failSection := 0, failSlotB := true }

/-- FLASH_HEADER_READ: the candidates are judged and a slot is chosen; an unclaimed unit has no image (R2, R391, R395). The clock
is the highest that the SFDP tables allow, `mhz`, up to 200 MHz (R375). -/
def execFlashHeaderRead (a b : Option SlotHead) (octal : Bool) (mhz : BitVec 8) (s : State) : Host.Outcome State Fault Refusal :=
  .next (
    if !(s.dev.inStart && s.dev.pwr.mainOn && s.dev.cfg.load == .idle) then s
    else
      let wa := s.candReason s.dev.cfg.whyA a
      let wb := s.candReason s.dev.cfg.whyB b
      s.onDev (fun d =>
        let d := d.onCfg (fun c => { c with
          headA := a, headB := b, candA := wa == 0, candB := wb == 0, octal := octal, mhz := Nat.min 200 mhz.toNat })
        if d.sec.claimed then (d.onCfg (fun c => (c.headerFinding false wa).headerFinding true wb)).trySlots 2
        else (d.onCfg Cfg.unclaimed).noImage))

/-! ## SIGNATURE (R356) -/

/-- The three checks of R356 on the 256 bytes. -/
def Dev.signatureOk (d : Dev) (sig : Bytes) : Bool :=
  let root := slice sig 0 64
  let signer := slice sig 64 64
  sig.length == 256 && Config.sha256 root == d.sec.rootHash &&
  Config.ecdsaVerify root (Config.sha256 signer) (slice sig 128 64) &&
  Config.ecdsaVerify signer (Config.sha256 (d.cfg.head.header ++ d.cfg.head.dir)) (slice sig 192 64)

/-- SIGNATURE_VERIFIED: the loader has read SIGNATURE, and the checks are complete. -/
def execSignatureVerified (sig : Bytes) (s : State) : Host.Outcome State Fault Refusal :=
  .next (
    if !(s.dev.inStart && s.dev.pwr.mainOn && s.dev.cfg.load == .signature) then s
    else if s.dev.signatureOk sig then
      s.onDev (fun d => d.onCfg (fun c => { c with
        signed := true, rootKey := slice sig 0 64, signerKey := slice sig 64 64, load := .sections 0, tries := 0 }))
    else s.slotInvalid 15 5)

/-! ## Decryption (R358) -/

/-- Open AES-GCM: the plaintext when the tag matches. -/
def gcmOpen (key nonce aad ct tag : Bytes) : Option Bytes :=
  let p := Config.gcmPlain key nonce aad ct
  if (Config.gcmSeal key nonce aad p).2 = tag then some p else none

/-- The 6 bytes "LLWRAP". -/
def wrapLabel : Bytes := [0x4C, 0x4C, 0x57, 0x52, 0x41, 0x50]

/-- The content key from the wrap entry of this unit in the KEYS section. -/
def State.unwrap (s : State) (d : Dev) : Option Bytes :=
  match Config.certInfo s.otp.cert with
  | none => none
  | some c =>
    let id := (Config.sha256 c.pub).take 8
    match ((List.range d.nWrap).map d.wrapEntry).find? (fun e => e.take 8 == id) with
    | none => none
    | some e =>
      let kek := Config.hkdf (Config.ecdhX s.otp.privKey (slice e 8 64)) id wrapLabel 32
      gcmOpen kek (List.replicate 12 0) id (slice e 72 32) (slice e 104 16)

/-- Plaintext of a section as stored, or none where R358 makes it invalid. -/
def State.sectionPlain (s : State) (id : Nat) (stored : Bytes) : Option Bytes :=
  let h := s.dev.cfg.head
  if !dirEnc h id then some stored
  else if !s.otp.keyFits then none
  else match s.dev.cfg.contentKey with
    | none => none
    | some k =>
      let n := stored.length - 16
      gcmOpen k (toBe 4 id ++ toBe 4 (hdrVersion h) ++ [0, 0, 0, 0]) (dirEntry h id) (stored.take n) (stored.drop n)

/-! ## Sections (R21, R393) -/

/-- What of a section the store keeps: of GAIN_MAP the tile gains, of SYMBOLS header and entries (R125, R149, R390). -/
def keptPart (id : Nat) (p : Bytes) : Bytes :=
  if id = 7 then slice p 2162688 768 else if id = 12 then p.take (16 + 16 * bits (wordAt p 0) 0 13) else p

/-- The section is placed and counts as verified. -/
def Dev.place (d : Dev) (id : Nat) (p : Bytes) : Dev :=
  d.onCfg (fun c => { c with
    verified := c.verified ||| (1#16 <<< id), sects := SMap.set [] c.sects id (keptPart id p) })

/-- The load check of section `id`, placed in `d`, with plaintext `p` (R494 and the rule of its layout). -/
def Dev.contentOk (d : Dev) (id : Nat) (p : Bytes) : Bool :=
  match id with
  | 1 => d.safeMaskOk
  | 2 => d.scheduleOk
  | 3 => d.boundsOk
  | 4 => d.layersOk
  | 5 => d.blendOk
  | 6 => d.warpOk
  | 7 => gainMapOk p
  | 8 => d.tintOk
  | 9 => d.limitsOk
  | 10 => d.keeperTableOk
  | 11 => d.wearModelOk
  | 12 => symbolsOk p
  | 13 => d.standaloneOk
  | _ => d.keysOk

/-- Every section is verified, or SYMBOLS is skipped (R396, R404, R407). -/
def Dev.loadDone (d : Dev) : Dev :=
  (d.onCfg (fun c => { c with
    load := .done, tries := 0, allVerified := true, verifiedAt := Nat.min 65535 ((d.now - d.timeZero) / 2000) })).busFreed

/-- In DRAM-less mode SYMBOLS is not read (R396). -/
def Dev.skipSymbols (d : Dev) : Dev :=
  if d.memc.dramLess && d.cfg.loading == some 12 then (d.onCfg (fun c => { c with symbolsOff := true })).loadDone else d

/-- A set held before SYMBOLS was verified loses the instances that fail the SPRITE test (R151). -/
def Dev.spriteFilter (d : Dev) (x : SymSet) : SymSet := { insts := x.insts.filter (fun i => !d.noSprite i) }

/-- The held sets pass the SPRITE test, and the drops are counted (R151). -/
def Dev.dropSprites (d : Dev) : Dev :=
  let bad (o : Option SymSet) : Nat := (o.map (fun x => x.insts.length - (d.spriteFilter x).insts.length)).getD 0
  let held := [bad d.eng.sym, bad d.eng.symStaged] ++ d.frm.commits.map (fun c => bad c.sym) ++
    d.frm.delayed.map (fun c => bad c.commit.sym)
  let fix (c : Commit) : Commit := { c with sym := c.sym.map d.spriteFilter }
  let d' := d.onEng (fun e => { e with
    sym := e.sym.map d.spriteFilter, symStaged := e.symStaged.map d.spriteFilter
    symDropped := satAdd 65535 e.symDropped (sumNat held) })
  let d' := d'.onFrm (fun f => { f with
    commits := f.commits.map fix, delayed := f.delayed.map (fun x => { x with commit := fix x.commit }) })
  held.foldl (fun d n => d.raiseIf (n != 0) 60) d'

/-- What a section does when it takes effect in its blocks (R21, R52, R151, R393). -/
def State.takeEffect (s : State) (id : Nat) (p : Bytes) (hdr : List HdrErr) : State :=
  match id with
  | 1 => (List.range 192).foldl (fun s t => if s.dev.isDark t then s else s.safePasses t hdr) s
  | 2 => s.onDev (fun d => d.onFrm (fun f => { f with schedLoaded := true, mode := 0 }))
  | 4 => s.onDev (fun d =>
      let d := d.onEng (fun e => { e with slots := (e.slots.zipIdx).map (fun x => { x.1 with cur := d.initDesc x.2 }) })
      let copies (w : Nat) : List Nat := (List.range d.scanCount).map (fun e => d.scanWord (w + 4 * e))
      d.onChk (fun c => { c with expA := copies 11, expB := copies 12 }))
  | 5 => s.onDev (fun d => d.onEng (fun e => { e with blend := d.initBlend }))
  | 7 => if s.dev.memc.dramLess then s else s.writeMem 0x35000000 (p.take 2162688)
  | 10 => s.onDev (fun d => if d.keeperRuns then d.takeTable else d.keepLater .tableLoaded)
  | 12 =>
    let s := s.writeMem 0x34000000 (p.drop (16 + 16 * bits (wordAt p 0) 0 13))
    s.onDev (fun d => (d.onEng (fun e => { e with libReady := true })).dropSprites.loadDone)
  | 14 => let k := s.unwrap s.dev
          s.onDev (fun d => d.onCfg (fun c => { c with contentKey := k }))
  | _ => s

/-- The section that the loader reads is invalid. -/
def State.sectionInvalid (s : State) (id why : Nat) : State :=
  if id = 12 then s.onDev (fun d => d.symbolsFail why) else s.slotInvalid id why

/-- The section that the loader has read, as stored. -/
def State.sectionVerified (s : State) (id : Nat) (stored : Bytes) (hdr : List HdrErr) : State :=
  let h := s.dev.cfg.head
  if Config.sha256 stored ≠ dirHash h id then s.sectionInvalid id 6
  else match s.sectionPlain id stored with
    | none => s.sectionInvalid id 7
    | some p =>
      let d := s.dev.place id p
      if d.contentOk id p then
        (({ s with dev := d.onCfg (fun c => { c.loadNext with tries := 0 }) } : State).takeEffect id p hdr).onDev Dev.skipSymbols
      else
        let err := if id = 2 ∧ s.dev.frm.schedErr.1 = 0 then d.schedError else none
        (s.onDev (fun d => d.onFrm (fun f => { f with schedErr := err.getD f.schedErr }))).sectionInvalid id 8

/-- SECTION_VERIFIED: hash and load checks of the section being read are complete; `stored` are its bytes (R21, R394, R396),
and `hdr` the headers, disturbed, of the SAFE passes that SAFE_MASK starts (R41, R52). -/
def execSectionVerified (stored : Bytes) (s : State) (hdr : List HdrErr := []) : Host.Outcome State Fault Refusal :=
  .next (
    match s.dev.cfg.loading with
    | none => s
    | some id =>
      if !s.dev.pwr.mainOn || id == 0 then s
      else if id == 12 && s.dev.memc.dramLess then s.onDev Dev.skipSymbols
      else if stored.length ≠ dirLength s.dev.cfg.head id then s
      else s.sectionVerified id stored hdr)

/-- A read whose strobe did not arrive, for the fourth time in a row (R375). A header that does not read is no candidate's; a
directory that does not read makes its slot invalid when it is tried (R391). -/
def State.readFails (s : State) (slotB dir : Bool) : State :=
  match s.dev.cfg.load with
  | .idle => s.onDev (fun d => d.onCfg (fun c =>
      if !dir then c.headerFinding slotB 9
      else if slotB then { c with dirFailB := true } else { c with dirFailA := true }))
  | .signature => s.slotInvalid 15 9
  | .sections _ =>
    match s.dev.cfg.loading with
    | some 0 => s
    | some id => s.sectionInvalid id 9
    | none => s
  | _ => s

/-- Repeats of the read under way: of the header or the directory of a slot before the headers are read (R375). -/
def Cfg.triesOf (c : Cfg) (slotB dir : Bool) : Nat :=
  if c.load != .idle then c.tries
  else if dir then (if slotB then c.triesDirB else c.triesDir) else if slotB then c.triesB else c.tries

/-- Set that count. -/
def Cfg.setTries (c : Cfg) (slotB dir : Bool) (k : Nat) : Cfg :=
  if c.load != .idle then { c with tries := k }
  else if dir then (if slotB then { c with triesDirB := k } else { c with triesDir := k })
  else if slotB then { c with triesB := k } else { c with tries := k }

/-- FLASH_READ_RETRY: a read strobe does not arrive; the read is repeated up to three times (R375). `slotB` names the slot
while the headers are read, `dir` its directory instead of its header. -/
def execFlashReadRetry (slotB : Bool) (s : State) (dir : Bool := false) : Host.Outcome State Fault Refusal :=
  .next (
    if !s.dev.pwr.mainOn then s
    else
      let n := s.dev.cfg.triesOf slotB dir
      if n < 3 then s.onDev (fun d => d.onCfg (fun c => { (c.setTries slotB dir (n + 1)) with retries := satInc 65535 c.retries }))
      else (s.onDev (fun d => d.onCfg (fun c => c.setTries slotB dir 0))).readFails slotB dir)

/-! ## DRAM training, tick 0 and the leading light in START -/

/-- DRAM_TRAINING_DONE: a setting passes on both channels, or DRAM-less mode takes effect (R254, R258). -/
def execDramTrainingDone (pass : Bool) (s : State) : Host.Outcome State Fault Refusal :=
  .next (s.onDev (fun d =>
    if !(d.inStart && d.pwr.mainOn && !d.memc.trainDone) then d
    else if pass then d.onMemc (fun m => { m with trainDone := true, trained := true })
    else
      let d := d.onMemc (fun m => { m with trainDone := true, dramLess := true, cause := false })
      ((d.raise 45).send 0xC4 0x1A 1 0).skipSymbols))

/-- TICK_ZERO: tick 0 falls at the boundary whose decision point found every condition, and START ends (R400, R407, R429).
`vledMv` is VLED as it stood at that decision point; where it is below 3.60 V the boundary passes without a tick. -/
def execTickZero (vledMv : Nat) (temps : List (BitVec 12)) (s : State) : Host.Outcome State Fault Refusal :=
  .next (
    if !(s.dev.inStart && s.dev.pwr.mainOn && !s.lat.safe && s.dev.frm.decision == .tick) then s
    else if vledMv < 3600 then s.onDev (fun d => d.onFrm (fun f => { f with decision := .none }))
    else
      (s.tickCore temps).onDev (fun d =>
        let d := (d.onLedg (fun l => { l with starts := satInc (2 ^ 32 - 1) l.starts })).onPwr (fun p => { p with state := .run })
        d.onCfg (fun c => { c with tick0 := Nat.min 65535 ((d.now - d.timeZero) / 2000) })))

/-- START_LEADING_LIGHT: the conditions of R399 hold while the SAFE latch is set in START; the chain loaders stop (R322, R399). -/
def execStartLeadingLight (vledMv : Nat) (s : State) : Host.Outcome State Fault Refusal :=
  .next (
    let d := s.dev
    if d.inStart && d.pwr.mainOn && s.lat.safe && d.cfg.signed && d.has 1 && d.has 9 && d.arr.startDone && decide (3600 ≤ vledMv) &&
        !d.test.testEn && !d.cfg.startLit then
      s.onDev (fun d => (d.onCfg (fun c => { c with startLit := true })).onArr (fun a => { a with passes := [] }))
    else s)

/-- IMG_FETCH: the loader has fetched the word at CFG_IMG_ADDR, outside its bus tenure of R404 (R407). -/
def execImgFetch (data : Word) (s : State) : Host.Outcome State Fault Refusal :=
  .next (s.onDev (fun d =>
    if d.pwr.mainOn && !d.cfg.holdsBus then d.onCfg (fun c => { c with imgReady := true, imgWord := data, tries := 0 }) else d))

end Sys2Proof.Machine
end

