-- ==== Sys2Proof/Machine/Power.lean ====
section
/-! DEFINITION. Power events (R401, R409 to R420): PGOOD_CORE, the switch of the CORE clock, PARK, waking, the resumption
boundary and the filtered body-controller pins. The requests themselves stand in Requests.lean. -/

namespace Sys2Proof.Machine

/-! ## Level changes (R409 to R411) -/

/-- PENDING_REQUEST_START. -/
def execPendingRequestStart (s : State) : Host.Outcome State Fault Refusal := .next s.pendingStart

/-- PGOOD_CORE is asserted, as the unit sees it: an upward change may switch its clock, a downward one whose level is in force is
complete (R411). -/
def Pwr.pgoodSeen (p : Pwr) : Pwr :=
  match p.change with
  | none => p
  | some c =>
    match c.step with
    | .upPgood => { p with change := some { c with step := .upSwitch } }
    | .downPgood => if c.switched then p else { p.endChange with changes := satInc 65535 p.changes }
    | _ => p

/-- PGOOD_CORE rises, or is still asserted 20.0 µs after a change of VSEL: until then it is ignored (R409, log 80). -/
def Dev.pgoodAssert (d : Dev) : Dev :=
  d.onPwr (fun p => { (if d.ignoresPgood then p else p.pgoodSeen) with pgood := true })

/-- PGOOD_ASSERT: PWR_STATUS.PGOOD shows the pin in every state (R423). -/
def execPgoodAssert (s : State) : Host.Outcome State Fault Refusal :=
  .next (if s.dev.domainOn .aon then s.onDev Dev.pgoodAssert else s)

/-- The request counts as aborted with refuser REG, and LEVEL_TIMEOUT is sent (R411, R424). -/
def Dev.levelTimeout (d : Dev) (c : Change) (down : Bool) : Dev :=
  let t := c.target.toNat
  let d := (d.onPwr (fun p => { p with timeouts := satInc 255 p.timeouts })).refuseReq 7 t
  d.send 0xCA 0x39 0 (t + 256 * b1 down)

/-- The code that requests the voltage of a level (R408). -/
def vselOf (level : BitVec 2) : BitVec 3 := level.setWidth 3

/-- PGOOD_TIMEOUT: 1.00 ms after the new code PGOOD_CORE is not there (R411); where it is, it is seen. -/
def execPgoodTimeout (s : State) : Host.Outcome State Fault Refusal :=
  .next (s.onDev (fun d =>
    match d.pwr.change with
    | none => d
    | some c =>
      if d.seesPgood then d.onPwr Pwr.pgoodSeen
      else match c.step with
      | .upPgood =>
        (d.onPwr (fun p => { p.endChange with vsel := vselOf c.old, pgood := false, vselAt := some d.now })).levelTimeout c false
      | .downPgood =>
        (d.onPwr (fun p => { p with
          vsel := vselOf c.old, pgood := false, vselAt := some d.now
          change := some { c with step := .downRestore, switched := false } })).levelTimeout c true
      | _ => d))

/-- RUN, with the states in which a request proceeds in it (R409, R423, log 114). -/
def Pwr.inRun (p : Pwr) : Bool := p.state == .run || p.state == .levelChange || p.state == .prepare || p.state == .entry

/-- PGOOD_LOST: PGOOD_CORE falls while VSEL is unchanged; in RUN it is counted and reported, unless VSEL has changed less than 20.0 µs
ago (R409, R424). -/
def execPgoodLost (s : State) : Host.Outcome State Fault Refusal :=
  .next (s.onDev (fun d =>
    if !d.pwr.pgood || !d.domainOn .aon then d
    else
      let d := d.onPwr (fun p => { p with pgood := false })
      if !d.pwr.inRun || d.ignoresPgood then d
      else (d.onPwr (fun p => { p with pgoodLosses := satInc 255 p.pgoodLosses })).send 0xCA 0x38 1 d.pwr.vsel.toNat))

/-- CLOCK_SWITCH: between a decision point and the tick that falls at its boundary (R410, R411). -/
def execClockSwitch (s : State) : Host.Outcome State Fault Refusal :=
  .next (s.onDev (fun d =>
    let d := if d.seesPgood then d.onPwr Pwr.pgoodSeen else d
    match d.pwr.change with
    | none => d
    | some c =>
      if !s.running || d.frm.decision == .none || c.switched then d
      else match c.step with
        | .upSwitch | .downRestore => d.onPwr (fun p => { p with change := some { c with switched := true } })
        | .downSwitch =>
          d.onPwr (fun p => { p with
            vsel := vselOf c.target, pgood := false, vselAt := some d.now
            change := some { c with step := .downPgood, switched := true } })
        | _ => d))

/-! ## PARK and waking (R416 to R420, R482) -/

/-- A wake begins: VSEL takes the level's code; when retention was lost it is a restart (R419, R482). -/
def State.beginWake (s : State) (src : Nat) : State :=
  if s.dev.pwr.retentionLost then s.restart 2
  else s.onDev (fun d => d.onPwr (fun p => { p with
    state := .wake, wakeAt := d.now, wakeSource := src, heldWake := 0, wakeClocks := false, vsel := vselOf p.level, pgood := false
    vselAt := some d.now }))

/-- A wake source, coded as PWR_WAKE.SOURCE: it aborts prepare, is held during entry, and wakes in PARK, where VDD_AON is present
(R416, R418, R482). -/
def State.wakeEvent (s : State) (src : Nat) : State :=
  if !s.dev.domainOn .aon then s
  else match s.dev.pwr.state with
  | .prepare => s.onDev (fun d => d.abortPark 6)
  | .entry => s.onDev (fun d => d.onPwr (fun p => { p with heldWake := if p.heldWake = 0 then src else p.heldWake }))
  | .park => s.beginWake src
  | _ => s

/-- WAKE_ADDRESS_MATCH. -/
def execWakeAddressMatch (s : State) : Host.Outcome State Fault Refusal := .next (s.wakeEvent 1)

/-- WAKE_PIN_EDGE: an edge of at least 1.00 µs. -/
def execWakePinEdge (pin : Pin) (s : State) : Host.Outcome State Fault Refusal :=
  .next (s.wakeEvent (match pin with | .lb => 2 | .hb => 3))

/-- PARK is reached: the clocks stop, VSEL takes 0b100, the array is dark, and the clamp holds SYNC_OUT low until periods start again
(R416, R417). -/
def Dev.park (d : Dev) : Dev :=
  let d := d.onPwr (fun p => { p with
    state := .park, vsel := 4, pgood := false, vselAt := some d.now, parks := satInc 65535 p.parks, parkAt := d.now
    wakeClocks := false })
  let d := d.onFrm (fun f => { f with syncOut := 0 })
  let d := d.onLedg (fun l => { l with
    parks := satInc (2 ^ 32 - 1) l.parks, lampBase := d.lampMs, lampAt := d.now })
  d.raise 0

/-- PARK_REACHED; a held wake begins at once (R416, R419). The AON latches keep the copies of SYS_STATUS (R460). -/
def execParkReached (s : State) : Host.Outcome State Fault Refusal :=
  .next (
    if s.dev.pwr.state == .entry then
      let held := s.sysSources
      let s := s.onDev (fun d => d.park.onPwr (fun p => { p with sysHeld := held }))
      if s.dev.pwr.heldWake = 0 then s else s.beginWake s.dev.pwr.heldWake
    else s)

/-- WAKE_TIMEOUT: PGOOD_CORE is absent 1.00 ms into the wake (R419). -/
def execWakeTimeout (s : State) : Host.Outcome State Fault Refusal :=
  .next (if s.dev.pwr.state == .wake && !s.dev.seesPgood then s.restart 3 else s)

/-- A SYNC follower loses lock (R102, R420). -/
def Dev.resumeSync (d : Dev) : Dev :=
  if d.syncRole != 2 then d
  else if d.frm.locked then d.syncFault 1
  else d.onFrm (fun f => { f with goodEdges := 0, badEdges := 0, aligned := false, realign := none })

/-- RESUMPTION_BOUNDARY: the frame begun at T_p and its composition start again; nothing is copied, the tick number stays T_p
(R420). Each phase group is dark until it starts period 0. -/
def execResumptionBoundary (s : State) : Host.Outcome State Fault Refusal :=
  .next (s.onDev (fun d =>
    if d.pwr.state == .wake && d.pwr.wakeClocks then
      let d := d.onPwr (fun p => { p with state := .run, wakeTime := Nat.min 65535 ((d.now - p.wakeAt) / 2000), wakeClocks := false })
      let d := d.onFrm (fun f => { f.newFrame f.tick d.now f.lastLen f.applied with
        resumed := true, starts := List.replicate 16 0, prevBase := 0, prevTrans := false, realignNow := 0 })
      ((d.tickCompose d.frm.tick 0).resumeSync).raise 1
    else d))

/-! ## The body-controller pins (R401) -/

/-- PIN_FILTER_CHANGE: ten agreeing samples; AON samples the pins in every state. -/
def execPinFilterChange (pin : Pin) (high : Bool) (s : State) : Host.Outcome State Fault Refusal :=
  .next (s.onDev (fun d =>
    if !d.domainOn .aon then d
    else match pin with
      | .lb => { d with lb := high }
      | .hb => { d with hb := high }))

end Sys2Proof.Machine
end

