-- ==== Sys2Proof/Machine/Dispatch.lean ====
section
/-! DEFINITION. One arm per command: each a direct call of its meaning. -/

namespace Sys2Proof.Machine

/-- The effect of a command on everything but the queue. -/
def exec (i : Instr) (s : State) : Host.Outcome State Fault Refusal :=
  match i with
  | .powerOn => Sys2Proof.Machine.execPowerOn s
  | .resetNAsserted lowNs => Sys2Proof.Machine.execResetNAsserted s lowNs
  | .startTimeZero addr testEn => Sys2Proof.Machine.execStartTimeZero addr testEn s
  | .supplyFault aon => Sys2Proof.Machine.execSupplyFault s aon
  | .retentionLost aon io => Sys2Proof.Machine.execRetentionLost aon s io
  | .keeperRegisterCheck => Sys2Proof.Machine.execKeeperRegisterCheck s
  | .flashHeaderRead a b octal mhz => Sys2Proof.Machine.execFlashHeaderRead a b octal mhz s
  | .flashReadRetry slotB dir => Sys2Proof.Machine.execFlashReadRetry slotB s dir
  | .signatureVerified sig => Sys2Proof.Machine.execSignatureVerified sig s
  | .keyCheck => Sys2Proof.Machine.execKeyCheck s
  | .sectionVerified stored hdr => Sys2Proof.Machine.execSectionVerified stored s hdr
  | .trimImageRestore recs hdr => Sys2Proof.Machine.execTrimImageRestore recs s hdr
  | .dramTrainingDone pass => Sys2Proof.Machine.execDramTrainingDone pass s
  | .startSelftestDone failed => Sys2Proof.Machine.execStartSelftestDone failed s
  | .tickZero vledMv temps => Sys2Proof.Machine.execTickZero vledMv temps s
  | .startLeadingLight vledMv => Sys2Proof.Machine.execStartLeadingLight vledMv s
  | .claimFused => Sys2Proof.Machine.execClaimFused s
  | .decisionPoint => Sys2Proof.Machine.execDecisionPoint s
  | .tick temps => Sys2Proof.Machine.execTick temps s
  | .limitTick temps => Sys2Proof.Machine.execLimitTick temps s
  | .noCommit => Sys2Proof.Machine.execNoCommit s
  | .pwmPeriodStart group => Sys2Proof.Machine.execPwmPeriodStart group s
  | .drivePulseSample tile vledMv cellMv samples => Sys2Proof.Machine.execDrivePulseSample tile vledMv cellMv samples s
  | .conversion tile c code => Sys2Proof.Machine.execConversion tile c code s
  | .probeWindow tile samples => Sys2Proof.Machine.execProbeWindow tile samples s
  | .checkerWindow tile above => Sys2Proof.Machine.execCheckerWindow tile above s
  | .syncInSample high => Sys2Proof.Machine.execSyncInSample high s
  | .syncInEdge highCycles spacing delay offPlace => Sys2Proof.Machine.execSyncInEdge highCycles spacing delay offPlace s
  | .syncRealign offset => Sys2Proof.Machine.execSyncRealign s offset
  | .passApply tile chain err => Sys2Proof.Machine.execPassApply tile chain err s
  | .safeReadbackDue => Sys2Proof.Machine.execSafeReadbackDue s
  | .compose w doneAt poison corrected fetched => Sys2Proof.Machine.execCompose w doneAt poison s corrected fetched
  | .chainDrive w hdr bb => Sys2Proof.Machine.execChainDrive w hdr bb s
  | .chainAux w hdr => Sys2Proof.Machine.execChainAux w hdr s
  | .refresh n doneAt mr40 mr41 => Sys2Proof.Machine.execRefresh n doneAt mr40 mr41 s
  | .ledger n doneAt poison corrected => Sys2Proof.Machine.execLedger n doneAt poison s corrected
  | .scan n doneAt flips poison corrected => Sys2Proof.Machine.execScan n doneAt flips poison s corrected
  | .health n doneAt poison corrected => Sys2Proof.Machine.execHealth n doneAt poison s corrected
  | .retrain n doneAt drifted pass => Sys2Proof.Machine.execRetrain n doneAt drifted pass s
  | .entryDeadline n => Sys2Proof.Machine.execEntryDeadline n s
  | .linkThrottle => Sys2Proof.Machine.execLinkThrottle s
  | .refclkLoss m => Sys2Proof.Machine.execRefclkLoss s m
  | .refclkPresent windows spread => Sys2Proof.Machine.execRefclkPresent windows s spread
  | .laneLock lane recovered before block => Sys2Proof.Machine.execLaneLock lane recovered before block s
  | .laneLoss lane cause => Sys2Proof.Machine.execLaneLoss lane cause s
  | .detectTimeout => Sys2Proof.Machine.execDetectTimeout s
  | .ftsA lane block adapt => Sys2Proof.Machine.execFtsA lane block adapt s
  | .trainATimeout => Sys2Proof.Machine.execTrainATimeout s
  | .ftsB lane block arrivals => Sys2Proof.Machine.execFtsB lane block s arrivals
  | .trainBTimeout => Sys2Proof.Machine.execTrainBTimeout s
  | .backoffEnd => Sys2Proof.Machine.execBackoffEnd s
  | .widthSet lane block => Sys2Proof.Machine.execWidthSet lane block s
  | .widthAck lane block => Sys2Proof.Machine.execWidthAck lane block s
  | .rewidthTimeout => Sys2Proof.Machine.execRewidthTimeout s
  | .restoreAttempt => Sys2Proof.Machine.execRestoreAttempt s
  | .restoreSet lane block => Sys2Proof.Machine.execRestoreSet lane block s
  | .releaseSet lane block => Sys2Proof.Machine.execReleaseSet lane block s
  | .idleFrame frame blocks => Sys2Proof.Machine.execIdleFrame frame s blocks
  | .vc0Frame frame => Sys2Proof.Machine.execVc0Frame frame s
  | .vc0BufferFree => Sys2Proof.Machine.execVc0BufferFree s
  | .vc1Frame frame => Sys2Proof.Machine.execVc1Frame frame s
  | .generationComplete buf => Sys2Proof.Machine.execGenerationComplete buf s
  | .pad => Sys2Proof.Machine.execPad s
  | .layer body => Sys2Proof.Machine.execLayer body s
  | .sectorSet body => Sys2Proof.Machine.execSectorSet body s
  | .symbolSet body => Sys2Proof.Machine.execSymbolSet body s
  | .commit body => Sys2Proof.Machine.execCommit body s
  | .mode body => Sys2Proof.Machine.execMode body s
  | .blend body => Sys2Proof.Machine.execBlend body s
  | .time body => Sys2Proof.Machine.execTime body s
  | .delayedCommitEntry => Sys2Proof.Machine.execDelayedCommitEntry s
  | .replyFrame => Sys2Proof.Machine.execReplyFrame s
  | .witnessFrame bb => Sys2Proof.Machine.execWitnessFrame s bb
  | .helloH frame => Sys2Proof.Machine.execHelloH frame s
  | .finishH frame => Sys2Proof.Machine.execFinishH frame s
  | .abort frame => Sys2Proof.Machine.execAbort frame s
  | .handshakeTimeout => Sys2Proof.Machine.execHandshakeTimeout s
  | .rekey => Sys2Proof.Machine.execRekey s
  | .rekeyRepeat => Sys2Proof.Machine.execRekeyRepeat s
  | .keeperMessage => Sys2Proof.Machine.execKeeperMessage s
  | .keeperTake => Sys2Proof.Machine.execKeeperTake s
  | .consequenceWindowClose => Sys2Proof.Machine.execConsequenceWindowClose s
  | .keeperParity offset => Sys2Proof.Machine.execKeeperParity offset s
  | .keepClockLoss => Sys2Proof.Machine.execKeepClockLoss s
  | .keepClockResume => Sys2Proof.Machine.execKeepClockResume s
  | .clear1 crc => Sys2Proof.Machine.execClear1 crc s
  | .clear2 crc => Sys2Proof.Machine.execClear2 crc s
  | .keepHistSel index crc => Sys2Proof.Machine.execKeepHistSel index crc s
  | .giveUp u cause => Sys2Proof.Machine.execGiveUp u cause s
  | .standbyParityFault u => Sys2Proof.Machine.execStandbyParityFault u s
  | .selftestPass u => Sys2Proof.Machine.execSelftestPass u s
  | .selftestFail u test => Sys2Proof.Machine.execSelftestFail u test s
  | .resync u => Sys2Proof.Machine.execResync u s
  | .calPassEnd => Sys2Proof.Machine.execCalPassEnd s
  | .trimCommit => Sys2Proof.Machine.execTrimCommit s
  | .diagMapData ecc => Sys2Proof.Machine.execDiagMapData s ecc
  | .memRequest op => Sys2Proof.Machine.execMemRequest op s
  | .memTransferDone ch ready ecc levels => Sys2Proof.Machine.execMemTransferDone ch ready ecc levels s
  | .refreshDue ch => Sys2Proof.Machine.execRefreshDue ch s
  | .eccWindow => Sys2Proof.Machine.execEccWindow s
  | .fallbackCopyDone poison corrected => Sys2Proof.Machine.execFallbackCopyDone poison s corrected
  | .unlockService key crc => Sys2Proof.Machine.execUnlockService key crc s
  | .unlockMaker key crc => Sys2Proof.Machine.execUnlockMaker key crc s
  | .unlockVendor crc => Sys2Proof.Machine.execUnlockVendor crc s
  | .claim crc => Sys2Proof.Machine.execClaim crc s
  | .signStatus crc => Sys2Proof.Machine.execSignStatus crc s
  | .secCommandDone => Sys2Proof.Machine.execSecCommandDone s
  | .lockoutExpiry => Sys2Proof.Machine.execLockoutExpiry s
  | .periodicCheckpoint => Sys2Proof.Machine.execPeriodicCheckpoint s
  | .pfwNFall => Sys2Proof.Machine.execPfwNFall s
  | .recordWritten ok => Sys2Proof.Machine.execRecordWritten ok s
  | .rollbackFuse => Sys2Proof.Machine.execRollbackFuse s
  | .levelRequest target crc => Sys2Proof.Machine.execLevelRequest target crc s
  | .parkRequest crc => Sys2Proof.Machine.execParkRequest crc s
  | .pendingRequestStart => Sys2Proof.Machine.execPendingRequestStart s
  | .pgoodAssert => Sys2Proof.Machine.execPgoodAssert s
  | .pgoodTimeout => Sys2Proof.Machine.execPgoodTimeout s
  | .pgoodLost => Sys2Proof.Machine.execPgoodLost s
  | .clockSwitch => Sys2Proof.Machine.execClockSwitch s
  | .parkReached => Sys2Proof.Machine.execParkReached s
  | .wakeAddressMatch => Sys2Proof.Machine.execWakeAddressMatch s
  | .wakePinEdge pin => Sys2Proof.Machine.execWakePinEdge pin s
  | .wakeTimeout => Sys2Proof.Machine.execWakeTimeout s
  | .resumptionBoundary => Sys2Proof.Machine.execResumptionBoundary s
  | .pinFilterChange pin high => Sys2Proof.Machine.execPinFilterChange pin high s
  | .registerWrite bytes => Sys2Proof.Machine.execRegisterWrite bytes s
  | .pointerWrite hi lo => Sys2Proof.Machine.execPointerWrite hi lo s
  | .i2cBusTimeout => Sys2Proof.Machine.execI2cBusTimeout s
  | .evtPendClear m data crc => Sys2Proof.Machine.execEvtPendClear m data crc s
  | .cfgImgAddr addr crc => Sys2Proof.Machine.execCfgImgAddr addr crc s
  | .cfgImgData => Sys2Proof.Machine.execCfgImgData s
  | .imgFetch data => Sys2Proof.Machine.execImgFetch data s
  | .secCertData => Sys2Proof.Machine.execSecCertData s
  | .ledgUtcHi => Sys2Proof.Machine.execLedgUtcHi s
  | .creditHold data crc => Sys2Proof.Machine.execCreditHold data crc s
  | .portDelay data crc => Sys2Proof.Machine.execPortDelay data crc s
  | .commitDelay data crc => Sys2Proof.Machine.execCommitDelay data crc s
  | .tickJitter data crc => Sys2Proof.Machine.execTickJitter data crc s
  | .inject data crc => Sys2Proof.Machine.execInject data crc s
  | .drill data crc => Sys2Proof.Machine.execDrill data crc s
  | .registerRead reg => Sys2Proof.Machine.execRegisterRead reg s
  | .pllLocked => Sys2Proof.Machine.execPllLocked s
  | .fallingEdgeMissing => Sys2Proof.Machine.execFallingEdgeMissing s
  | .restoreTimeout => Sys2Proof.Machine.execRestoreTimeout s
  | .jtagInstruction trstN tms => Sys2Proof.Machine.execJtagInstruction s trstN tms

end Sys2Proof.Machine
end

