-- ==== Sys2Proof/Machine/Light.lean ====
section
/-! DEFINITION. What a pixel drives in each of the 1,040 slots of its tile's period (R31, R57, R58): its word in slots 0 to 1,023,
and in the service slots conversions, probe pulses and checker pulses (R262, R284, R285). -/

namespace Sys2Proof.Machine

/-- Current code and finger set of a pixel in service slot `n` of the period that its tile runs: a conversion drives its pixel at
code 16 in all four of its slots (R262), a probe pulse lasts slots 1,024 to 1,026 at code 4 (R284), a checker pulse slots 1,028 to
1,030 at code 1 (R285). All other service slots are dark (R58). -/
def State.serviceDrive (s : State) (p n : Nat) : Nat × BitVec 12 :=
  let t := tileOf p
  let trim := (s.cell p).trim
  let c := 4 * (s.dev.groupPeriod (t % 16)).1 + (n - 1024) / 4
  if s.converts t c then
    match s.convDrive t c with
    | some e => if e.1 = localOf p then (16, e.2) else (0, trim)
    | none => (0, trim)
  else if !s.windowRuns t then (0, trim)
  else if n ≤ 1026 then (if (s.probeSet t).contains p then 4 else 0, trim)
  else if 1028 ≤ n ∧ n ≤ 1030 then (if s.checkerDrives p then 1 else 0, trim)
  else (0, trim)

/-- Current code and finger set of a pixel in slot `n` of the period that its tile runs (R31, R34, R57). A cell that its switch, its
isolate bit or a dark tile keeps dark drives nothing; in the leading light the current flows without interruption. -/
def State.drive (s : State) (p n : Nat) : Nat × BitVec 12 :=
  let trim := (s.cell p).trim
  let l := s.light p
  if s.lat.safe then (l.1, trim)
  else if s.clamped || (s.cell p).isolate || (s.dev.tile (tileOf p)).dark || 1040 ≤ n then (0, trim)
  else if n < 1024 then (if n < l.2 then l.1 else 0, trim)
  else s.serviceDrive p n

/-- A pixel conducts in slot `n` of its tile's period (R31, R57). -/
def State.conducts (s : State) (p n : Nat) : Bool := (s.drive p n).1 != 0

/-- The current of a pixel in slot `n`, code × Iu × F of the finger set that drives it, in nA (R28, R31). -/
def State.slotNa (s : State) (p n : Nat) : Nat :=
  s.dev.pixelNa p (s.drive p n).1 (s.drive p n).2

end Sys2Proof.Machine
end

