-- ==== Sys2Proof/Safety.lean ====
section
/-! DEFINITION. What the statements call a restart, and what a safe run of the block is: its cells show what the engines
and the Keeper put there, and what only a restart takes back is not taken back. -/

namespace Sys2Proof.Machine

/-- The commands whose effect can be a restart (R397, R398, R419, R461, R482, R491): the causes of PWR_RESET, and the wakes
from a PARK in which a supply was lost. VDD_AON lost in PARK comes back as power-on. -/
def isRestart : Instr → Bool
  | .powerOn => true
  | .resetNAsserted _ => true
  | .supplyFault _ => true
  | .parkReached => true
  | .wakeAddressMatch => true
  | .wakePinEdge _ => true
  | .wakeTimeout => true
  | _ => false

/-- What the latches and fuses of a safe run do: nothing that only a restart may clear is cleared, and the access level does
not fall (R321, R355, R365, R371, R392). -/
def safeFrom (s t : State) : Bool :=
  (!s.lat.safe || t.lat.safe) && (!s.lat.perturbed || t.lat.perturbed) && decide (s.lat.level.toNat ≤ t.lat.level.toNat) &&
  (!s.otp.claimed || t.otp.claimed) && decide (s.otp.rollback ≤ t.otp.rollback)

/-- A step is safe: it answers a next state, and from one that is no restart nothing is taken back. A fault is a stop at an
access that does not exist in the part, and is not a safe step. -/
def safeStep (c : Instr) (s : State) : Bool :=
  match exec c s with
  | .next t => isRestart c || safeFrom s t
  | .fault _ => false
  | .refused _ => false

end Sys2Proof.Machine
end

