-- ==== Sys2Proof/Certificates/Slice0/Obligations.lean ====
section
/-! DEFINITION. The statements about the model: what the machine as a whole keeps, and for every command what its effect
is and what it leaves as it was. The words they share stand first. -/

namespace Sys2Proof.Claims

open Sys2Proof Sys2Proof.Machine

/-- The command answers a next state of which `P` holds. -/
def Next (c : Instr) (s : State) (P : State → Prop) : Prop := ∃ t, exec c s = .next t ∧ P t

/-- The queue, the fuses, layer memory (so every byte of it reads as before), the cells and the restart latches are
unchanged. -/
def SameStore (s t : State) : Prop :=
  t.pending = s.pending ∧ t.otp = s.otp ∧ t.mem = s.mem ∧ t.cells = s.cells ∧ t.lat = s.lat

/-- Exactly the events `ns` are newly pending, and no enable bit has changed. -/
def Raises (s t : State) (ns : List Nat) : Prop :=
  t.dev.evt.en = s.dev.evt.en ∧ ∀ n, t.dev.evt.pend.getLsbD n = (s.dev.evt.pend.getLsbD n || ns.contains n)

/-- Event `n` is pending. -/
def Pends (t : State) (n : Nat) : Prop := t.dev.evt.pend.getLsbD n = true

/-- The Keeper's state is unchanged but for the messages `ms`, sent in order. -/
def Sends (s t : State) (ms : List Msg) : Prop :=
  t.dev.keep = { s.dev.keep with transit := s.dev.keep.transit ++ ms }

/-- The same on the direct path. -/
def SendsDirect (s t : State) (ms : List Msg) : Prop :=
  t.dev.keep = { s.dev.keep with direct := s.dev.keep.direct ++ ms }

/-- A register write to `a` with data `w` is answered with status 0: the port has VDD_AON, no transaction waits for the KEEP clock nor
would this one (log 137), the CRC byte is that of R444 and no condition of R422 stands against it. -/
def WriteOk (s : State) (a : BitVec 16) (w : Word) (crc : Byte) : Prop :=
  s.dev.domainOn .aon = true ∧ s.portHolds (.write a w crc) = false ∧ crc = s.dev.mgmt.writeCrc a w ∧ s.judge a.toNat true w = 0

/-- The state once the port has recorded an accepted write to `a`. -/
def written (s : State) (a : BitVec 16) : State :=
  { s with dev := { s.dev with mgmt := { s.dev.mgmt with pointer := a, lastWAddr := a, lastWStatus := 0 } } }

/-- The same with the blocks changed by `f`. -/
def writtenWith (s : State) (a : BitVec 16) (f : Dev → Dev) : State :=
  { written s a with dev := f (written s a).dev }

end Sys2Proof.Claims

open Sys2Proof Sys2Proof.Machine Sys2Proof.Claims

/-! ## The machine as a whole -/

/-- A step runs the command at the front of the queue on the state with the queue's rest; on an empty queue one cycle of
the model's clock passes and nothing else happens (log 2, the model's choice). -/
def Obligations.StepRunsFrontCommand : Prop :=
  (∀ (c : Instr) (rest : List Instr) (s : State), step { s with pending := c :: rest } = exec c { s with pending := rest }) ∧
  (∀ s : State, s.pending = [] → step s = .next { s with dev := { s.dev with now := s.dev.now + 1 } })

/-- No command's effect changes the queue of waiting commands. -/
def Obligations.ExecKeepsQueue : Prop :=
  ∀ (c : Instr) (s t : State), exec c s = .next t → t.pending = s.pending

/-- Layer memory keeps its canonical form, addresses strictly rising and inside 896 MiB, through every step (R243). -/
def Obligations.StepKeepsMemoryCanonical : Prop :=
  ∀ s t : State, s.mem.wf = true → step s = .next t → t.mem.wf = true

/-- The map of pixel cells keeps its canonical form through every step, and a security command under way stays one of the five
of SEC_AUTH (R373). So do the shapes that other statements take as premises: 16 phase groups, the tiles of pixel diagnostics in
canonical form, four receive lanes, two channels. -/
def Obligations.StepKeepsCellsAndJobsLegal : Prop :=
  ∀ s t : State, step s = .next t →
    (SMap.wf {} s.cells = true → SMap.wf {} t.cells = true) ∧
    ((∀ j ∈ s.dev.sec.job, 1 ≤ j.cmd ∧ j.cmd ≤ 5) → ∀ j ∈ t.dev.sec.job, 1 ≤ j.cmd ∧ j.cmd ≤ 5) ∧
    (s.dev.frm.starts.length = 16 → t.dev.frm.starts.length = 16) ∧
    (SMap.wf {} s.dev.diag.tiles = true → SMap.wf {} t.dev.diag.tiles = true) ∧
    (s.dev.link.lanes.length = 4 → t.dev.link.lanes.length = 4) ∧
    (s.dev.memc.chans.length = 2 → t.dev.memc.chans.length = 2)

/-- The invariants hold after reset. -/
def Obligations.ResetMeetsInvariants : Prop :=
  State.reset.mem.wf = true ∧ SMap.wf {} State.reset.cells = true ∧ (∀ j ∈ State.reset.dev.sec.job, 1 ≤ j.cmd ∧ j.cmd ≤ 5) ∧
  State.reset.pending = [] ∧ State.reset.dev.frm.starts.length = 16 ∧ SMap.wf {} State.reset.dev.diag.tiles = true ∧
  State.reset.dev.link.lanes.length = 4 ∧ State.reset.dev.memc.chans.length = 2

/-- After reset, which is power-on, the access level is OPEN, the SAFE latch and the perturbed-since-start flag are clear,
the level in force is 3 with its code on VSEL, PWR_STATUS reads START, the severity events and FIRST are enabled, and tick
0 has not fallen. Where it rests on the model's own reading or choice: log 4 and 7. -/
def Obligations.ResetLeavesStart : Prop :=
  State.reset.lat.level = 0 ∧ State.reset.lat.safe = false ∧ State.reset.lat.perturbed = false ∧
  State.reset.dev.pwr.level = 3 ∧ State.reset.dev.pwr.vsel = 3 ∧ State.reset.dev.pwr.state = .start ∧
  State.reset.dev.pwr.cause = 0 ∧ State.reset.dev.evt.en = 0x1F00 ∧ State.reset.dev.frm.ticked = false

/-- No command takes a fuse back: serial number, certificate and private key never change, a claimed unit stays claimed
under the same root hash and CRC, and the rollback counter never falls nor passes the ROLLBACK of the image in force (R354, R392). -/
def Obligations.FusesNeverGoBack : Prop :=
  ∀ (c : Instr) (s t : State), exec c s = .next t →
    t.otp.serial = s.otp.serial ∧ t.otp.cert = s.otp.cert ∧ t.otp.privKey = s.otp.privKey ∧
    (s.otp.claimed = true → t.otp.claimed = true ∧ t.otp.rootHash = s.otp.rootHash ∧ t.otp.rootCrc = s.otp.rootCrc) ∧
    s.otp.rollback ≤ t.otp.rollback ∧
    (s.otp.rollback < t.otp.rollback → t.otp.rollback ≤ hdrRollback s.dev.cfg.head)

/-- Nothing but a restart clears the SAFE latch, and while it is set a PARK request is refused with refuser 1, KEEP (R321). Nothing
but a restart clears the perturbed-since-start flag or changes what was recorded with
it (R371), or lowers the access level (R365): a command either is one of the causes of a restart and answers a restart, or leaves
these as they were. -/
def Obligations.LatchesHoldUntilRestart : Prop :=
  (∀ (c : Instr) (s t : State), exec c s = .next t →
    (isRestart c = true ∧ ∃ (u : State) (cause : Nat) (aon : Bool),
      t = u.restart cause ∨ t = u.powerOn ∨ t = u.resetPin ∨ t = u.supplyRestart aon) ∨
    ((s.lat.safe = true → t.lat.safe = true) ∧
      (s.lat.perturbed = true → t.lat.perturbed = true ∧ t.lat.pertLevel = s.lat.pertLevel ∧ t.lat.pertJtag = s.lat.pertJtag ∧
        t.lat.pertTick = s.lat.pertTick) ∧
      ((∀ j ∈ s.dev.sec.job, 1 ≤ j.cmd ∧ j.cmd ≤ 5) → s.lat.level ≤ t.lat.level))) ∧
  (∀ (s : State) (crc : Byte), WriteOk s 0x0404 4 crc → s.lat.safe = true →
    Next (.parkRequest crc) s (fun t => SameStore s t ∧ Raises s t [3] ∧
      t.dev.pwr = { s.dev.pwr with
        target := 4, refused := updNth s.dev.pwr.refused 0 (satInc 255), lastRefuser := 1, lastTarget := 4 }))

/-! ## Restart and start-up -/

namespace Sys2Proof.Claims

/-- `t` is `s` after a restart with a PWR_RESET.CAUSE, at cycle `now` of the model's clock: the queue and the fuses stay, the
nonce is a new draw, and everything else holds its reset value but the counts of free values drawn (R461). After RESET_N
the pin is still low (R377). -/
def Restarted (s t : State) (cause : BitVec 3) (now : Nat) : Prop :=
  t.pending = s.pending ∧ t.otp = s.otp ∧ t.mem = [] ∧ t.cells = [] ∧ t.lat = State.reset.lat ∧
  t.dev.now = now ∧ t.dev.pwr = { State.reset.dev.pwr with cause := cause, resetLow := decide (cause = 1) } ∧ t.dev.sec.nonce = s.dev.sec.draws ∧
  { t.dev with
    now := 0, pwr := State.reset.dev.pwr, sec := { t.dev.sec with nonce := 0, draws := 1 }
    keep := { t.dev.keep with draws := 0 }, memc := { t.dev.memc with draws := 0 }, link := { t.dev.link with draws := 0 }
    cal := { t.dev.cal with draws := 0 } } = State.reset.dev

/-- The loader has ended without reading SYMBOLS (R396, R407). -/
def symbolsSkipped (d : Dev) : Cfg :=
  { d.cfg with
    symbolsOff := true, load := .done, tries := 0, allVerified := true, verifiedAt := Nat.min 65535 ((d.now - d.timeZero) / 2000) }

/-- Fairway traffic once LRX runs again, when the reply queue holds all that has waited for it (R17, R237, log 138). -/
def crossed (f : Fw) : Fw := { f with replies := f.replies ++ f.crossing, crossing := [] }

/-- Some byte of a run is not 0. -/
def someSet (bs : Bytes) : Prop := ∃ b ∈ bs, b ≠ 0

end Sys2Proof.Claims

/-- Every cause of a restart gives the reset state with its code in PWR_RESET.CAUSE: power-on 0, RESET_N low for 10.0 µs 1 (a
pulse under 1.00 µs is ignored), a supply out of range outside PARK 2, and no PGOOD_CORE in a wake 3. In PARK SUPPLY_FAULT
acts on nothing; the loss of another supply makes the wake that follows a restart with cause 2; after the loss of VDD_AON, in PARK or
outside it, the VSEL lands read 0b000, no wake source and no start acts, and its return is power-on; while VDD_IO alone is absent they
read the pulls' 0b011 (R397, R398, R408, R419, R461, R482, R483, R491). Where it rests on the model's own reading or
choice: log 2 (the model's clock after power-on), 5, 19, 77, 134 and 166. -/
def Obligations.RestartGivesResetState : Prop :=
  ∀ s : State,
    Next .powerOn s (fun t => Restarted s t 0 0) ∧
    (s.dev.pwr.aonLost = false → ∀ ns, 10000 ≤ ns → Next (.resetNAsserted ns) s (fun t => Restarted s t 1 s.dev.now)) ∧
    (∀ ns, ns < 1000 → exec (.resetNAsserted ns) s = .next s) ∧
    (∀ aon, s.dev.pwr.state = .park ∨ s.dev.pwr.aonLost = true → exec (.supplyFault aon) s = .next s) ∧
    (s.dev.pwr.state ≠ .park → s.dev.pwr.aonLost = false →
      Next (.supplyFault false) s (fun t => Restarted s t 2 s.dev.now) ∧
      Next (.supplyFault true) s (fun t => t.dev.pwr.aonLost = true ∧ t.dev.pwr.vselLands = 0 ∧
        Restarted s { t with dev := { t.dev with pwr := { t.dev.pwr with aonLost := false } } } 2 s.dev.now ∧
        (∀ addr testEn, exec (.startTimeZero addr testEn) t = .next t) ∧ Next .powerOn t (fun u => Restarted t u 0 0))) ∧
    (s.dev.pwr.state = .park → ∀ io, Next (.retentionLost true io) s (fun t => SameStore s t ∧
      t.dev = { s.dev with pwr := { s.dev.pwr with aonLost := true, ioLost := s.dev.pwr.ioLost || io } } ∧ t.dev.pwr.vselLands = 0 ∧
      (∀ c ∈ [Instr.wakeAddressMatch, .wakePinEdge .lb, .wakePinEdge .hb], exec c t = .next t) ∧
      Next .powerOn t (fun u => Restarted t u 0 0))) ∧
    (s.dev.pwr.state = .park → s.dev.pwr.aonLost = false → ∀ io, Next (.retentionLost false io) s (fun t => SameStore s t ∧
      t.dev = { s.dev with pwr := { s.dev.pwr with retentionLost := true, ioLost := s.dev.pwr.ioLost || io } } ∧
      (io = true → t.dev.pwr.vselLands = 3) ∧
      Next .wakeAddressMatch t (fun u => Restarted t u 2 t.dev.now))) ∧
    (s.dev.pwr.state = .wake → s.dev.seesPgood = false → Next .wakeTimeout s (fun t => Restarted s t 3 s.dev.now))

/-- Time 0 of the start sequence, which does not come while VDD_AON is absent, samples ADDR and TEST_EN, starts the KEEP oscillator and reads the claim from the fuses: a
unit whose claim bit is clear with any bit of the hash or of its CRC set is torn (R354, R355, R397, R442, R468). -/
def Obligations.StartReadsPinsAndClaim : Prop :=
  ∀ (s : State) (addr : BitVec 3) (testEn : Bool), s.dev.pwr.started = false →
    (s.dev.pwr.aonLost = true → exec (.startTimeZero addr testEn) s = .next s) ∧
    (s.dev.pwr.aonLost = false → Next (.startTimeZero addr testEn) s (fun t => SameStore s t ∧
      t.dev.timeZero = s.dev.now ∧ t.dev.now = s.dev.now ∧
      t.dev.pwr = { s.dev.pwr with started := true, keepOn := true, pgood := true, resetLow := false } ∧
      t.dev.mgmt = { s.dev.mgmt with addr := addr } ∧ t.dev.test = { s.dev.test with testEn := testEn } ∧
      t.dev.sec.claimed = s.otp.claimed ∧ t.dev.sec.rootHash = s.otp.rootHash ∧
      (t.dev.sec.torn = true ↔ s.otp.claimed = false ∧ (someSet s.otp.rootHash ∨ s.otp.rootCrc ≠ 0)) ∧
      t.dev = { s.dev with
        timeZero := s.dev.now, pwr := t.dev.pwr, mgmt := t.dev.mgmt, test := t.dev.test
        keep := { s.dev.keep with tickAt := s.dev.now }, ledg := { s.dev.ledg with lampAt := s.dev.now }
        sec := { s.dev.sec with claimed := t.dev.sec.claimed, rootHash := t.dev.sec.rootHash, torn := t.dev.sec.torn } }))

/-- In START the locks bring the domains up and let the link begin to train, and what waited for the Fairway clock enters the reply
queue; the unit key is checked once; training of the
DRAM ends in service or in DRAM-less mode with its event and message; and the self-tests, when none fails, leave every
instance as it is. A loader that waits for SYMBOLS ends when DRAM-less mode takes effect (R197, R254, R258, R326, R353, R396,
R397, R421). Where it rests on the model's own reading or choice: log 31
and 69 and 138. -/
def Obligations.StartEventsComplete : Prop :=
  (∀ s : State, s.dev.pwr.state = .start → s.dev.pwr.started = true → s.dev.pwr.locked = false →
    s.dev.fw.writes = [] → s.dev.fw.replies.length + s.dev.fw.crossing.length ≤ 256 →
    Next .pllLocked s (fun t => SameStore s t ∧ t.dev.pwr = { s.dev.pwr with locked := true } ∧
      t.dev.link.state = (if s.dev.link.refclk = true ∧ s.dev.link.state = .down then .detect else s.dev.link.state) ∧
      t.dev = { s.dev with pwr := t.dev.pwr, link := t.dev.link, fw := if s.dev.link.refclk then crossed s.dev.fw else s.dev.fw })) ∧
  (∀ s : State, s.dev.frm.ticked = false → s.dev.pwr.mainOn = true → s.dev.sec.keyChecked = false →
    Next .keyCheck s (fun t => SameStore s t ∧
      t.dev.sec = { s.dev.sec with keyChecked := true, keyOk := s.otp.keyFits } ∧
      Sends s t (if s.otp.keyFits = true then [] else [mkMsg 0xC8 0x33 1 0]) ∧
      t.dev = { s.dev with sec := t.dev.sec, keep := t.dev.keep })) ∧
  (∀ s : State, s.dev.frm.ticked = false → s.dev.pwr.mainOn = true → s.dev.memc.trainDone = false →
    Next (.dramTrainingDone true) s (fun t => SameStore s t ∧
      t.dev = { s.dev with memc := { s.dev.memc with trainDone := true, trained := true } }) ∧
    (s.dev.cfg.loading ≠ some 12 → Next (.dramTrainingDone false) s (fun t => SameStore s t ∧ Raises s t [45] ∧
      Sends s t [mkMsg 0xC4 0x1A 1 0] ∧
      t.dev = { s.dev with
        memc := { s.dev.memc with trainDone := true, dramLess := true, cause := false }, evt := t.dev.evt, keep := t.dev.keep })) ∧
    (s.dev.cfg.loading = some 12 → Next (.dramTrainingDone false) s (fun t => SameStore s t ∧ Raises s t [45] ∧
      Sends s t [mkMsg 0xC4 0x1A 1 0] ∧
      t.dev = { s.dev with
        memc := { s.dev.memc with trainDone := true, dramLess := true, cause := false }, cfg := symbolsSkipped s.dev
        evt := t.dev.evt, keep := t.dev.keep, ledg := t.dev.ledg }))) ∧
  (∀ s : State, s.dev.frm.ticked = false → s.dev.pwr.mainOn = true → s.dev.keeperRuns = true → s.dev.chg.startDone = false →
    s.dev.chg.eng = {} → s.dev.chg.tb = {} → s.dev.chg.refs = [] →
    Next (.startSelftestDone []) s (fun t => SameStore s t ∧
      t.dev = { s.dev with chg := { s.dev.chg with startDone := true, startPass := 15, refFails := 0 } }))

namespace Sys2Proof.Claims

/-- A slot as read is a candidate: its header is good, its SERIAL is 0 or this unit's, and its ROLLBACK is not below the
fuses (R391). -/
def Candidate (s : State) (h : Option SlotHead) : Prop :=
  ∃ x, h = some x ∧ headerOk x = true ∧ (hdrSerial x = 0 ∨ hdrSerial x = s.otp.serial.toNat) ∧ s.otp.rollback ≤ hdrRollback x

end Sys2Proof.Claims

/-- Reading the headers of a claimed unit's slots chooses the candidate with the higher VERSION, slot A when they are
equal; without a candidate, NO_IMAGE is sent with both reasons and nothing further is read, and CFG_FAIL holds the last finding,
slot B's header. The clock in use is at most 200 MHz (R375, R391, R395, R405, R407). Where it rests on the model's own reading or
choice: log 71. A unit that is not claimed has no image, with reason UNCLAIMED for both slots, whatever their headers (R2). -/
def Obligations.HeadersChooseSlot : Prop :=
  ∀ (s : State) (a b : Option SlotHead) (octal : Bool) (mhz : BitVec 8),
    s.dev.frm.ticked = false → s.dev.pwr.mainOn = true → s.dev.cfg.load = .idle →
    (s.dev.sec.claimed = false → Next (.flashHeaderRead a b octal mhz) s (fun t => SameStore s t ∧
      t.dev.cfg.noImage = true ∧ t.dev.cfg.load = .halted ∧ t.dev.cfg.whyA = 10 ∧ t.dev.cfg.whyB = 10 ∧
      t.dev.cfg.failReason = 10 ∧ t.dev.cfg.failSection = 0 ∧ t.dev.cfg.failSlotB = true ∧
      t.dev.keep.transit = s.dev.keep.transit ++ [mkMsg 0xC9 0x37 1 0x0A0A])) ∧
    (s.dev.cfg.whyA = 0 → s.dev.cfg.whyB = 0 → s.dev.cfg.dirFailA = false → s.dev.cfg.dirFailB = false →
    s.dev.sec.claimed = true →
    Next (.flashHeaderRead a b octal mhz) s (fun t =>
      t.dev.cfg.headA = a ∧ t.dev.cfg.headB = b ∧ t.dev.cfg.octal = octal ∧ t.dev.cfg.mhz = Nat.min 200 mhz.toNat ∧
      (t.dev.cfg.candA = true ↔ Candidate s a) ∧ (t.dev.cfg.candB = true ↔ Candidate s b) ∧
      (∀ x y, a = some x → b = some y → Candidate s a → Candidate s b → directoryOk x = true → directoryOk y = true →
        t.dev.cfg.load = .signature ∧ t.dev.cfg.slotB = decide (hdrVersion x < hdrVersion y)) ∧
      (¬ Candidate s a → ¬ Candidate s b →
        t.dev.cfg.noImage = true ∧ t.dev.cfg.load = .halted ∧
        t.dev.cfg.failReason = t.dev.cfg.whyB ∧ t.dev.cfg.failSection = 0 ∧ t.dev.cfg.failSlotB = true ∧ t.dev.cfg.whyB ≠ 0 ∧
        t.dev.keep.transit = s.dev.keep.transit ++ [mkMsg 0xC9 0x37 1 (t.dev.cfg.whyB * 256 + t.dev.cfg.whyA)]) ∧
      SameStore s t))

namespace Sys2Proof.Claims

/-- The message that reports section `sec` of the slot in hand invalid for a reason (R405). -/
def invalidMsg (s : State) (sec why : Nat) : Msg :=
  mkMsg 0xC9 0x36 1 ((if s.dev.cfg.slotB then 2 ^ 24 else 0) + sec * 256 + why)

end Sys2Proof.Claims

/-- SIGNATURE is good when the root key hashes to the fuses, the root signs the signer's hash and the signer signs header and
directory; then the sections are loaded next, and otherwise SECTION_INVALID reports section 15 with reason 5 (R356, R405). -/
def Obligations.SignatureGatesSections : Prop :=
  ∀ (s : State) (sig : Bytes), s.dev.frm.ticked = false → s.dev.pwr.mainOn = true → s.dev.cfg.load = .signature → sig.length = 256 →
    Next (.signatureVerified sig) s (fun t =>
      t.otp = s.otp ∧ t.mem = s.mem ∧ t.lat = s.lat ∧
      ((Config.sha256 (slice sig 0 64) = s.dev.sec.rootHash ∧
        Config.ecdsaVerify (slice sig 0 64) (Config.sha256 (slice sig 64 64)) (slice sig 128 64) = true ∧
        Config.ecdsaVerify (slice sig 64 64) (Config.sha256 (s.dev.cfg.head.header ++ s.dev.cfg.head.dir)) (slice sig 192 64) = true) →
        t.cells = s.cells ∧ t.dev = { s.dev with cfg := { s.dev.cfg with
          signed := true, rootKey := slice sig 0 64, signerKey := slice sig 64 64, load := .sections 0, tries := 0 } }) ∧
      (¬ (Config.sha256 (slice sig 0 64) = s.dev.sec.rootHash ∧
        Config.ecdsaVerify (slice sig 0 64) (Config.sha256 (slice sig 64 64)) (slice sig 128 64) = true ∧
        Config.ecdsaVerify (slice sig 64 64) (Config.sha256 (s.dev.cfg.head.header ++ s.dev.cfg.head.dir)) (slice sig 192 64) = true) →
        invalidMsg s 15 5 ∈ t.dev.keep.transit))

/-- A section is in force when its bytes have the hash of the directory, decrypt where they are encrypted, and pass the
load check; otherwise SECTION_INVALID reports it with reason 6, 7 or 8. In DRAM-less mode SYMBOLS is not read: the loader ends,
and nothing is reported (R21, R356, R358, R394, R396, R405). Where it rests on the model's own reading or choice: log 70, 72
and 79. -/
def Obligations.SectionTakesEffectOrIsInvalid : Prop :=
  (∀ (s : State) (stored : Bytes) (hdr : List HdrErr),
    s.dev.pwr.mainOn = true → s.dev.cfg.loading = some 12 → s.dev.memc.dramLess = true →
    Next (.sectionVerified stored hdr) s (fun t => SameStore s t ∧
      t.dev = { s.dev with cfg := symbolsSkipped s.dev, ledg := t.dev.ledg })) ∧
  (∀ (s : State) (id : Nat) (stored : Bytes) (hdr : List HdrErr),
    s.dev.pwr.mainOn = true → s.dev.cfg.loading = some id → id ≠ 0 → ¬ (id = 12 ∧ s.dev.memc.dramLess = true) →
    stored.length = dirLength s.dev.cfg.head id →
    Next (.sectionVerified stored hdr) s (fun t => t.otp = s.otp ∧
      (Config.sha256 stored ≠ dirHash s.dev.cfg.head id → invalidMsg s id 6 ∈ t.dev.keep.transit) ∧
      (Config.sha256 stored = dirHash s.dev.cfg.head id →
        match s.sectionPlain id stored with
        | none => invalidMsg s id 7 ∈ t.dev.keep.transit
        | some p =>
          if (s.dev.place id p).contentOk id p = true
          then t.dev.has id = true ∧ t.dev.sect id = keptPart id p
          else invalidMsg s id 8 ∈ t.dev.keep.transit)))

namespace Sys2Proof.Claims

/-- `cmd` changes the configuration block alone, by `f`; where `counts`, the repeat is counted in READ_RETRIES. -/
def CfgOnly (cmd : Instr) (s : State) (counts : Bool) (f : Cfg → Cfg) : Prop :=
  Next cmd s (fun t => SameStore s t ∧ t.dev = { s.dev with cfg := { f s.dev.cfg with
    retries := if counts then Nat.min 65535 (s.dev.cfg.retries + 1) else s.dev.cfg.retries } })

end Sys2Proof.Claims

/-- A read strobe that does not arrive is counted and the read repeated, up to three times for each read, which before the headers
are read is that of the header or the directory of either slot; the fourth failure of a header leaves its slot no candidate with
reason READ in CFG_FAIL, that of a directory is found when the slot is tried (R375, R391, R406, R407). Restoring the ledger in
START moves the loader on; without a valid trim image the first two sweeps settle, and TRIM_LOST is raised; what the ledger
restores besides does not wait for the loader (R274, R369, R393, R428, R436). Where it rests on the model's own reading or choice:
log 64, 78 and 136. -/
def Obligations.FlashReadsRepeatAndTrimIsRestored : Prop :=
  (∀ s : State, s.dev.pwr.mainOn = true → s.dev.cfg.load ≠ .idle → s.dev.cfg.tries < 3 → ∀ slotB dir,
    CfgOnly (.flashReadRetry slotB dir) s true (fun c => { c with tries := c.tries + 1 })) ∧
  (∀ s : State, s.dev.pwr.mainOn = true → s.dev.cfg.load = .idle →
    (s.dev.cfg.tries < 3 → CfgOnly (.flashReadRetry false false) s true (fun c => { c with tries := c.tries + 1 })) ∧
    (s.dev.cfg.triesB < 3 → CfgOnly (.flashReadRetry true false) s true (fun c => { c with triesB := c.triesB + 1 })) ∧
    (s.dev.cfg.triesDir < 3 → CfgOnly (.flashReadRetry false true) s true (fun c => { c with triesDir := c.triesDir + 1 })) ∧
    (s.dev.cfg.triesDirB < 3 → CfgOnly (.flashReadRetry true true) s true (fun c => { c with triesDirB := c.triesDirB + 1 })) ∧
    (s.dev.cfg.tries = 3 → s.dev.cfg.whyA = 0 → CfgOnly (.flashReadRetry false false) s false (fun c => { c with
      tries := 0, whyA := 9, failReason := 9, failSection := 0, failSlotB := false })) ∧
    (s.dev.cfg.triesB = 3 → s.dev.cfg.whyB = 0 → CfgOnly (.flashReadRetry true false) s false (fun c => { c with
      triesB := 0, whyB := 9, failReason := 9, failSection := 0, failSlotB := true })) ∧
    (s.dev.cfg.triesDir = 3 → CfgOnly (.flashReadRetry false true) s false (fun c => { c with triesDir := 0, dirFailA := true })) ∧
    (s.dev.cfg.triesDirB = 3 → CfgOnly (.flashReadRetry true true) s false (fun c => { c with
      triesDirB := 0, dirFailB := true }))) ∧
  (∀ s : State, s.dev.frm.ticked = false → s.dev.pwr.mainOn = true →
    (s.dev.cfg.loading = some 0 → ∀ hdr,
      Next (.trimImageRestore [] hdr) s (fun t => SameStore s t ∧ t.dev.cfg = { s.dev.cfg.loadNext with tries := 0 } ∧
        t.dev.cal = { s.dev.cal with restoreDone := true, settle := 2 } ∧ Raises s t [93] ∧
        t.dev.keep = s.dev.keep ∧ t.dev.tiles = s.dev.tiles)) ∧
    (s.dev.cfg.loading ≠ some 0 → s.dev.ledg.recordsRead = false → ∀ recs hdr,
      Next (.trimImageRestore recs hdr) s (fun t => SameStore s t ∧ t.dev.cfg = s.dev.cfg ∧ t.dev.tiles = s.dev.tiles ∧
        t.dev.ledg.recordsRead = true ∧
        (∀ r, newest ((validRecs s.otp.privKey recs).filter (fun r => r.kind == 1)) = some r →
          t.dev.ledg.stateRestored = true ∧ t.dev.sec.fails = beNat (slice r.body 14 1)))))

namespace Sys2Proof.Claims

/-- The conditions of first light in START but the level of VLED (R400). -/
def FirstLight (s : State) : Prop :=
  s.lat.safe = false ∧ s.dev.test.testEn = false ∧ s.dev.pwr.pgood = true ∧ s.dev.arr.startDone = true ∧
  s.dev.cfg.verified &&& beforeSymbols = beforeSymbols ∧ s.dev.cal.restoreDone = true ∧
  (s.dev.memc.trained = true ∨ s.dev.memc.dramLess = true) ∧ s.dev.chg.startDone = true

/-- The decision point decides the boundary that comes, and shows it on SYNC_OUT by a high level of `out` slots. -/
def Decides (s : State) (x : Decision) (out : Nat) : Prop :=
  Next .decisionPoint s (fun t => SameStore s t ∧ t.dev = { s.dev with frm := { s.dev.frm with
    decision := x, awaitSample := false, syncOut := if s.dev.syncRole = 0 then 0 else out } })

end Sys2Proof.Claims

/-- Once SCHEDULE is verified in START, a decision point at which every condition of first light holds decides tick 0, and any
other no tick, so that with TEST_EN high none falls. The boundary so decided brings tick 0 and RUN where VLED stood at 3.60 V or
more at the decision point: the tick number is 0, the start is counted, and CFG_START.TICK0 holds the time since time 0 in units
of 10 µs (R397, R400, R407, R429, R468). With SAFE set the leading light lights in START under the conditions of R399, and the
passes that run are stopped; with TEST_EN high nothing lights (R399, R468). Where it rests on the model's own reading or choice:
log 58 and, for the decision point with SAFE set, 161. -/
def Obligations.FirstLightEndsStart : Prop :=
  (∀ s : State, s.dev.frm.ticked = false → s.dev.pwr.mainOn = true → s.dev.has 2 = true →
    (FirstLight s → Decides s .tick (if s.dev.syncRole = 1 then 4 else 2)) ∧
    (¬ FirstLight s → Decides s .none 2)) ∧
  (∀ (s : State) (vledMv : Nat) (temps : List (BitVec 12)),
    s.dev.frm.ticked = false → s.dev.pwr.mainOn = true → s.lat.safe = false → s.dev.frm.decision = .tick →
    (3600 ≤ vledMv → Next (.tickZero vledMv temps) s (fun t =>
      t.pending = s.pending ∧ t.otp = s.otp ∧ t.mem = s.mem ∧ t.lat = s.lat ∧
      t.dev.frm.tick = 0 ∧ t.dev.frm.ticked = true ∧ t.dev.frm.tickAt = s.dev.now ∧ t.dev.pwr.state = .run ∧
      t.dev.ledg.starts = Nat.min (2 ^ 32 - 1) (s.dev.ledg.starts + 1) ∧
      t.dev.cfg.tick0 = Nat.min 65535 ((s.dev.now - s.dev.timeZero) / 2000))) ∧
    (vledMv < 3600 → Next (.tickZero vledMv temps) s (fun t => SameStore s t ∧
      t.dev = { s.dev with frm := { s.dev.frm with decision := .none } }))) ∧
  (∀ (s : State) (vledMv : Nat) (temps : List (BitVec 12)), s.dev.frm.decision ≠ .tick →
    exec (.tickZero vledMv temps) s = .next s) ∧
  (∀ (s : State) (vledMv : Nat),
    s.dev.frm.ticked = false → s.dev.pwr.mainOn = true → s.lat.safe = true → s.dev.cfg.signed = true →
    s.dev.has 1 = true → s.dev.has 9 = true → s.dev.arr.startDone = true → 3600 ≤ vledMv → s.dev.cfg.startLit = false →
    (s.dev.test.testEn = false → Next (.startLeadingLight vledMv) s (fun t => SameStore s t ∧
      t.dev = { s.dev with cfg := { s.dev.cfg with startLit := true }, arr := { s.dev.arr with passes := [] } })) ∧
    (s.dev.test.testEn = true → exec (.startLeadingLight vledMv) s = .next s))

/-! ## Power -/

namespace Sys2Proof.Claims

/-- The blocks after a level change to `target` has started: upwards the new code stands on VSEL and PGOOD_CORE is awaited,
downwards the clock is switched first (R411). -/
def changeStarted (d : Dev) (target : BitVec 2) : Dev :=
  { d with pwr := { d.pwr with
      state := .levelChange
      change := some { target := target, old := d.pwr.level, switched := false
                       step := if d.pwr.level.toNat < target.toNat then .upPgood else .downSwitch }
      vsel := if d.pwr.level.toNat < target.toNat then target.setWidth 3 else d.pwr.vsel
      vselAt := if d.pwr.level.toNat < target.toNat then some d.now else d.pwr.vselAt
      pgood := if d.pwr.level.toNat < target.toNat then false else d.pwr.pgood } }

/-- No check of R413 refuses a level `target`: SAFE clear, no instance in SELFTEST or RESYNC, in RUN, the schedule floor kept. -/
def MayChange (s : State) (target : BitVec 2) : Prop :=
  s.lat.safe = false ∧ s.dev.chg.busy = false ∧ s.dev.frm.ticked = true ∧ s.dev.floor ≤ target.toNat

/-- `cmd` writes PWR_REQ with `target`, and the request is refused with `code`: counted, recorded, event 3, and nothing else
(R413). -/
def Refused (cmd : Instr) (s : State) (code : Nat) (target : BitVec 3) : Prop :=
  Next cmd s (fun t => SameStore s t ∧ Raises s t [3] ∧
    t.dev.pwr = { s.dev.pwr with
      target := target, refused := updNth s.dev.pwr.refused (code - 1) (satInc 255), lastRefuser := code, lastTarget := target } ∧
    t.dev = { (written s 0x0404).dev with pwr := t.dev.pwr, evt := t.dev.evt })

end Sys2Proof.Claims

/-- A request for another level that no check refuses starts its change when none runs and none waits, and the request that
waits starts when it may; where a transition runs the request waits, and where one waits it takes that one's place, counted with
event 4, a PARK request in prepare among them. A request that a check refuses is counted under the first refuser that applies, 1
KEEP under SAFE, 2 CHG while an instance is in SELFTEST or RESYNC, 3 START, 4 SCHED below the schedule floor, with event 3 (R409,
R411, R412, R413, R414). Where it rests on the model's own reading or choice: log 80 (a new code deasserts PGOOD_CORE). -/
def Obligations.LevelRequestsStart : Prop :=
  ∀ (s : State) (target : BitVec 2),
    (∀ crc : Byte, WriteOk s 0x0404 (target.setWidth 32) crc → MayChange s target → target ≠ 0 → target ≠ s.dev.pwr.level →
      s.dev.pwr.pend = none → s.dev.pwr.state = .run → s.dev.pwr.change = none →
      Next (.levelRequest target crc) s (fun t =>
        t = writtenWith s 0x0404 (fun d => changeStarted { d with pwr := { d.pwr with target := target.setWidth 3 } } target))) ∧
    (s.dev.pwr.pend = some (target.setWidth 3) → MayChange s target → target ≠ s.dev.pwr.level →
      s.dev.pwr.state = .run → s.dev.pwr.change = none →
      Next .pendingRequestStart s (fun t =>
        t = { s with dev := changeStarted { s.dev with pwr := { s.dev.pwr with pend := none } } target })) ∧
    (∀ crc : Byte, WriteOk s 0x0404 (target.setWidth 32) crc → MayChange s target → target ≠ 0 →
      (s.dev.pwr.pend = none → s.dev.pwr.state ≠ .run ∨ s.dev.pwr.change ≠ none →
        Next (.levelRequest target crc) s (fun t =>
          t = writtenWith s 0x0404 (fun d => { d with pwr := { d.pwr with
            target := target.setWidth 3, pend := some (target.setWidth 3) } }))) ∧
      (s.dev.pwr.pend ≠ none →
        Next (.levelRequest target crc) s (fun t => SameStore s t ∧ Raises s t [4] ∧
          t.dev.pwr = { s.dev.pwr with
            target := target.setWidth 3, pend := some (target.setWidth 3)
            superseded := Nat.min 65535 (s.dev.pwr.superseded + 1)
            state := if s.dev.pwr.state = .prepare then .run else s.dev.pwr.state } ∧
          t.dev = { (written s 0x0404).dev with pwr := t.dev.pwr, evt := t.dev.evt }))) ∧
    (∀ crc : Byte, WriteOk s 0x0404 (target.setWidth 32) crc → target ≠ 0 →
      (s.lat.safe = true → Refused (.levelRequest target crc) s 1 (target.setWidth 3)) ∧
      (s.lat.safe = false → s.dev.chg.busy = true → Refused (.levelRequest target crc) s 2 (target.setWidth 3)) ∧
      (s.lat.safe = false → s.dev.chg.busy = false → s.dev.frm.ticked = false →
        Refused (.levelRequest target crc) s 3 (target.setWidth 3)) ∧
      (s.lat.safe = false → s.dev.chg.busy = false → s.dev.frm.ticked = true → target.toNat < s.dev.floor →
        Refused (.levelRequest target crc) s 4 (target.setWidth 3)))

/-- PGOOD_CORE lets an upward change switch its clock and completes a downward one whose level is in force, but for 20.0 µs after
VSEL has changed it is ignored; the clock is switched between a decision point and the tick; and the tick brings the level into
force with event 2 (R409, R410, R411). Where
it rests on the model's own reading or choice: log 80. -/
def Obligations.LevelChangeProceeds : Prop :=
  ∀ (s : State) (c : Change), s.dev.pwr.change = some c →
    (s.dev.pwr.aonLost = false → s.dev.ignoresPgood = true →
      Next .pgoodAssert s (fun t => SameStore s t ∧ t.dev = { s.dev with pwr := { s.dev.pwr with pgood := true } })) ∧
    (s.dev.pwr.aonLost = false → s.dev.ignoresPgood = false → c.step = .upPgood →
      Next .pgoodAssert s (fun t => SameStore s t ∧
        t.dev = { s.dev with pwr := { s.dev.pwr with pgood := true, change := some { c with step := .upSwitch } } })) ∧
    (s.dev.pwr.aonLost = false → s.dev.ignoresPgood = false → c.step = .downPgood → c.switched = false →
      Next .pgoodAssert s (fun t => SameStore s t ∧
        t.dev = { s.dev with pwr := { s.dev.pwr with
          state := .run, change := none, pgood := true, changes := Nat.min 65535 (s.dev.pwr.changes + 1) } })) ∧
    (s.running = true → s.dev.frm.decision ≠ .none → c.switched = false → c.step = .upSwitch →
      Next .clockSwitch s (fun t => SameStore s t ∧
        t.dev = { s.dev with pwr := { s.dev.pwr with change := some { c with switched := true } } })) ∧
    (s.running = true → s.dev.frm.decision ≠ .none → c.switched = false → c.step = .upPgood → s.dev.seesPgood = true →
      Next .clockSwitch s (fun t => SameStore s t ∧
        t.dev = { s.dev with pwr := { s.dev.pwr with change := some { c with step := .upSwitch, switched := true } } })) ∧
    (s.running = true → s.dev.frm.decision ≠ .none → c.switched = false → c.step = .downSwitch →
      Next .clockSwitch s (fun t => SameStore s t ∧
        t.dev = { s.dev with pwr := { s.dev.pwr with
          vsel := c.target.setWidth 3, pgood := false, vselAt := some s.dev.now
          change := some { c with step := .downPgood, switched := true } } })) ∧
    (∀ temps, s.running = true → s.dev.frm.decision = .tick → s.dev.pwr.state = .levelChange → c.switched = true → c.step = .upSwitch →
      Next (.tick temps) s (fun t => t.dev.pwr.level = c.target ∧ t.dev.pwr.change = none ∧ t.dev.pwr.state = .run ∧ Pends t 2))

/-- 1.00 ms without PGOOD_CORE aborts an upward change: VSEL returns to the old code, refuser 7 is counted and
LEVEL_TIMEOUT sent; where PGOOD_CORE is there, the change goes on. The loss of PGOOD_CORE at a code that has stood for 20.0 µs is
counted and reported in RUN; in every state PWR_STATUS shows the pin (R409, R411, R423, R424). Where it rests on the model's own reading or choice: log 80 and 114. -/
def Obligations.PgoodFailuresAreReported : Prop :=
  ∀ s : State,
    (∀ c : Change, s.dev.pwr.change = some c → c.step = .upPgood → s.dev.seesPgood = true →
      Next .pgoodTimeout s (fun t => SameStore s t ∧
        t.dev = { s.dev with pwr := { s.dev.pwr with change := some { c with step := .upSwitch } } })) ∧
    (∀ c : Change, s.dev.pwr.change = some c → c.step = .upPgood → s.dev.seesPgood = false →
      Next .pgoodTimeout s (fun t => SameStore s t ∧ Raises s t [3] ∧
        Sends s t [mkMsg 0xCA 0x39 0 c.target.toNat] ∧
        t.dev.pwr = { s.dev.pwr with
          state := .run, change := none, vsel := c.old.setWidth 3, pgood := false, vselAt := some s.dev.now
          timeouts := Nat.min 255 (s.dev.pwr.timeouts + 1), refused := updNth s.dev.pwr.refused 6 (satInc 255), lastRefuser := 7
          lastTarget := c.target.setWidth 3 } ∧
        t.dev = { s.dev with pwr := t.dev.pwr, evt := t.dev.evt, keep := t.dev.keep })) ∧
    (s.dev.pwr.pgood = true → s.dev.pwr.aonLost = false →
      s.dev.pwr.state ∉ [PwrState.run, .levelChange, .prepare, .entry] ∨ s.dev.ignoresPgood = true →
      Next .pgoodLost s (fun t => SameStore s t ∧ t.dev = { s.dev with pwr := { s.dev.pwr with pgood := false } })) ∧
    (s.dev.pwr.change = none → s.dev.pwr.aonLost = false → Next .pgoodAssert s (fun t => SameStore s t ∧
      t.dev = { s.dev with pwr := { s.dev.pwr with pgood := true } })) ∧
    (s.dev.pwr.pgood = true → s.dev.pwr.aonLost = false → s.dev.ignoresPgood = false →
      s.dev.pwr.state ∈ [PwrState.run, .levelChange, .prepare, .entry] →
      Next .pgoodLost s (fun t => SameStore s t ∧ Sends s t [mkMsg 0xCA 0x38 1 s.dev.pwr.vsel.toNat] ∧
        t.dev = { s.dev with
          pwr := { s.dev.pwr with pgood := false, pgoodLosses := Nat.min 255 (s.dev.pwr.pgoodLosses + 1) }, keep := t.dev.keep }))

namespace Sys2Proof.Claims

/-- PARK has been reached: what that changes besides the power block (R416, R417, R429, R436). -/
def Parks (s t : State) : Prop :=
  Raises s t [0] ∧ t.dev.ledg.parks = Nat.min (2 ^ 32 - 1) (s.dev.ledg.parks + 1) ∧
  t.dev.ledg = { s.dev.ledg with parks := t.dev.ledg.parks, lampBase := s.dev.lampMs, lampAt := s.dev.now } ∧
  t.dev = { s.dev with
    pwr := t.dev.pwr, ledg := t.dev.ledg, evt := t.dev.evt, frm := { s.dev.frm with syncOut := 0 } }

end Sys2Proof.Claims

/-- A PARK request that no check refuses prepares and triggers a checkpoint, whether it starts at once or from the pending slot; a
high body-controller pin refuses it with refuser 5. The first tick after the checkpoint has been written is T_p: where no check of
R413 fails then the unit enters PARK, in which nothing is composed and no period starts, the link is DOWN and its session erased, and
the DRAM is in self-refresh; a check that fails then aborts the request with its refuser. At the end of entry the unit is in PARK with VSEL 0b100, SYNC_OUT held low,
the park counted, the copies of SYS_STATUS latched in AON and event 0, and a wake held during entry begins there; a filtered
change of a body-controller pin is taken wherever VDD_AON is present (R401, R413, R414, R416, R417, R419, R423, R429, R460). Where
it rests on the model's own reading or choice: log 80 (a new code deasserts PGOOD_CORE). -/
def Obligations.ParkIsEntered : Prop :=
  ∀ s : State,
    (∀ crc : Byte, WriteOk s 0x0404 4 crc → s.lat.safe = false → s.dev.chg.busy = false → s.dev.frm.ticked = true →
      s.dev.lb = false → s.dev.hb = false →
      s.dev.pwr.pend = none → s.dev.pwr.state = .run → s.dev.pwr.change = none →
      s.dev.ledg.running = none → s.dev.ledg.waiting = none → s.dev.cfg.load = .done →
      Next (.parkRequest crc) s (fun t => SameStore s t ∧
        t.dev.pwr = { s.dev.pwr with target := 4, state := .prepare, pend := some 4, parkWritten := false } ∧
        t.dev.ledg.running = some { periodic := false, pfw := false, park := true, other := false } ∧
        t.dev = { (written s 0x0404).dev with pwr := t.dev.pwr, ledg := t.dev.ledg })) ∧
    (s.dev.pwr.pend = some 4 → s.lat.safe = false → s.dev.chg.busy = false → s.dev.frm.ticked = true →
      s.dev.lb = false → s.dev.hb = false → s.dev.pwr.state = .run → s.dev.pwr.change = none →
      s.dev.ledg.running = none → s.dev.ledg.waiting = none → s.dev.cfg.load = .done →
      Next .pendingRequestStart s (fun t => SameStore s t ∧
        t.dev.pwr = { s.dev.pwr with state := .prepare, pend := some 4, parkWritten := false } ∧
        t.dev.ledg.running = some { periodic := false, pfw := false, park := true, other := false } ∧
        t.dev = { s.dev with pwr := t.dev.pwr, ledg := t.dev.ledg })) ∧
    (∀ crc : Byte, WriteOk s 0x0404 4 crc → s.lat.safe = false → s.dev.chg.busy = false → s.dev.frm.ticked = true →
      s.dev.lb = true ∨ s.dev.hb = true → Refused (.parkRequest crc) s 5 4) ∧
    (∀ temps, s.running = true → s.dev.frm.decision = .tick → s.dev.pwr.state = .prepare → s.dev.pwr.parkWritten = true →
      s.dev.pwr.change = none →
      (s.dev.chg.busy = false → s.dev.lb = false → s.dev.hb = false → Next (.tick temps) s (fun t =>
        t.dev.frm.tick = s.dev.nextTick ∧
        t.dev.pwr = { s.dev.pwr with state := .entry, pend := none, parkTick := t.dev.frm.tick } ∧
        t.dev.link.state = .down ∧ (∀ l ∈ t.dev.link.lanes, l.locked = false) ∧
        (s.dev.link.carries = true → t.dev.ses.keys = none ∧ t.dev.ses.hs = none ∧ t.dev.frm.commits = []) ∧
        t.dev.memc.selfRefresh = true ∧ (∀ g, exec (.pwmPeriodStart g) t = .next t) ∧
        ∀ w doneAt po co fetched, exec (.compose w doneAt po co fetched) t = .next t)) ∧
      (∀ code, (s.dev.chg.busy = true ∧ code = 2) ∨ (s.dev.chg.busy = false ∧ (s.dev.lb = true ∨ s.dev.hb = true) ∧ code = 5) →
        Next (.tick temps) s (fun t => t.dev.frm.tick = s.dev.nextTick ∧ Pends t 3 ∧
          t.dev.pwr = { s.dev.pwr with
            state := .run, pend := none, refused := updNth s.dev.pwr.refused (code - 1) (satInc 255), lastRefuser := code
            lastTarget := 4 }))) ∧
    (s.dev.pwr.state = .entry → s.dev.pwr.heldWake = 0 →
      Next .parkReached s (fun t => SameStore s t ∧ Parks s t ∧
        t.dev.pwr = { s.dev.pwr with
          state := .park, vsel := 4, pgood := false, vselAt := some s.dev.now, parks := Nat.min 65535 (s.dev.pwr.parks + 1)
          parkAt := s.dev.now, wakeClocks := false, sysHeld := s.sysSources })) ∧
    (s.dev.pwr.state = .entry → s.dev.pwr.heldWake ≠ 0 → s.dev.pwr.retentionLost = false →
      Next .parkReached s (fun t => SameStore s t ∧ Parks s t ∧
        t.dev.pwr = { s.dev.pwr with
          state := .wake, wakeAt := s.dev.now, wakeSource := s.dev.pwr.heldWake, heldWake := 0
          vsel := s.dev.pwr.level.setWidth 3, pgood := false, vselAt := some s.dev.now
          parks := Nat.min 65535 (s.dev.pwr.parks + 1), parkAt := s.dev.now, wakeClocks := false, sysHeld := s.sysSources })) ∧
    (s.dev.pwr.aonLost = true → ∀ (pin : Pin) (high : Bool), exec (.pinFilterChange pin high) s = .next s) ∧
    (s.dev.pwr.aonLost = false → ∀ (pin : Pin) (high : Bool), Next (.pinFilterChange pin high) s (fun t => SameStore s t ∧
      t.dev = { s.dev with lb := if pin = .lb then high else s.dev.lb, hb := if pin = .hb then high else s.dev.hb }))

namespace Sys2Proof.Claims

/-- PWR_WAKE.SOURCE of a wake command (R418, R423). -/
def wakeCode : Instr → Nat
  | .wakeAddressMatch => 1
  | .wakePinEdge .lb => 2
  | .wakePinEdge .hb => 3
  | _ => 0

end Sys2Proof.Claims

/-- A wake source starts the wake in PARK with the code of the level that was in force, is held during entry, and during
prepare aborts the PARK request with refuser 6. Then the clocks start once PGOOD_CORE is there, the DRAM leaves self-refresh, the link
leaves DOWN for DETECT where FW_REFCLK is present and stays DOWN where it is not, a lockout has lost no time, an access in the cycle of
the clamp release finds every domain but AON off, and an injection that PARK kept is sent, while the KEEP clock runs; the
resumption boundary returns to
RUN with WAKE_TIME and event 1, the tick number unchanged and every phase group dark until its period 0 (R197, R208, R369, R413, R416,
R418, R419, R420, R422, R423, R466, R471). Where it rests on the model's own reading or choice: log 80 (a new code
deasserts PGOOD_CORE). -/
def Obligations.WakeResumesFrame : Prop :=
  (∀ (s : State) (c : Instr), c = .wakeAddressMatch ∨ c = .wakePinEdge .lb ∨ c = .wakePinEdge .hb →
    s.dev.pwr.aonLost = false →
    (s.dev.pwr.state = .park → s.dev.pwr.retentionLost = false → Next c s (fun t => SameStore s t ∧
      t.dev = { s.dev with pwr := { s.dev.pwr with
        state := .wake, wakeAt := s.dev.now, wakeSource := wakeCode c, heldWake := 0, wakeClocks := false
        vsel := s.dev.pwr.level.setWidth 3, pgood := false, vselAt := some s.dev.now } })) ∧
    (s.dev.pwr.state = .entry → s.dev.pwr.heldWake = 0 → Next c s (fun t => SameStore s t ∧
      t.dev = { s.dev with pwr := { s.dev.pwr with heldWake := wakeCode c } })) ∧
    (s.dev.pwr.state = .prepare → Next c s (fun t => SameStore s t ∧ Raises s t [3] ∧
      t.dev.pwr = { s.dev.pwr with
        state := .run, pend := none, refused := updNth s.dev.pwr.refused 5 (satInc 255), lastRefuser := 6, lastTarget := 4 } ∧
      t.dev = { s.dev with pwr := t.dev.pwr, evt := t.dev.evt }))) ∧
  (∀ s : State, s.dev.pwr.state = .wake → s.dev.seesPgood = true → s.dev.pwr.wakeClocks = false →
    (∀ head addr, s.dev.test.later = [.inject head addr] → s.dev.pwr.keepOn = true → s.dev.keep.clockLost = false →
      Next .pllLocked s (fun t => t.dev.test.later = [] ∧ t.dev.pwr.wakeClocks = true ∧ Pends t 126 ∧
        t.dev.test.injected = Nat.min 255 (s.dev.test.injected + 1) ∧ t.lat.perturbed = true)) ∧
    (s.dev.test.later = [] ∨ s.dev.keep.clockLost = true →
      s.dev.fw.writes = [] → s.dev.fw.replies.length + s.dev.fw.crossing.length ≤ 256 →
      Next .pllLocked s (fun t => SameStore s t ∧ t.dev.pwr = { s.dev.pwr with wakeClocks := true, clampAt := some s.dev.now } ∧
      (∀ x : Domain, x ≠ .aon → t.dev.domainOn x = false) ∧
      t.dev.memc = { s.dev.memc with selfRefresh := false } ∧ t.dev.link.backoffMs = 1 ∧
      t.dev.link.state = (if s.dev.pwr.locked = true ∧ s.dev.link.refclk = true ∧ s.dev.link.state = .down then .detect
        else s.dev.link.state) ∧
      t.dev.sec = { s.dev.sec with lockAt := s.dev.sec.lockAt + (s.dev.now - s.dev.pwr.parkAt) } ∧
      t.dev = { s.dev with
        pwr := t.dev.pwr, memc := t.dev.memc, link := t.dev.link, keep := t.dev.keep, ledg := t.dev.ledg, sec := t.dev.sec
        fw := if s.dev.pwr.locked && s.dev.link.refclk then crossed s.dev.fw else s.dev.fw }))) ∧
  (∀ s : State, s.dev.pwr.state = .wake → s.dev.pwr.wakeClocks = true →
    Next .resumptionBoundary s (fun t => SameStore s t ∧
      t.dev.pwr = { s.dev.pwr with
        state := .run, wakeTime := Nat.min 65535 ((s.dev.now - s.dev.pwr.wakeAt) / 2000), wakeClocks := false } ∧
      t.dev.frm.tick = s.dev.frm.tick ∧ t.dev.frm.tickAt = s.dev.now ∧ t.dev.frm.begun = [] ∧
      t.dev.comp.tick = s.dev.frm.tick ∧ t.dev.comp.content = s.dev.comp.content ∧ t.dev.comp.batches = 0 ∧
      t.dev.frm.commits = s.dev.frm.commits ∧ Pends t 1 ∧
      t.dev.frm.resumed = true ∧ t.dev.frm.starts = List.replicate 16 0))

/-! ## The management port -/

/-- A register access is answered with the first of these that holds: 3 where there is no register, 2 where the access
level does not permit it, 1 where the block's domain is off, and 0 (R422). The blocks MEM, CHK, CAL, DIAG, CHG and LEDG
need SERVICE, TEST needs MAKER, and a write of KEEP_CLEAR needs SERVICE (R365). Where it rests on the model's own reading
or choice: log 84. -/
def Obligations.AccessIsJudgedInOrder : Prop :=
  ∀ (s : State) (a : Nat) (write : Bool) (w : Word),
    (regBlock a = none → s.judge a write w = 3) ∧
    (∀ b, regBlock a = some b → s.lat.level.toNat < s.dev.needLevel a b write w → s.judge a write w = 2) ∧
    (∀ b, regBlock a = some b → s.dev.needLevel a b write w ≤ s.lat.level.toNat →
      s.judge a write w = if s.dev.domainOn b.domain = true then 0 else 1) ∧
    (∀ b ∈ [Block.mem, .chk, .cal, .diag, .chg, .ledg], regBlock a = some b → s.lat.level = 0 → s.judge a write w = 2) ∧
    (regBlock a = some .test → s.lat.level.toNat < 2 → s.judge a write w = 2) ∧
    (s.lat.level = 0 → s.judge 0x0810 true w = 2)

namespace Sys2Proof.Claims

/-- An access of register `a` that is answered with a status other than 0 changes, beside the port's record of it, PWR_DOMOFF on
status 1, with event 5, and on status 2 it raises event 7; on status 3 nothing (R422, R446, R454). -/
def NotCarriedOut (s t : State) (a : BitVec 16) (status : Nat) : Prop :=
  SameStore s t ∧ Raises s t (if status = 1 then [5] else if status = 2 then [7] else []) ∧
  t.dev.pwr = (if status = 1 then { s.dev.pwr with
    domoffCount := Nat.min 65535 (s.dev.pwr.domoffCount + 1), domoffAddr := a } else s.dev.pwr) ∧
  t.dev = { s.dev with mgmt := t.dev.mgmt, pwr := t.dev.pwr, evt := t.dev.evt }

end Sys2Proof.Claims

namespace Sys2Proof.Claims

/-- The command's transaction waits for the KEEP clock behind those that wait, and changes nothing else. -/
def Waits (c : Instr) (s : State) (op : PortOp) : Prop :=
  exec c s = .next { s with dev := { s.dev with mgmt := { s.dev.mgmt with waiting := s.dev.mgmt.waiting ++ [op] } } }

/-- An access of register `a` with status 0 that must wait for the KEEP clock. -/
def KeepAccess (s : State) (a : Nat) (write : Bool) (w : Word) : Prop :=
  s.dev.keep.clockLost = true ∧ (∃ b, regBlock a = some b ∧ b.domain = .keep) ∧ s.judge a write w = 0

end Sys2Proof.Claims

/-- A pointer write sets the register pointer. A register write whose CRC byte is wrong, and a transaction of another
length, change nothing but CRC_PENDING, CRC_ERRORS and event 6. A good write is recorded with its status, and one that is
not carried out changes nothing else but, on status 1, PWR_DOMOFF with event 5, and on status 2 event 7; an abandoned transaction
leaves everything as it was, and every byte that the host reads past the CRC of an answer is 0xFF. Without VDD_AON the port does
nothing. An access of the KEEP domain with status 0 waits while the KEEP clock stands still, and every transaction behind it waits too, so
that all are carried out in their order (R421, R422, R443, R445, R446, R448, R449, R463). Where it rests on the model's own reading or
choice: log 93, and log 137 for the wait. -/
def Obligations.PortTransactionsComplete : Prop :=
  (∀ s : State, s.dev.pwr.aonLost = true → (∀ hi lo, exec (.pointerWrite hi lo) s = .next s) ∧
    (∀ bs, exec (.registerWrite bs) s = .next s) ∧ ∀ r, exec (.registerRead r) s = .next s) ∧
  (∀ s : State, s.dev.pwr.aonLost = false →
    (s.dev.mgmt.waiting ≠ [] →
      (∀ hi lo : Byte, Waits (.pointerWrite hi lo) s (.pointer (hi ++ lo))) ∧
      (∀ bs : Bytes, bs.length ≠ 2 → bs.length ≠ 7 → Waits (.registerWrite bs) s .bad) ∧ Waits (.registerRead none) s .read) ∧
    (∀ hi lo d3 d2 d1 d0 crc : Byte, s.dev.mgmt.waiting ≠ [] ∨ (crc = s.dev.mgmt.writeCrc (hi ++ lo) (d3 ++ d2 ++ d1 ++ d0) ∧
        KeepAccess s (hi ++ lo : BitVec 16).toNat true (d3 ++ d2 ++ d1 ++ d0)) →
      Waits (.registerWrite [hi, lo, d3, d2, d1, d0, crc]) s (.write (hi ++ lo) (d3 ++ d2 ++ d1 ++ d0) crc)) ∧
    (s.dev.mgmt.crcPending = false → KeepAccess s s.dev.mgmt.pointer.toNat false 0 → Waits (.registerRead none) s .read)) ∧
  ∀ s : State, s.dev.pwr.aonLost = false → s.dev.mgmt.waiting = [] →
    (∀ hi lo : Byte, Next (.pointerWrite hi lo) s (fun t => SameStore s t ∧
      t.dev = { s.dev with mgmt := { s.dev.mgmt with pointer := hi ++ lo } })) ∧
    (∀ hi lo d3 d2 d1 d0 crc : Byte, crc ≠ s.dev.mgmt.writeCrc (hi ++ lo) (d3 ++ d2 ++ d1 ++ d0) →
      Next (.registerWrite [hi, lo, d3, d2, d1, d0, crc]) s (fun t => SameStore s t ∧ Raises s t [6] ∧
        t.dev = { s.dev with
          mgmt := { s.dev.mgmt with crcPending := true, crcErrors := Nat.min 255 (s.dev.mgmt.crcErrors + 1) }
          evt := t.dev.evt })) ∧
    (∀ bs : Bytes, bs.length ≠ 2 → bs.length ≠ 7 →
      Next (.registerWrite bs) s (fun t => SameStore s t ∧ Raises s t [6] ∧
        t.dev = { s.dev with
          mgmt := { s.dev.mgmt with crcPending := true, crcErrors := Nat.min 255 (s.dev.mgmt.crcErrors + 1) }
          evt := t.dev.evt })) ∧
    (∀ hi lo d3 d2 d1 d0 : Byte, s.judge (hi ++ lo : BitVec 16).toNat true (d3 ++ d2 ++ d1 ++ d0) ≠ 0 →
      Next (.registerWrite [hi, lo, d3, d2, d1, d0, s.dev.mgmt.writeCrc (hi ++ lo) (d3 ++ d2 ++ d1 ++ d0)]) s (fun t =>
        NotCarriedOut s t (hi ++ lo) (s.judge (hi ++ lo : BitVec 16).toNat true (d3 ++ d2 ++ d1 ++ d0)) ∧
        t.dev.mgmt = { s.dev.mgmt with
          pointer := hi ++ lo, lastWAddr := hi ++ lo
          lastWStatus := BitVec.ofNat 3 (s.judge (hi ++ lo : BitVec 16).toNat true (d3 ++ d2 ++ d1 ++ d0)) })) ∧
    (∀ d3 d2 d1 d0 : Byte,
      Next (.registerWrite [0x00, 0x0C, d3, d2, d1, d0, s.dev.mgmt.writeCrc 0x000C (d3 ++ d2 ++ d1 ++ d0)]) s (fun t =>
        t = writtenWith s 0x000C (fun d => { d with mgmt := { d.mgmt with scratch := d3 ++ d2 ++ d1 ++ d0 } }))) ∧
    exec .i2cBusTimeout s = .next s ∧
    (∀ i, 6 ≤ i → s.dev.mgmt.answerByte i = 0xFF)

namespace Sys2Proof.Claims

/-- A register write with address bytes `hi` and `lo` that is carried out changes the blocks by `f` of its data. -/
def StoresWord (s : State) (hi lo : Byte) (f : Word → Dev → Dev) : Prop :=
  ∀ d3 d2 d1 d0 crc : Byte, WriteOk s (hi ++ lo) (d3 ++ d2 ++ d1 ++ d0) crc →
    Next (.registerWrite [hi, lo, d3, d2, d1, d0, crc]) s (fun t =>
      t = writtenWith s (hi ++ lo) (f (d3 ++ d2 ++ d1 ++ d0)))

end Sys2Proof.Claims

/-- Accepted writes of registers with storage: writing 1 to a bit of EVT_PENDm clears that event and no other; KEEP_HIST_SEL
copies the selected entry of the history queue and clears the overwritten mark; CFG_IMG_ADDR stores a word address and clears
IMG_READY; EVT_ENm stores its bits but for reserved events; the selectors CFG_SECT_SEL, LINK_BUF_SEL, CAL_SEL, CHG_REF_SEL,
SEC_CERT and DIAG_MAP_ADDR and the words of SEC_RESP and TEST_INJECT0 are stored, each before the next transaction is judged. Nothing else
changes but the port's record of the write (R240, R274, R296, R323, R373, R407, R450, R452, R455, R463, R473). -/
def Obligations.StoredRegisterWrites : Prop :=
  (∀ s : State,
    StoresWord s 0x78 0x14 (fun w d => { d with cfg := { d.cfg with sectSel := w.toNat % 32 } }) ∧
    StoresWord s 0x10 0x5C (fun w d => { d with fw := { d.fw with bufSel := w.toNat % 256 } }) ∧
    StoresWord s 0x60 0x10 (fun w d => { d with cal := { d.cal with sel := w.toNat % 256 } }) ∧
    StoresWord s 0x68 0x10 (fun w d => { d with chg := { d.chg with refSel := w.toNat % 256 } }) ∧
    StoresWord s 0x71 0x60 (fun w d => { d with sec := { d.sec with certWord := w.toNat % 256 } }) ∧
    StoresWord s 0x7C 0x14 (fun w d => { d with test := { d.test with injAddr := w } }) ∧
    StoresWord s 0x64 0x1C (fun w d => { d with diag := { d.diag with
      mapAddr := if 1081340 < w.toNat % 2 ^ 21 / 4 * 4 then 0 else w.toNat % 2 ^ 21 / 4 * 4 } }) ∧
    (∀ i : BitVec 8, i < 36 → StoresWord s 0x70 (0x60 + 4 * i) (fun w d =>
      { d with sec := { d.sec with resp := setNth d.sec.resp i.toNat w } })) ∧
    (∀ (m : BitVec 2) (d3 d2 d1 d0 crc : Byte),
      WriteOk s (0x0C10 + 4 * m.setWidth 16) (d3 ++ d2 ++ d1 ++ d0) crc →
      Next (.registerWrite [0x0C, 0x10 + 4 * m.setWidth 8, d3, d2, d1, d0, crc]) s (fun t => SameStore s t ∧
        (∀ n, t.dev.evt.en.getLsbD n = (!reservedEvent n &&
          if n / 32 = m.toNat then (d3 ++ d2 ++ d1 ++ d0 : Word).getLsbD (n % 32) else s.dev.evt.en.getLsbD n)) ∧
        t.dev = { (written s (0x0C10 + 4 * m.setWidth 16)).dev with evt := { s.dev.evt with en := t.dev.evt.en } }))) ∧
  ∀ (s : State) (crc : Byte),
    (∀ (m : BitVec 2) (w : Word), WriteOk s (0x0C00 + 4 * m.setWidth 16) w crc →
      Next (.evtPendClear m w crc) s (fun t => SameStore s t ∧
        (∀ n, t.dev.evt.pend.getLsbD n =
          (s.dev.evt.pend.getLsbD n && !(decide (n / 32 = m.toNat) && w.getLsbD (n % 32)))) ∧
        t.dev = { (written s (0x0C00 + 4 * m.setWidth 16)).dev with evt := { s.dev.evt with pend := t.dev.evt.pend } })) ∧
    (∀ i : BitVec 4, WriteOk s 0x0814 (i.setWidth 32) crc →
      Next (.keepHistSel i crc) s (fun t => t = writtenWith s 0x0814 (fun d => { d with
        keep := { d.keep with histSel := i.toNat, histView := d.keep.hist[i.toNat]?, wrapped := false } }))) ∧
    (∀ w : Word, WriteOk s 0x7824 w crc →
      Next (.cfgImgAddr w crc) s (fun t => t = writtenWith s 0x7824 (fun d => { d with
        cfg := { d.cfg with
          imgAddr := w.toNat % 2 ^ 26 / 4 * 4, imgReady := false, tries := if d.cfg.holdsBus then d.cfg.tries else 0 } })))

/-- A read after a CRC error is answered with status 4 and data 0 and clears CRC_PENDING. Otherwise a read that is carried
out answers status 0 with the register's value under a CRC byte over the whole transaction, and changes nothing that the
register does not give it to change; one that is not, answers the status of R422 with data 0, and its domain being off is counted in
PWR_DOMOFF with event 5 (R422, R443, R444, R447). A read that waits for the KEEP clock is in the statement before. Where it rests on the
model's own reading or choice: log 83. -/
def Obligations.RegisterReadsAnswer : Prop :=
  ∀ (s : State) (r : Option (BitVec 16)) (a : BitVec 16), a = r.getD s.dev.mgmt.pointer → s.dev.pwr.aonLost = false →
    s.dev.mgmt.waiting = [] →
    (s.dev.mgmt.crcPending = true → Next (.registerRead r) s (fun t => SameStore s t ∧
      t.dev = { s.dev with mgmt := { s.dev.mgmt with
        pointer := a, crcPending := false, readStatus := 4, readData := 0, readCrc := t.dev.mgmt.readCrc } })) ∧
    (s.dev.mgmt.crcPending = false → s.judge a.toNat false 0 ≠ 0 → Next (.registerRead r) s (fun t =>
      NotCarriedOut s t a (s.judge a.toNat false 0) ∧
      t.dev.mgmt.readStatus = s.judge a.toNat false 0 ∧ t.dev.mgmt.readData = 0 ∧ t.dev.mgmt.pointer = a)) ∧
    (∀ b, s.dev.mgmt.crcPending = false → regBlock a.toNat = some b → s.judge a.toNat false 0 = 0 →
      s.dev.keep.clockLost = false ∨ b.domain ≠ .keep →
      a ≠ 0x6420 → a ≠ 0x7164 → a ≠ 0x7828 → a ≠ 0x740C →
      Next (.registerRead r) s (fun t => SameStore s t ∧
        t.dev.mgmt.readStatus = 0 ∧
        t.dev.mgmt.readData = { s with dev := { s.dev with mgmt := { s.dev.mgmt with pointer := a } } }.regValue a.toNat b ∧
        t.dev.mgmt.readCrc = BitVec.ofNat 8 (crc8 ([s.dev.mgmt.aw] ++ toBe 2 a.toNat ++ [s.dev.mgmt.aw ||| 1, 0] ++
          toBe 4 t.dev.mgmt.readData.toNat)) ∧
        t.dev = { s.dev with mgmt := { s.dev.mgmt with
          pointer := a, utcHold := none, readStatus := 0, readData := t.dev.mgmt.readData, readCrc := t.dev.mgmt.readCrc } }))

/-- The registers whose read does more, when the read is carried out: CFG_IMG_DATA gives the fetched word and moves
CFG_IMG_ADDR on by 4, and the fetch sets IMG_READY; SEC_CERT_DATA moves SEC_CERT.WORD on; LEDG_UTC_HI holds the low word of
the same time; DIAG_MAP_DATA moves on by four pixels, a read answered by a queued write is counted, one that reaches the DRAM is counted
in the window of granule reads, errors corrected in the granule are counted, and a poisoned granule is reported with event 86 and replaced by the bytes of the health store (R250, R256, R257,
R295, R296, R297, R373, R407, R464). Where it rests on the model's own reading or
choice: log 83. -/
def Obligations.AdvancingReads : Prop :=
  ∀ s : State, s.dev.mgmt.crcPending = false → s.dev.pwr.aonLost = false → s.dev.mgmt.waiting = [] →
    (s.judge 0x7828 false 0 = 0 → s.dev.cfg.imgReady = true → Next .cfgImgData s (fun t => SameStore s t ∧
      t.dev.mgmt.readData = s.dev.cfg.imgWord ∧ t.dev.mgmt.readStatus = 0 ∧
      t.dev = { s.dev with
        mgmt := t.dev.mgmt, cfg := { s.dev.cfg with imgAddr := (s.dev.cfg.imgAddr + 4) % 2 ^ 26, imgReady := false } })) ∧
    (∀ w : Word, s.dev.pwr.mainOn = true → s.dev.cfg.load = .done → Next (.imgFetch w) s (fun t => SameStore s t ∧
      t.dev = { s.dev with cfg := { s.dev.cfg with imgReady := true, imgWord := w, tries := 0 } })) ∧
    (s.judge 0x7164 false 0 = 0 → Next .secCertData s (fun t => SameStore s t ∧ t.dev.mgmt.readStatus = 0 ∧
      t.dev = { s.dev with mgmt := t.dev.mgmt, sec := { s.dev.sec with certWord := (s.dev.sec.certWord + 1) % 256 } })) ∧
    (s.judge 0x740C false 0 = 0 → Next .ledgUtcHi s (fun t => SameStore s t ∧ t.dev.mgmt.readStatus = 0 ∧
      t.dev.mgmt.readData = BitVec.ofNat 32 (s.dev.utc / 2 ^ 32) ∧
      t.dev.mgmt.utcHold = some (BitVec.ofNat 32 s.dev.utc) ∧ t.dev = { s.dev with mgmt := t.dev.mgmt })) ∧
    (s.judge 0x6420 false 0 = 0 → ∀ ecc : Ecc, Next (.diagMapData ecc) s (fun t => SameStore s t ∧
      t.dev.mgmt.readStatus = 0 ∧
      t.dev.diag = { s.dev.diag with
        mapAddr := if 1081340 < s.dev.diag.mapAddr + 4 then 0 else s.dev.diag.mapAddr + 4 } ∧
      (s.dev.memc.dramLess = true → t.dev.mgmt.readData = s.mapStored ∧
        t.dev = { s.dev with mgmt := t.dev.mgmt, diag := t.dev.diag }) ∧
      (s.dev.memc.dramLess = false → s.dev.memc.forwards (0x36000000 + s.dev.diag.mapAddr) = true →
        t.dev = { s.dev with
          mgmt := t.dev.mgmt, diag := t.dev.diag
          memc := { s.dev.memc with forwarded := Nat.min 65535 (s.dev.memc.forwarded + 1) } }) ∧
      (s.dev.memc.dramLess = false → s.dev.memc.forwards (0x36000000 + s.dev.diag.mapAddr) = false →
        t.dev.memc.reads = s.dev.memc.reads + 1 ∧
        (eccCorrected ecc = 0 → eccPoisons ecc = false → t.dev = { s.dev with
          mgmt := t.dev.mgmt, diag := t.dev.diag, memc := { s.dev.memc with reads := s.dev.memc.reads + 1 } }) ∧
        t.dev.memc.corrected = (if eccCorrected ecc = 0 then s.dev.memc.corrected
          else Nat.min 1048575 (s.dev.memc.corrected + eccCorrected ecc)) ∧
        (eccPoisons ecc = true → t.dev.mgmt.readData = s.mapStored ∧ Pends t 40 ∧ Pends t 86 ∧
          t.dev.memc.uncorrectable = Nat.min 4095 (s.dev.memc.uncorrectable + 1) ∧
          t.dev.memc.eccAddr = (0x36000000 + s.dev.diag.mapAddr) / 32 * 32 ∧
          mkMsg 0xC4 0x17 1 t.dev.memc.eccAddr ∈ t.dev.keep.transit))))

/-! ## The TEST block, the security engine and the Keeper's clears -/

namespace Sys2Proof.Claims

/-- A value capped at a control's largest. -/
def cap (n mx : Nat) : Nat := Nat.min mx n

/-- `s` once a control of TEST has been stored: a nonzero one (`nz`) marks the unit, in every power state, when nothing has yet,
with the level, the tick, event 118 and a message; any other leaves `s` as it is (R371, R467). -/
def afterControl (s : State) (nz : Bool) : State :=
  if nz && !s.lat.perturbed then
    { s with
      lat := { s.lat with perturbed := true, pertLevel := s.lat.level, pertJtag := false, pertTick := s.dev.frm.tick }
      dev := (s.dev.raise 118).send 0xC8 0x35 0 s.lat.level.toNat }
  else s

/-- VC1 credits that return through LIMIT1 when HOLD1 becomes `h`: those withheld above it, seven in any eight receive frame
slots (R223, R469). -/
def returned1 (f : Fw) (h : Nat) : Nat := Nat.min (f.kept1 - h) (7 - sumNat f.rises)

/-- The unit is marked as perturbed from here on: the latch holds, and when this was the first perturbation the level, the
source and the tick are recorded, PERTURBED is raised and its message sent (R371). -/
def Marked (s t : State) (jtag : Bool) : Prop :=
  t.lat.perturbed = true ∧ t.lat.safe = s.lat.safe ∧ t.lat.level = s.lat.level ∧
  (s.lat.perturbed = true → t.lat = s.lat) ∧
  (s.lat.perturbed = false → t.lat.pertLevel = s.lat.level ∧ t.lat.pertJtag = jtag ∧ t.lat.pertTick = s.dev.frm.tick ∧ Pends t 118 ∧
    mkMsg 0xC8 0x35 0 (if jtag then 4 else s.lat.level.toNat) ∈ t.dev.keep.transit)

/-- TEST_DRILL with UNIT `n` and TILE `tile` names the instances of the pair of `u`: CE, the timebases, or the references of a tile
that exists and is not dark (R472). -/
def DrillNames (s : State) (n tile : Nat) (u : UnitRef) : Prop :=
  match u with
  | .engine _ => n = 1
  | .timebase _ => n = 2
  | .tileRef t _ => n = 3 ∧ t = tile ∧ tile < 192 ∧ s.dev.isDark tile = false

/-- The blocks after the TAP has moved to `x`. -/
def tapAt (s : State) (x : Tap) : State := { s with dev := { s.dev with test := { s.dev.test with tap := x } } }

end Sys2Proof.Claims

/-- A control of the TEST block takes its value, capped where R473 caps it, and a nonzero one marks the unit; all zeros
leave the latches alone. COMMIT_DELAY and the port delays change nothing else; TICK_JITTER loads the LFSR from SEED, with
0xACE1 for 0; and lowering HOLD0 returns the difference of the withheld VC0 credits at once (R371, R466, R467, R469, R470,
R473). Where it rests on the model's own reading or choice: log 39, 86
and 87. -/
def Obligations.TestControlsTakeEffect : Prop :=
  ∀ (s : State) (w : Word) (crc : Byte),
    (WriteOk s 0x7C08 w crc → exec (.portDelay w crc) s = .next
      (afterControl (writtenWith s 0x7C08 (fun d => { d with
        test := { d.test with compDelay := w.toNat % 1024, gainDelay := w.toNat / 65536 % 1024 } }))
        (decide (w.toNat % 1024 ≠ 0) || decide (w.toNat / 65536 % 1024 ≠ 0)))) ∧
    (WriteOk s 0x7C0C w crc → exec (.commitDelay w crc) s = .next
      (afterControl (writtenWith s 0x7C0C (fun d => { d with test := { d.test with commitDelay := w.toNat % 65536 } }))
        (decide (w.toNat % 65536 ≠ 0)))) ∧
    (WriteOk s 0x7C10 w crc → exec (.tickJitter w crc) s = .next
      (afterControl (writtenWith s 0x7C10 (fun d => { d with
        test := { d.test with
          jitter := cap (w.toNat % 32) 20, seed := w.toNat / 65536
          lfsr := if w.toNat / 65536 = 0 then 0xACE1 else w.toNat / 65536 }
        frm := { d.frm with jitterLeft := if d.pwr.mainOn = true then none else d.frm.jitterLeft } }))
        (decide (w.toNat % 32 ≠ 0) || decide (w.toNat / 65536 ≠ 0)))) ∧
    (WriteOk s 0x7C04 w crc → exec (.creditHold w crc) s = .next
      (afterControl (writtenWith s 0x7C04 (fun d => { d with
        test := { d.test with hold0 := cap (w.toNat % 16) 8, hold1 := cap (w.toNat / 256 % 64) 32 }
        fw := if d.fairwayOn = false then d.fw else { d.fw with
          kept0 := Nat.min d.fw.kept0 (cap (w.toNat % 16) 8)
          limit0 := (d.fw.limit0 + (d.fw.kept0 - cap (w.toNat % 16) 8)) % 256
          kept1 := d.fw.kept1 - returned1 d.fw (cap (w.toNat / 256 % 64) 32)
          limit1 := (d.fw.limit1 + returned1 d.fw (cap (w.toNat / 256 % 64) 32)) % 256
          rises := updNth (if d.fw.rises = [] then [0] else d.fw.rises) 0 (· + returned1 d.fw (cap (w.toNat / 256 % 64) 32)) } }))
        (decide (w.toNat % 16 ≠ 0) || decide (w.toNat / 256 % 64 ≠ 0))))

/-- TEST_INJECT1 with GO injects the stored message into the FIFO of its source, marked and counted with event 126, unless
its kind is reserved or no sender of its source may send it, which is counted with event 127; while the KEEP clock does not run the
injection waits for it. A drill of an engine, a timebase or a tile reference is refused in START, under SAFE, for a unit or tile that
it cannot name, and where the partner of the active instance is not STANDBY, with event 125 and nothing else; otherwise the active
instance gives up with cause 0x11, not counted as a give-up, and the standby takes over; where its unit has given up for another
cause in the same KEEP cycle there is no second give-up; and it waits for the KEEP clock too. A JTAG instruction acts only at VENDOR
and once the TAP has loaded it, the TAP being held in reset while TRST_N is low, and TDO is driven only in Shift-DR and Shift-IR
(R365, R371, R466, R471, R472, R491). Where it rests on the model's own reading or choice: log 87, 133 (one KEEP cycle is one
cycle of the model's clock), 134 (the states of the TAP) and 152. -/
def Obligations.InjectionAndDrills : Prop :=
  ∀ (s : State) (w : Word) (crc : Byte),
    (WriteOk s 0x7C18 w crc → w.getLsbD 16 = true →
      Next (.inject w crc) s (fun t =>
        (kindReserved (w.toNat / 256 % 64) = true ∨ kindSender (w.toNat / 256 % 64) (w.toNat % 256) = false →
          t.dev.test.injRefused = Nat.min 255 (s.dev.test.injRefused + 1) ∧ Pends t 127 ∧ t.dev.keep = s.dev.keep ∧ t.lat = s.lat) ∧
        (kindReserved (w.toNat / 256 % 64) = false → kindSender (w.toNat / 256 % 64) (w.toNat % 256) = true →
          s.dev.keeperRuns = false →
          t = writtenWith s 0x7C18 (fun d => { d with test := { d.test with
            injHead := BitVec.ofNat 16 w.toNat, later := d.test.later ++ [.inject (BitVec.ofNat 16 w.toNat) d.test.injAddr] } })) ∧
        (kindReserved (w.toNat / 256 % 64) = false → kindSender (w.toNat / 256 % 64) (w.toNat % 256) = true →
          s.dev.keeperRuns = true →
          t.dev.test.injected = Nat.min 255 (s.dev.test.injected + 1) ∧ Pends t 126 ∧ Marked s t false ∧
          (w.toNat % 256 ≠ 0xFF → (s.dev.keep.fifos.filter (fun x => x.source.toNat == w.toNat % 256)).length < 4 →
            t.dev.keep.fifos = s.dev.keep.fifos ++
              [mkMsg (w.toNat % 256) (w.toNat / 256 % 64) (w.toNat / 16384 % 4) s.dev.test.injAddr.toNat])))) ∧
    (WriteOk s 0x7C1C w crc → w.getLsbD 16 = true → s.dev.keeperRuns = false →
      Next (.drill w crc) s (fun t => t = writtenWith s 0x7C1C (fun d => { d with test := { d.test with
        unit_ := w.toNat % 4, tile := w.toNat / 256 % 256
        later := d.test.later ++ [.drill (w.toNat % 4) (w.toNat / 256 % 256)] } }))) ∧
    (WriteOk s 0x7C1C w crc → w.getLsbD 16 = true → s.dev.keeperRuns = true →
      (s.dev.frm.ticked = false ∨ s.lat.safe = true ∨
        (∀ u, ¬ DrillNames s (w.toNat % 4) (w.toNat / 256 % 256) u) ∨
        (∃ u, DrillNames s (w.toNat % 4) (w.toNat / 256 % 256) u ∧ s.dev.gaveUpNow u = none ∧
          s.dev.chg.is u .active = true ∧ s.dev.chg.is (unitPartner u) .standby = false)) →
      Next (.drill w crc) s (fun t => SameStore s t ∧ Raises s t [125] ∧
        t.dev = { (written s 0x7C1C).dev with
          evt := t.dev.evt
          test := { s.dev.test with
            unit_ := w.toNat % 4, tile := w.toNat / 256 % 256
            drillRefused := Nat.min 255 (s.dev.test.drillRefused + 1) } })) ∧
    (∀ u, WriteOk s 0x7C1C w crc → w.getLsbD 16 = true → s.dev.keeperRuns = true → s.dev.frm.ticked = true → s.lat.safe = false →
      DrillNames s (w.toNat % 4) (w.toNat / 256 % 256) u → s.dev.gaveUpNow u = none →
      s.dev.chg.is u .active = true → s.dev.chg.is (unitPartner u) .standby = true →
      Next (.drill w crc) s (fun t =>
        t.dev.chg.is u .selftest = true ∧ t.dev.chg.is (unitPartner u) .active = true ∧
        t.dev.chg.lastCause = 0x11 ∧ t.dev.chg.lastSource = unitSource u ∧ t.dev.chg.lastB = unitB u ∧
        (∀ b, (t.dev.chg.pair u).gave b = (s.dev.chg.pair u).gave b) ∧
        (t.dev.chg.pair u).takeovers = Nat.min 255 ((s.dev.chg.pair u).takeovers + 1) ∧
        mkMsg (unitSource u) 0x10 2 0x11 ∈ t.dev.keep.direct ∧ Pends t 124 ∧ Pends t 96 ∧
        t.dev.test.drills = Nat.min 255 (s.dev.test.drills + 1) ∧ Marked s t false ∧
        (∀ n b, u = .tileRef n b → (t.dev.tile n).refSel = !b ∧ (SMap.get {} t.dev.cal.tiles n).aborted = true ∧ Pends t 94))) ∧
    (∀ u g, WriteOk s 0x7C1C w crc → w.getLsbD 16 = true → s.dev.keeperRuns = true → s.dev.frm.ticked = true →
      s.lat.safe = false → DrillNames s (w.toNat % 4) (w.toNat / 256 % 256) u →
      s.dev.gaveUpNow u = some g → g.ok = true → g.cause ≠ 0x11 →
      Next (.drill w crc) s (fun t => t.dev.chg = s.dev.chg ∧ Pends t 124 ∧
        t.dev.test.drills = Nat.min 255 (s.dev.test.drills + 1) ∧ Marked s t false)) ∧
    (s.dev.domainOn .aon = true →
      (∀ tms, s.lat.level = 3 → s.dev.pwr.mainOn = true → (s.dev.test.tap.after true tms).2 = true →
        Next (.jtagInstruction true tms) s (fun t => Marked s t true ∧ t.cells = s.cells ∧ t.mem = s.mem ∧ t.otp = s.otp ∧
          t.dev.test = { s.dev.test with tap := (s.dev.test.tap.after true tms).1 })) ∧
      (∀ trstN tms, s.lat.level ≠ 3 ∨ s.dev.pwr.mainOn = false ∨ (s.dev.test.tap.after trstN tms).2 = false →
        exec (.jtagInstruction trstN tms) s = .next (tapAt s (s.dev.test.tap.after trstN tms).1)) ∧
      (∀ tms, exec (.jtagInstruction false tms) s = .next (tapAt s .reset))) ∧
    (∀ x : Tap, (x.after true [true, true, true, true, true]).1 = .reset ∧
      x.after true [true, true, true, true, true, false, true, true, false, true, true] = (.updateIr, true)) ∧
    (s.dev.tdoDriven = true ↔ s.dev.test.tap = .shiftDr ∨ s.dev.test.tap = .shiftIr)

/-- A command written to SEC_AUTH while the engine is idle starts with copies of the response registers, and for
SIGN_STATUS of the status block; one written while it is busy is stored, leaves result BUSY and starts nothing (R7, R354, R366,
R367, R368, R370, R373). Where it rests on the model's own reading or choice: log 65. -/
def Obligations.SecurityCommandsStart : Prop :=
  ∀ (s : State) (n : Nat) (key crc : Byte) (c : Instr),
    (n = 1 ∧ c = .unlockService key crc) ∨ (n = 2 ∧ c = .unlockMaker key crc) ∨ (n = 3 ∧ key = 0 ∧ c = .unlockVendor crc) ∨
      (n = 4 ∧ key = 0 ∧ c = .claim crc) ∨ (n = 5 ∧ key = 0 ∧ c = .signStatus crc) →
    WriteOk s 0x7050 (BitVec.ofNat 32 (n + 256 * key.toNat)) crc →
    (s.dev.sec.job = none → s.dev.sec.fusing = false →
      Next c s (fun t => t = writtenWith s 0x7050 (fun d => { d with sec := { d.sec with
        cmd := n, key := key.toNat
        job := some { cmd := n, key := key.toNat, resp := s.dev.sec.resp, block := if n = 5 then (written s 0x7050).statusBlock else [] }
        sstat := if n = 5 then (written s 0x7050).statusBlock else s.dev.sec.sstat } }))) ∧
    (s.dev.sec.job.isSome = true ∨ s.dev.sec.fusing = true →
      Next c s (fun t => t = writtenWith s 0x7050 (fun d => { d with sec := { d.sec with cmd := n, key := key.toNat, result := 6 } })))

/-- An unlock that ends at or below the level in force has result STATE, and during a lockout result LOCKOUT; a good
signature raises the level to the command's and clears the count of failures with event 112; a bad one is counted with
event 113, and the fourth in a row brings a lockout of 10 s, each further one of twice the length up to 640 s, with event 114 and its
message. The nonce is replaced in each case (R365, R366, R368, R369). A
CLAIM that verifies on an unclaimed unit fuses the hash of the root key with its CRC-16, and then the claim bit with event 119; on a
claimed or torn unit its result is STATE and no fuse changes. The end of a lockout clears its length (R354, R355, R369).
SIGN_STATUS ends with result OK, the signature of the block it copied at its start in the signature registers; the nonce stays
(R366, R370). Where it rests on the model's own reading or choice: log 65. -/
def Obligations.SecurityCommandsEnd : Prop :=
  (∀ (s : State) (j : SecJob), s.dev.pwr.mainOn = true → s.dev.sec.job = some j → 1 ≤ j.cmd → j.cmd ≤ 3 →
    Next .secCommandDone s (fun t =>
      t.dev.sec.job = none ∧ t.dev.sec.nonce = s.dev.sec.draws ∧ t.otp = s.otp ∧ t.mem = s.mem ∧ t.cells = s.cells ∧
      t.dev.sec.result = s.secResult j ∧
      (j.cmd ≤ s.lat.level.toNat → t.dev.sec.result = 5 ∧ t.lat = s.lat) ∧
      (s.lat.level.toNat < j.cmd → s.dev.sec.lockLen ≠ 0 → t.dev.sec.result = 4 ∧ t.lat = s.lat) ∧
      (t.dev.sec.result = 1 → t.lat = { s.lat with level := BitVec.ofNat 2 j.cmd } ∧ t.dev.sec.fails = 0 ∧ Pends t 112) ∧
      (t.dev.sec.result = 2 → t.lat = s.lat ∧ t.dev.sec.fails = Nat.min 255 (s.dev.sec.fails + 1) ∧ Pends t 113 ∧
        (3 ≤ s.dev.sec.fails → t.dev.sec.lockLen = Nat.min 640 (10 * 2 ^ (s.dev.sec.fails - 3)) ∧
          t.dev.sec.lockAt = s.dev.now ∧ Pends t 114 ∧
          mkMsg 0xC8 0x32 0 (Nat.min 640 (10 * 2 ^ (s.dev.sec.fails - 3))) ∈ t.dev.keep.transit)))) ∧
  (∀ s : State, s.dev.pwr.mainOn = true →
    (∀ j : SecJob, s.dev.sec.job = some j → j.cmd = 4 →
      Next .secCommandDone s (fun t => t.lat = s.lat ∧ t.mem = s.mem ∧
        (s.otp.claimed = true ∨ s.dev.sec.claimed = true ∨ s.dev.sec.torn = true →
          t.dev.sec.result = 5 ∧ t.otp = s.otp ∧ t.dev.sec.fusing = s.dev.sec.fusing) ∧
        (t.dev.sec.result = 1 →
          t.otp = { s.otp with
            rootHash := Config.sha256 (wordsBytes (j.resp.take 16))
            rootCrc := BitVec.ofNat 16 (crc16 (Config.sha256 (wordsBytes (j.resp.take 16)))) } ∧ t.dev.sec.fusing = true))) ∧
    (∀ j : SecJob, s.dev.sec.job = some j → j.cmd = 5 →
      Next .secCommandDone s (fun t => SameStore s t ∧ t.dev = { s.dev with sec := { s.dev.sec with
        job := none, result := 1, draws := s.dev.sec.draws + 1
        ssig := bytesWords 16 (Config.ecdsaSign s.otp.privKey
          (Config.sha256 (wordsBytes (j.resp.take 8) ++ wordsBytes j.block)) s.dev.sec.draws) } })) ∧
    (s.dev.sec.fusing = true → Next .claimFused s (fun t =>
      t.otp = { s.otp with claimed := true } ∧ t.mem = s.mem ∧ t.cells = s.cells ∧ t.lat = s.lat ∧ Raises s t [119] ∧
      t.dev = { s.dev with sec := { s.dev.sec with fusing := false }, evt := t.dev.evt })) ∧
    Next .lockoutExpiry s (fun t => SameStore s t ∧ t.dev = { s.dev with sec := { s.dev.sec with lockLen := 0 } }))

namespace Sys2Proof.Claims

/-- The Keeper after a clear of severities 1 (`one`) and 2 (`two`), but for KEEP_FIRST: the uncleared marks and the holds of
those severities fall, and nothing of severity 3 or 0 does (R314). -/
def Cleared (k k' : Keep) (one two : Bool) : Prop :=
  k'.unc1 = (k.unc1 && !one) ∧ k'.unc2 = (k.unc2 && !two) ∧ k'.unc3 = k.unc3 ∧
  k'.dip = k.dip &&& (if one then 0xD else 0xF) &&& (if two then 0xB else 0xF) ∧
  k'.standalone = k.standalone &&& (if one then 0xD else 0xF) &&& (if two then 0xB else 0xF) ∧
  k' = { k with unc1 := k'.unc1, unc2 := k'.unc2, dip := k'.dip, standalone := k'.standalone, first := k'.first }

end Sys2Proof.Claims

/-- CLEAR1 and CLEAR2, at SERVICE or above, clear the faults of their severity with the DIP and STANDALONE holds it made;
SAFE stays set; the event of a clear is raised when a fault was cleared; and the first fault is kept while SAFE is set (R312, R314,
R321). -/
def Obligations.ClearsActOnTheirSeverity : Prop :=
  ∀ (s : State) (crc : Byte),
    (WriteOk s 0x0810 1 crc → Next (.clear1 crc) s (fun t => SameStore s t ∧
      Cleared s.dev.keep t.dev.keep true false ∧ Raises s t (if s.dev.keep.unc1 then [13] else []) ∧
      (s.lat.safe = true → t.dev.keep.first = s.dev.keep.first) ∧
      t.dev = { (written s 0x0810).dev with keep := t.dev.keep, evt := t.dev.evt })) ∧
    (WriteOk s 0x0810 2 crc → Next (.clear2 crc) s (fun t => SameStore s t ∧
      Cleared s.dev.keep t.dev.keep false true ∧ Raises s t (if s.dev.keep.unc2 then [13] else []) ∧
      (s.lat.safe = true → t.dev.keep.first = s.dev.keep.first) ∧
      t.dev = { (written s 0x0810).dev with keep := t.dev.keep, evt := t.dev.evt }))

/-! ## The lifetime ledger -/

/-- In RUN a periodic checkpoint and a falling edge of PFW_N begin a checkpoint at once when none runs or waits: its first
record is STATE with cause 0 or 1. A periodic one also makes the fusing of rollback steps due while SAFE is clear and the
image asks for more than the fuses hold, and each step then fuses one (R392, R426, R433). Where it rests on the model's own
reading or choice: log 12. -/
def Obligations.CheckpointsBegin : Prop :=
  ∀ s : State,
    (s.dev.frm.ticked = true → s.dev.pwr.mainOn = true → s.dev.ledg.running = none → s.dev.ledg.waiting = none →
      s.dev.cfg.load = .done →
      Next .periodicCheckpoint s (fun t => SameStore s t ∧
        t.dev.ledg.running = some { periodic := true, pfw := false, park := false, other := false } ∧
        (∃ r rs, t.dev.ledg.work = r :: rs ∧ r.kind = 1 ∧ r.arg = 0 ∧ r.lampS = s.dev.lampS) ∧ t.dev.ledg.image = none ∧
        (t.dev.cfg.fuseDue = true ↔ s.dev.cfg.fuseDue = true ∨ (s.otp.rollback < hdrRollback s.dev.cfg.head ∧ s.lat.safe = false)) ∧
        t.dev = { s.dev with ledg := t.dev.ledg, cfg := { s.dev.cfg with fuseDue := t.dev.cfg.fuseDue } }) ∧
      Next .pfwNFall s (fun t => SameStore s t ∧
        t.dev.ledg.running = some { periodic := false, pfw := true, park := false, other := false } ∧
        (∃ r rs, t.dev.ledg.work = r :: rs ∧ r.kind = 1 ∧ r.arg = 1) ∧ t.dev.ledg.image = s.dev.ledg.image ∧
        t.dev = { s.dev with ledg := t.dev.ledg })) ∧
    (s.dev.cfg.fuseDue = true → s.lat.safe = false → s.dev.pwr.mainOn = true → s.otp.rollback < hdrRollback s.dev.cfg.head →
      Next .rollbackFuse s (fun t => t.otp = { s.otp with rollback := s.otp.rollback + 1 } ∧
        t.mem = s.mem ∧ t.cells = s.cells ∧ t.lat = s.lat ∧ t.pending = s.pending ∧
        t.dev = { s.dev with cfg := { s.dev.cfg with fuseDue := decide (s.otp.rollback + 1 < hdrRollback s.dev.cfg.head) } }))

namespace Sys2Proof.Claims

/-- The read of a record has ended, so that the next read of the flash begins its repeats anew (R375). -/
def readEnded (s : State) : Cfg := { s.dev.cfg with tries := if s.dev.cfg.holdsBus then s.dev.cfg.tries else 0 }

end Sys2Proof.Claims

/-- A record that reads back the same takes the next number and a sector of its ring; one that reads back different is
written once more, and a second failure is counted, reported with its address and raised. The last record of a checkpoint
that was not stopped counts the checkpoint. An EVENT record that has been written marks exactly the buffered events it holds as
written, so that one that failed leaves its events to the next checkpoint. At least four erased sectors stay ready in ring 0, and no TRIM record goes into a
sector of the newest complete image while another is free. The next read of the flash begins its repeats anew (R375, R376, R427, R428,
R433, R440). Where it rests on the model's own
reading or choice: log 27 and 113. -/
def Obligations.RecordsAreWritten : Prop :=
  ∀ (s : State) (r : LRec) (rest : List LRec), s.dev.pwr.mainOn = true → s.dev.ledg.work = r :: rest →
    (rest ≠ [] → r.kind ≠ 3 → Next (.recordWritten true) s (fun t => SameStore s t ∧
      t.dev = { s.dev with cfg := readEnded s, ledg := { s.dev.ledg with
        work := rest, seq := (s.dev.ledg.seq + 1) % 2 ^ 32, ptr0 := (s.dev.ledg.ptr0 + 1) % 1024
        erased0 := Nat.max 4 (s.dev.ledg.erased0 - 1), erased1 := Nat.max 1 s.dev.ledg.erased1
        lastAddr := 0x3800000 + 4096 * s.dev.ledg.ptr0
        lastRec := recordBytes s.otp.privKey r ((s.dev.ledg.seq + 1) % 2 ^ 32)
        events := s.dev.ledg.events.map (fun e => { e with written := e.written || r.events.contains e.no }) } })) ∧
    (rest ≠ [] → r.kind = 3 → r.arg ≠ 383 → Next (.recordWritten true) s (fun t => SameStore s t ∧
      t.dev.cfg = readEnded s ∧ t.dev.ledg.lastAddr = 0x3C00000 + 4096 * s.dev.ledg.trimSector ∧ t.dev.ledg.work = rest ∧
      t.dev.ledg.curSectors = s.dev.ledg.curSectors ++ [s.dev.ledg.trimSector] ∧ t.dev.ledg.imgSectors = s.dev.ledg.imgSectors ∧
      ((∃ n, n < 1024 ∧ n ∉ s.dev.ledg.imgSectors ∧ n ∉ s.dev.ledg.curSectors) →
        s.dev.ledg.trimSector ∉ s.dev.ledg.imgSectors))) ∧
    (r.retry = false → Next (.recordWritten false) s (fun t => SameStore s t ∧
      ∃ l, t.dev = { s.dev with cfg := readEnded s, ledg := l } ∧ l.work = { r with retry := true } :: rest ∧ l.seq = s.dev.ledg.seq)) ∧
    (r.retry = true → r.kind ≠ 3 → rest ≠ [] → Next (.recordWritten false) s (fun t => SameStore s t ∧ Raises s t [122] ∧
      Sends s t [mkMsg 0xCB 0x3A 1 (0x3800000 + 4096 * s.dev.ledg.ptr0)] ∧
      t.dev.ledg.work = rest ∧ t.dev.ledg.writeFails = Nat.min 255 (s.dev.ledg.writeFails + 1) ∧ t.dev.ledg.seq = s.dev.ledg.seq ∧
      t.dev.ledg.events = s.dev.ledg.events)) ∧
    (rest = [] → r.kind ≠ 3 → s.dev.ledg.running = some otherTrigger → s.dev.ledg.waiting = none →
      Next (.recordWritten true) s (fun t => SameStore s t ∧ Raises s t [120] ∧
        t.dev.ledg.running = none ∧ t.dev.ledg.checkpoints = Nat.min 65535 (s.dev.ledg.checkpoints + 1)))

/-! ## Frame timing -/

namespace Sys2Proof.Claims

/-- A tile that takes its shadow words at a tick: not dark, with all four DRIVE flags set (R46). -/
def ready (s : State) (t : Nat) : Prop := (s.dev.tile t).dark = false ∧ (s.dev.tile t).drive = 15

/-- What a tick does to the cells and the tiles' flags (R45, R46). -/
def TickCopied (s t : State) : Prop :=
  (∀ p, ready s (tileOf p) → t.cell p = { s.cell p with active := (s.cell p).shadow }) ∧
  (∀ p, ¬ ready s (tileOf p) → t.cell p = s.cell p) ∧
  (∀ i, i < 192 → (t.dev.tile i).drive = 0) ∧
  (∀ i, i < 192 → (s.dev.tile i).dark = false → ((t.dev.tile i).repeated = true ↔ (s.dev.tile i).drive ≠ 15))

end Sys2Proof.Claims

/-- A boundary that the gates made a tick, and the boundary of the limit, is a tick: every ready tile's active words become
its shadow words and no other word changes, DRIVE flags fall, REPEATED says which tiles were not ready, the tick number
rises by one, and the frame begins anew (R45, R46, R86, R90, R103). Where it rests on the model's own reading or choice:
log 17. -/
def Obligations.TickCopiesReadyTiles : Prop :=
  ∀ (s : State) (temps : List (BitVec 12)), SMap.wf {} s.cells = true → s.running = true →
    (s.dev.frm.decision = .tick → Next (.tick temps) s (fun t =>
      TickCopied s t ∧ t.mem = s.mem ∧ t.otp = s.otp ∧ t.lat = s.lat ∧ t.pending = s.pending ∧
      t.dev.frm.tick = (s.dev.frm.tick + 1) % 2 ^ 32 ∧ t.dev.frm.lastLen = s.dev.frm.period + 1 ∧ t.dev.frm.period = 0 ∧
      t.dev.frm.begun = [] ∧ t.dev.frm.decision = .none ∧ t.dev.frm.tickAt = s.dev.now)) ∧
    (s.dev.frm.decision ≠ .none → s.dev.frm.period = 23 → Next (.limitTick temps) s (fun t =>
      TickCopied s t ∧ t.mem = s.mem ∧ t.otp = s.otp ∧ t.lat = s.lat ∧ t.pending = s.pending ∧
      t.dev.frm.tick = (s.dev.frm.tick + 1) % 2 ^ 32 ∧ t.dev.frm.lastLen = 24))

/-- A lamp alone that does not jitter makes a candidate boundary a tick exactly when the composition gate and the content
gate hold; at the limit a failing composition gate clears the DRIVE flags for a repeat of the array (R87, R88, R90). Where
it rests on the model's own reading or choice: log 17. -/
def Obligations.GatesDecideTheTick : Prop :=
  ∀ s : State, s.running = true → s.dev.frm.decision = .none → s.dev.frm.awaitSample = false → s.dev.frm.transitional = false →
    s.dev.syncRole = 0 → s.dev.test.jitter = 0 → s.dev.base ≤ s.dev.frm.period + 1 →
    (s.dev.frm.period < 23 → Next .decisionPoint s (fun t => SameStore s t ∧
      t.dev = { s.dev with frm := { s.dev.frm with
        awaitSample := false, syncOut := 0
        decision := if s.dev.compositionGate = true ∧ s.dev.contentGate (s.dev.now + 16 * s.dev.slotNow) false = true then .tick else .none } })) ∧
    (s.dev.frm.period = 23 → s.dev.compositionGate = false → Next .decisionPoint s (fun t => SameStore s t ∧
      t.dev.frm.decision = .limit ∧ t.dev.frm.repeatDue = true ∧ t.dev.arr.passes = [] ∧
      ∀ i, i < 192 → (t.dev.tile i).drive = 0)) ∧
    (s.dev.frm.period = 23 → s.dev.compositionGate = true → Next .decisionPoint s (fun t => SameStore s t ∧
      (s.dev.contentGate (s.dev.now + 16 * s.dev.slotNow) true = true → t.dev.frm.decision = .tick) ∧
      (s.dev.contentGate (s.dev.now + 16 * s.dev.slotNow) true = false → t.dev.frm.decision = .limit ∧ t.dev.frm.contentFailed = true) ∧
      t.dev = { s.dev with frm := t.dev.frm }))

namespace Sys2Proof.Claims

/-- Phase group `g` may start a period: for group 0 it is period 0 of the frame, or the boundary that comes is not decided a tick,
awaits no partner, and is not the limit (R87). -/
def MayStart (s : State) (g : Nat) : Prop :=
  g ≠ 0 ∨ s.dev.frm.periodBegun = false ∨
    (s.dev.frm.decision = .none ∧ s.dev.frm.awaitSample = false ∧ s.dev.frm.period ≠ 23)

end Sys2Proof.Claims

/-- A PWM period of a phase group starts: every cell of its tiles samples its active word and the judgement of the period
that ends and then shows that word's code and on-time, unless it is isolated or its tile is dark; no other cell changes;
its tiles owe the windows of a period anew; with group 0 the next period of the frame begins, and none begins there once the
boundary that comes is decided or awaits the partner, nor at the limit. The 120th tick in a row without a commit, while host content
is composed, brings the standalone beam and makes NO_COMMIT due, which raises event 68 (R31, R33, R35, R48, R87, R93, R306). Where it rests on the model's own reading or choice: log 58 and 94. -/
def Obligations.PeriodsSampleActiveWords : Prop :=
  (∀ (s : State) (g : Nat), SMap.wf {} s.cells = true → SMap.wf {} s.dev.diag.tiles = true → s.dev.frm.starts.length = 16 →
    s.running = true → g < 16 → MayStart s g →
    Next (.pwmPeriodStart g) s (fun t =>
      (∀ p, t.cell p = if tileOf p % 16 = g
        then { s.cell p with sampled := (s.cell p).active, judgedLast := (s.cell p).judgedNow, judgedNow := false }
        else s.cell p) ∧
      (∀ p, tileOf p % 16 = g → t.light p = if (s.cell p).isolate = true ∨ (s.dev.tile (tileOf p)).dark = true then (0, 0)
        else (bits (s.cell p).active.toNat 10 6, bits (s.cell p).active.toNat 0 10)) ∧
      t.mem = s.mem ∧ t.otp = s.otp ∧ t.lat = s.lat ∧ t.dev.frm.started g = s.dev.frm.started g + 1 ∧
      (g ≠ 0 → t.dev = { s.dev with
        frm := { s.dev.frm with starts := t.dev.frm.starts }, diag := { s.dev.diag with tiles := t.dev.diag.tiles } }) ∧
      (∀ i, i % 16 = g → (t.dev.dtile i).probed = false ∧ (t.dev.dtile i).checked = false) ∧
      (∀ i, i % 16 ≠ g → t.dev.dtile i = s.dev.dtile i) ∧
      (g = 0 → s.dev.frm.periodBegun = false → t.dev.frm.period = s.dev.frm.period ∧ t.dev.frm.periodBegun = true) ∧
      (g = 0 → s.dev.frm.periodBegun = true → t.dev.frm.period = s.dev.frm.period + 1))) ∧
  (∀ s : State, ¬ MayStart s 0 → exec (.pwmPeriodStart 0) s = .next s) ∧
  (∀ s : State, s.dev.pwr.mainOn = true → s.dev.frm.noCommitDue = true → Next .noCommit s (fun t => SameStore s t ∧ Raises s t [68] ∧
    t.dev = { s.dev with frm := { s.dev.frm with noCommitDue := false }, evt := t.dev.evt })) ∧
  (∀ (s : State) (temps : List (BitVec 12)), s.running = true → s.dev.frm.decision = .tick → s.dev.pwr.state ≠ .prepare →
    s.dev.frm.since = 119 → s.dev.frm.standalone = false → s.dev.link.carries = true → s.dev.keep.standaloneHeld = false →
    (∀ c ∈ s.dev.frm.commits, c.target ≠ s.dev.nextTick) → (∀ m, s.dev.frm.modePend = some m → m.target ≠ s.dev.nextTick) →
    Next (.tick temps) s (fun t => t.dev.frm.since = 120 ∧ t.dev.frm.standalone = true ∧ t.dev.frm.noCommitDue = true ∧
      t.dev.comp.content = .standalone))

/-- Two lamps on one tick, and in START once the timebases run. A master whose own gates hold makes the boundary a tick when SYNC_IN samples high; two
boundaries in a row that a falling edge follows in 2 µs lock it, and a missing edge unlocks it with fault LOST. A follower
takes a tick pulse as its tick, and loses lock with fault LOST when none has come by the limit; after 16 valid pulses it moves its
boundaries onto the master's, by at most 260 slots in period 0 of each frame, until it is aligned. A pulse under 40 ns, 8 cycles, is
ignored (R98, R100, R101, R102, R103, R393, R493).
Where it rests on the model's own reading or choice: log 37, 102 and 141 (the pulses of START count). -/
def Obligations.SyncPairEvents : Prop :=
  ∀ s : State, s.timebaseRuns = true →
    (s.running = true → s.dev.syncRole = 1 → s.dev.frm.locked = true → s.dev.frm.awaitSample = true →
      s.dev.test.jitter = 0 → s.dev.base ≤ s.dev.frm.period + 1 → s.dev.frm.period < 23 →
      ∀ high, Next (.syncInSample high) s (fun t => SameStore s t ∧
        t.dev = { s.dev with frm := { s.dev.frm with
          partnerReady := high, awaitSample := false, decision := if high then .tick else .none, syncOut := if high then 4 else 2 } })) ∧
    (∀ h sp delay off, h < 8 → exec (.syncInEdge h sp delay off) s = .next s) ∧
    (s.dev.syncRole = 1 → ∀ h sp delay off, 8 ≤ h → delay ≤ 400 → Next (.syncInEdge h sp delay off) s (fun t => SameStore s t ∧
      t.dev = { s.dev with frm := { s.dev.frm with
        edges := Nat.min 2 (s.dev.frm.edges + 1), locked := s.dev.frm.locked || decide (1 ≤ s.dev.frm.edges) } })) ∧
    (s.dev.syncRole = 1 → s.dev.frm.locked = true → Next .fallingEdgeMissing s (fun t => SameStore s t ∧ Raises s t [69] ∧
      t.dev.frm.locked = false ∧ t.dev.frm.partnerReady = false ∧ t.dev.frm.syncFault = 1 ∧
      t.dev.frm.syncFaults = Nat.min 255 (s.dev.frm.syncFaults + 1) ∧ t.dev = { s.dev with frm := t.dev.frm, evt := t.dev.evt })) ∧
    (s.dev.syncRole = 2 → s.dev.frm.locked = true → s.dev.base ≤ s.dev.frm.period + 1 → s.dev.frm.period < 24 →
      ∀ h sp delay off, 8 ≤ h → 3 * s.dev.slotNow ≤ h → off ≤ 400 → s.dev.spacingOk sp = true →
      Next (.syncInEdge h sp delay off) s (fun t => SameStore s t ∧
        t.dev = { s.dev with frm := { s.dev.frm with offset := Nat.min 255 delay, badEdges := 0, decision := .tick } })) ∧
    (s.running = true → s.dev.syncRole = 2 → s.dev.frm.locked = true → s.dev.frm.decision = .limit → s.dev.frm.period = 23 →
      ∀ temps, Next (.limitTick temps) s (fun t => t.dev.frm.locked = false ∧ t.dev.frm.syncFault = 1 ∧ Pends t 69)) ∧
    (s.running = true → s.dev.syncRole = 2 → s.dev.frm.locked = false → s.dev.frm.goodEdges = 16 → s.dev.frm.realign = none →
      s.dev.frm.aligned = false → ∀ off, Next (.syncRealign off) s (fun t => SameStore s t ∧
        (off % (1040 * s.dev.slot) = 0 → t.dev = { s.dev with frm := { s.dev.frm with aligned := true } }) ∧
        (off % (1040 * s.dev.slot) ≠ 0 → ∃ m : Int, t.dev = { s.dev with frm := { s.dev.frm with realign := some m } } ∧
          (m = off % (1040 * s.dev.slot) ∨ m = (off % (1040 * s.dev.slot) : Nat) - (1040 * s.dev.slot : Nat))))) ∧
    (s.dev.syncRole = 2 → s.dev.frm.locked = false → ∀ h sp delay off, 8 ≤ h → s.dev.spacingOk sp = true → s.dev.frm.aligned = false →
      Next (.syncInEdge h sp delay off) s (fun t => SameStore s t ∧
        t.dev = { s.dev with frm := { s.dev.frm with goodEdges := Nat.min 16 (s.dev.frm.goodEdges + 1) } })) ∧
    (∀ m : Int, s.running = true → s.dev.frm.realign = some m → s.dev.frm.decision = .tick → ∀ temps, Next (.tick temps) s (fun t =>
        -(260 * s.dev.slot : Int) ≤ t.dev.frm.realignNow ∧ t.dev.frm.realignNow ≤ 260 * s.dev.slot ∧
        t.dev.frm.realign = some (m - t.dev.frm.realignNow)))

/-! ## Chains and diagnostics -/

namespace Sys2Proof.Claims

/-- The pass on chain `k` of tile `t` ends, its header received as it was sent, 1,408 payloads, of the operation of its purpose. -/
def Ends (s : State) (t k : Nat) (p : Pass) : Prop :=
  s.dev.pwr.mainOn = true ∧ t < 192 ∧ k < 4 ∧ s.dev.passOn t k = some p ∧ p.header = p.sent ∧
  bits p.header.toNat 16 4 = p.purpose.op ∧ p.data.length = 1408

/-- What the chain received and the inbound trailer that arrived with it agree (R40). -/
def InboundOk (t : Nat) (p : Pass) (err : PassErr) : Prop :=
  passCrc t p.header.toNat (flipElems (p.data.reverse.map (·.toNat)) err.inb) =
    Nat.xor (passCrc t p.sent.toNat (p.data.reverse.map (·.toNat))) err.inTrailer.toNat

/-- What the chain returned and the return trailer agree (R40, R43). -/
def ReturnOk (t : Nat) (p : Pass) (err : PassErr) : Prop :=
  passCrc t p.sent.toNat (flipElems (p.captured.reverse.map (·.toNat)) err.out) =
    Nat.xor (passCrc t p.header.toNat (p.captured.reverse.map (·.toNat))) err.outTrailer.toNat

/-- Every cell of the chain becomes `f` of itself and the payload sent to it, and no other cell changes. -/
def Applies (s u : State) (t k : Nat) (p : Pass) (f : Cell → BitVec 16 → Cell) : Prop :=
  (∀ j, j < 1408 → u.cell (pixelOnChain t k j) = f (s.cell (pixelOnChain t k j)) (nth 0 p.data j)) ∧
  (∀ q, (∀ j, j < 1408 → q ≠ pixelOnChain t k j) → u.cell q = s.cell q)

/-- Layer memory, the fuses, the latches and the queue are unchanged, and the pass no longer runs. -/
def PassLeft (s u : State) (t k : Nat) : Prop :=
  u.dev.passOn t k = none ∧ u.mem = s.mem ∧ u.otp = s.otp ∧ u.lat = s.lat ∧ u.pending = s.pending

end Sys2Proof.Claims

/-- At the end of a DRIVE pass that arrives undisturbed every cell of its chain holds the payload sent to it as its shadow word, no
other cell changes, the chain's DRIVE flag is set and the pass no longer runs, whatever happens to what it returns. So does a TRIM pass
of valid masks set the shadow trim masks and the TRIM flag, an ISOLATE pass isolate the pixels of payload 1 for good, and a SAFE pass,
in START, set the safe bits. In RUN a pass whose inbound CRC fails applies nothing, is counted and reported with event 78 and message
0x02, a READ among them to be repeated on all four chains; one whose return CRC fails applies, and its statuses are not forwarded, with
message 0x03; and a good READ records the safe bits of its chain, the fourth of a tile giving the verdict, which a mismatch makes the
exclusion of the tile with message 0x07, once the KEEP clock runs (R16, R37, R38, R40, R42, R43, R45, R49, R51, R52). Where it rests on
the model's own reading or choice: log 11 and 152. -/
def Obligations.DrivePassApplies : Prop :=
  ∀ (s : State) (t k : Nat) (p : Pass) (err : PassErr), Ends s t k p →
    (err.inb = [] → err.inTrailer = 0 →
      (p.purpose = .drive → Next (.passApply t k err) s (fun u =>
        Applies s u t k p (fun c w => { c with shadow := w }) ∧
        (u.dev.tile t).drive.getLsbD k = true ∧ PassLeft s u t k)) ∧
      (p.purpose = .trim → (∀ w ∈ p.data, popcount 12 w.toNat = 10 ∧ bits w.toNat 12 4 = 0) → Next (.passApply t k err) s (fun u =>
        Applies s u t k p (fun c w => { c with shadowTrim := w.setWidth 12 }) ∧
        (u.dev.tile t).trim.getLsbD k = true ∧ (u.dev.tile t).trimDue.getLsbD k = false ∧ PassLeft s u t k)) ∧
      (p.purpose = .isolate → Next (.passApply t k err) s (fun u =>
        Applies s u t k p (fun c w => { c with isolate := c.isolate || w.getLsbD 0 }) ∧ PassLeft s u t k)) ∧
      (p.purpose = .safe → Next (.passApply t k err) s (fun u =>
        (∀ j, j < 1408 → (u.cell (pixelOnChain t k j)).safe = (nth 0 p.data j).getLsbD 0) ∧
        (∀ q, (∀ j, j < 1408 → q ≠ pixelOnChain t k j) → (u.cell q).safe = (s.cell q).safe) ∧
        (∀ q, (u.cell q).active = (s.cell q).active ∧ (u.cell q).shadow = (s.cell q).shadow ∧ (u.cell q).trim = (s.cell q).trim ∧
          (u.cell q).shadowTrim = (s.cell q).shadowTrim ∧ (u.cell q).isolate = (s.cell q).isolate) ∧
        u.mem = s.mem ∧ u.otp = s.otp ∧ u.lat = s.lat ∧ u.pending = s.pending))) ∧
    (s.dev.frm.ticked = true → ¬ InboundOk t p err → ReturnOk t p err → Next (.passApply t k err) s (fun u =>
      u.cells = s.cells ∧ PassLeft s u t k ∧ Raises s u [78] ∧ Sends s u [mkMsg t 0x02 1 (t * 4 + k)] ∧
      (u.dev.tile t).crcFail = Nat.min 255 ((s.dev.tile t).crcFail + 1) ∧ u.dev.arr.passFail = Nat.min 65535 (s.dev.arr.passFail + 1) ∧
      (u.dev.tile t).drive = (s.dev.tile t).drive ∧ (u.dev.tile t).trim = (s.dev.tile t).trim ∧
      (p.purpose = .readback → p.void = false → (u.dev.tile t).readDue = 15 ∧ (u.dev.tile t).reads = [none, none, none, none]))) ∧
    (s.dev.frm.ticked = true → InboundOk t p err → p.purpose ≠ .trim → p.purpose ≠ .readback → ¬ ReturnOk t p err →
      Next (.passApply t k err) s (fun u => PassLeft s u t k ∧ Raises s u [78] ∧ Sends s u [mkMsg t 0x03 0 (t * 4 + k)] ∧
        (u.dev.tile t).returnFail = Nat.min 255 ((s.dev.tile t).returnFail + 1) ∧
        u.dev.arr.passFail = Nat.min 65535 (s.dev.arr.passFail + 1) ∧ u.dev.diag = s.dev.diag)) ∧
    (s.dev.frm.ticked = true → p.purpose = .readback → p.void = false → InboundOk t p err → err.out = [] → err.outTrailer = 0 →
      ∀ reads, reads = setNth (s.dev.tile t).reads k (some (safeBits (p.captured.reverse.map (·.toNat)))) →
      Next (.passApply t k err) s (fun u => (∀ q, u.cell q = s.cell q) ∧ PassLeft s u t k ∧
        (reads.all Option.isSome = false → (u.dev.tile t).reads = reads ∧ (u.dev.tile t).readDue.getLsbD k = false) ∧
        (reads.all Option.isSome = true → ∃ got, got = safeCrc t (packBits (reads.flatMap (fun o => o.getD []))) ∧
          (u.dev.tile t).readback = got ∧ (u.dev.tile t).readDue = 0 ∧ (u.dev.tile t).reads = [none, none, none, none] ∧
          (u.dev.tile t).safeVerified = decide (got = s.dev.safeExpected t) ∧
          (u.dev.tile t).safeFailed = decide (got ≠ s.dev.safeExpected t) ∧
          (got ≠ s.dev.safeExpected t → mkMsg t 0x07 1 got ∈ u.dev.keep.transit ∧
            (s.dev.keeperRuns = true → (u.dev.tile t).excluded = true) ∧
            (s.dev.keeperRuns = false → u.dev.test.later = s.dev.test.later ++ [.exclude t])))))

/-- A drive pulse of a tile that conducts updates the headroom sample of the frame, which stays the lowest, of equals that of the lowest
tile and the earliest, and reports less than 180 mV with event 74; the first and every later one judges each pixel that conducts by its share of C × Iu × F for open and short; a probe judges every pixel whose turn it is, and a checker window flags the pixels of the phase that are not
driven, each once in its tile's last base period; a readback round makes every tile that is not dark owe one READ a chain. In the
service slots of that period the pixels of the probe conduct at code 4 in slots 1,024 to 1,026, those of the checker's driven set
at code 1 in slots 1,028 to 1,030, and the others are dark (R35, R52, R58, R81 to R85, R283 to R285). Where it rests on the model's
own reading or choice: log 66, 95 and 109. -/
def Obligations.WindowsAndRoundsComplete : Prop :=
  (∀ (s : State) (i vled mv : Nat) (xs : List PixSample), s.running = true → i < 192 → s.dev.isDark i = false →
    (∃ e ∈ s.cells, tileOf e.1 = i ∧ e.2.conducts = true) →
    Next (.drivePulseSample i vled mv xs) s (fun t =>
      (SMap.wf {} s.cells = true → s.dev.discards = false → s.dev.diag.stopped = false →
        ∀ p x, tileOf p = i → (s.cell p).conducts = true → xs.find? (fun x => x.idx == localOf p) = some x →
          (t.cell p).judgedNow = true ∧
          (4 * x.cur * naParts < s.dev.pulseFull p (s.cell p) → (t.cell p).status.getLsbD 0 = true) ∧
          (x.emitter < 1200 → 3 * s.dev.pulseFull p (s.cell p) ≤ 4 * x.cur * naParts → (t.cell p).status.getLsbD 1 = true)) ∧
      (s.dev.arr.sample = none → t.dev.arr.sample = some (mv / 4 * 4, i, vled)) ∧
      (∀ x, s.dev.arr.sample = some x → t.dev.arr.sample =
        some (if mv / 4 * 4 < x.1 ∨ (mv / 4 * 4 = x.1 ∧ i < x.2.1) then (mv / 4 * 4, i, vled) else x)) ∧ (mv < 180 → Pends t 74 ∧ (t.dev.tile i).lowMv.isSome = true) ∧
      t.mem = s.mem ∧ t.otp = s.otp ∧ t.lat = s.lat ∧
      (SMap.wf {} s.cells = true → ∀ p, tileOf p ≠ i → t.cell p = s.cell p))) ∧
  (∀ (s : State) (i : Nat) (xs : List PixSample), (s.dev.dtile i).probed = true → exec (.probeWindow i xs) s = .next s) ∧
  (∀ (s : State) (i : Nat) (above : List Nat), (s.dev.dtile i).checked = true → exec (.checkerWindow i above) s = .next s) ∧
  (∀ (s : State) (p n : Nat), s.windowRuns (tileOf p) = true → s.converts (tileOf p)
      (4 * (s.dev.groupPeriod (tileOf p % 16)).1 + (n - 1024) / 4) = false → (s.cell p).isolate = false → 1024 ≤ n → n < 1032 →
    (s.drive p n).1 = if n < 1027 ∧ p ∈ s.probeSet (tileOf p) then 4
      else if 1028 ≤ n ∧ n < 1031 ∧ s.checkerDrives p = true then 1 else 0) ∧
  (∀ (s : State) (i : Nat) (xs : List PixSample), s.windowRuns i = true → s.dev.discards = false → (s.dev.dtile i).probed = false →
    Next (.probeWindow i xs) s (fun t => (t.dev.dtile i).probed = true ∧ t.mem = s.mem ∧ t.otp = s.otp ∧ t.lat = s.lat ∧
      (∀ p, p ∈ s.probeTurn i → s.dev.probeSkips p = false → (t.cell p).probed = true ∧ (t.cell p).judgedNow = true) ∧
      (∀ p, tileOf p ≠ i → t.cell p = s.cell p))) ∧
  (∀ (s : State) (i : Nat) (above : List Nat), s.windowRuns i = true → s.dev.discards = false → (s.dev.dtile i).checked = false →
    Next (.checkerWindow i above) s (fun t => (t.dev.dtile i).checked = true ∧ t.mem = s.mem ∧ t.otp = s.otp ∧ t.lat = s.lat ∧
      (∀ n ∈ above, n < 5632 → checkerDriven (s.dev.ndOf i % 4) (pixelAt i n) = false → s.isIsolated (pixelAt i n) = false →
        s.dev.checkerSkips (pixelAt i n) = false → (t.cell (pixelAt i n)).status.getLsbD 2 = true) ∧
      (∀ p, tileOf p ≠ i → t.cell p = s.cell p))) ∧
  (∀ s : State, s.running = true → s.dev.arr.framesLeft = 0 → s.dev.arr.roundOn = false →
    Next .safeReadbackDue s (fun t => SameStore s t ∧ t.dev.arr = { s.dev.arr with roundOn := true, sinceRead := 0 } ∧
      (∀ i, i < 192 → (s.dev.tile i).dark = false → (t.dev.tile i).readDue = 15) ∧
      (∀ i, i < 192 → (s.dev.tile i).dark = true → t.dev.tile i = s.dev.tile i) ∧
      t.dev = { s.dev with arr := t.dev.arr, tiles := t.dev.tiles }))

/-! ## Schedule entries -/

namespace Sys2Proof.Claims

/-- Entry `i` has begun in this frame. -/
def Begun (t : State) (i : Nat) : Prop := ∃ e ∈ t.dev.frm.begun, e.1 = i

/-- Entry `i` of the schedule in force may begin with activity `act`: the lamp runs a normal frame, the entry belongs to the
mode in force, it has not begun, its START has come, its predecessors have completed, and the frame runs its base periods, unless
the entry is one of COMPOSE, CHAIN_DRIVE, CHAIN_AUX and HEALTH, which wait for predecessors (R160, R161, R163, R172). -/
def MayBegin (s : State) (i act : Nat) : Prop :=
  s.running = true ∧ s.dev.frm.transitional = false ∧ s.dev.inMode i = true ∧ (s.dev.entry i).act = act ∧
  (∀ e ∈ s.dev.frm.begun, e.1 ≠ i) ∧ (s.dev.entry i).start ≤ s.dev.now - s.dev.frm.tickAt ∧ s.dev.predsDone i = true ∧
  (act ∈ [1, 2, 3, 7] ∨ s.dev.frm.period < s.dev.base)

/-- Entry `i` has begun and completed in this frame, by `at_` cycles after its tick. -/
def Completed (s : State) (i at_ : Nat) : Prop := ∃ c, (i, some c) ∈ s.dev.frm.begun ∧ c ≤ at_

/-- The bytes that a SCAN entry reads of scan entry `e` in its engine `ce3`: at most `n`, up to the end of the entry. -/
def scanCount (s : State) (ce3 : Bool) (e n : Nat) : Nat := Nat.min n (s.dev.scanLength e - (s.dev.chk.engine ce3).done)

/-- The granules among `po` that it reads from the DRAM, of an entry in layer memory: those of which some byte is read (R246, R250). -/
def scanHits (s : State) (ce3 : Bool) (e n : Nat) (po : List Nat) : List Nat :=
  if s.dev.scanStore e || scanCount s ce3 e n == 0 then []
  else (s.dev.memc.fromDram po).filter (fun a => decide (s.dev.scanStart e + (s.dev.chk.engine ce3).done < a + 32) &&
    decide (a < s.dev.scanStart e + (s.dev.chk.engine ce3).done + scanCount s ce3 e n))

/-- The engine's CRC register after them: it begins with the entry's START as fold word (R340, R345). -/
def scanCrc (s : State) (ce3 : Bool) (e n : Nat) (flips : List (Nat × Byte)) : Nat :=
  (s.dev.scanPar ce3).run
    (if (s.dev.chk.engine ce3).done = 0 then (s.dev.scanPar ce3).begin (s.dev.scanStart e) else (s.dev.chk.engine ce3).crc)
    (s.scanRead e (s.dev.chk.engine ce3).done (scanCount s ce3 e n) flips)

/-- The masks of run `r` of a LEDGER entry: eight of those that TRIM passes handed over, the last run perhaps fewer (R161). -/
def runOf (es : SMap (BitVec 12)) (r : Nat) : SMap (BitVec 12) := (es.drop (8 * r)).take 8

/-- Where it lies in the cache. -/
def runAddr (es : SMap (BitVec 12)) (r : Nat) : Nat := match runOf es r with | e :: _ => cacheAddr e.1 | [] => 0

/-- Run `r` of the `n` that the entry packs holds the byte at `a`. -/
def Packs (es : SMap (BitVec 12)) (n r a : Nat) : Prop :=
  r < n ∧ 8 * r < es.length ∧ runAddr es r ≤ a ∧ a < runAddr es r + 7

/-- What the entry leaves in layer memory: the last run that holds a byte gives it, eight masks in seven bytes; another byte of a
granule that a run touches goes back as it is read, behind the queued writes; every other byte is as it was (R161, R246, R250). -/
def Packed (s t : State) (n : Nat) (es : SMap (BitVec 12)) : Prop :=
  (∀ a r, Packs es n r a → (∀ r', r < r' → ¬ Packs es n r' a) →
    t.mem.read a = (pack7 ((runOf es r).map (fun x => maskIndex x.2.toNat)))[a - runAddr es r]?) ∧
  (∀ a, (∀ r, ¬ Packs es n r a) → t.mem.read a =
    if a / 32 * 32 ∈ packReads n es then some (s.memNow.byte s.dev.memc.draws a) else s.mem.read a)

/-- The engine stands at the entry after its current one, in a new round after its last (R345). -/
def ScanMovedOn (s t : State) (ce3 : Bool) : Prop :=
  (t.dev.chk.engine ce3).done = 0 ∧ (t.dev.chk.engine ce3).rescan = false ∧ (t.dev.chk.engine ce3).poisoned = false ∧
  (t.dev.chk.engine ce3).pos =
    (if (s.dev.chk.engine ce3).pos + 1 < (s.dev.ownEntries ce3).length then (s.dev.chk.engine ce3).pos + 1 else 0)

/-- A channel once a REFRESH entry has issued `r` refreshes at most from its debt, of 36 cycles each (R161, R252). -/
def refreshed (now r : Nat) (x : Chan) : Chan :=
  { x with
    debt := x.debt - Nat.min x.debt r
    refreshUntil := if Nat.min x.debt r = 0 then x.refreshUntil else Nat.max now x.refreshUntil + 36 * Nat.min x.debt r }

/-- Between these two codes of MR4 the refresh rate changes, to double or back (R251). -/
def rateChanges (old new : Nat) : Bool := (decide (old < 4) && new == 4) || (old == 4 && decide (new < 4))

/-- On-time of a request `l` at current code `c` before rounding: the slots that c carries of it, l × 64,449 / (1,048,575 × c). -/
def slotsOf (l c : Nat) : Nat := l * 64449 / (1048575 * c)

/-- What remains of it, in 1/4,096 of a slot. -/
def f12Of (l c : Nat) : Nat := (l * 64449 - slotsOf l c * (1048575 * c)) * 4096 / (1048575 * c)

/-- The on-time as rounded with a dither threshold. -/
def onTimeOf (l c thr : Nat) : Nat := slotsOf l c + if thr < f12Of l c then 1 else 0

/-- The completion that the schedule holds for entry `i` of this frame, once it has begun. -/
def BeganAs (s : State) (i : Nat) (fin : Option Nat) : Prop := s.dev.frm.begun.find? (fun e => e.1 == i) = some (i, fin)

/-- Entry `i` is idle by the rules: there is no DRAM to refresh or to retrain, or the engine of a SCAN entry has no entry of its own
(R177, R258, R345). -/
def Idle (s : State) (i : Nat) : Prop :=
  (((s.dev.entry i).act = 4 ∨ (s.dev.entry i).act = 8) ∧ s.dev.memc.dramLess = true) ∨
    ((s.dev.entry i).act = 6 ∧ s.dev.ownEntries (bit (s.dev.entry i).operand 24) = [])

/-- Entry `i` has not begun, and nothing was left for it to do: no chain of a CHAIN_AUX entry's row needs a pass, or no channel owes a
refresh of REFRESH (R162, R172). -/
def NothingToDo (s : State) (i : Nat) : Prop :=
  (∀ e ∈ s.dev.frm.begun, e.1 ≠ i) ∧
  (((s.dev.entry i).act = 3 ∧ ∀ x k, x < 192 → x / 24 = bits (s.dev.entry i).operand 0 3 → k < 4 → s.dev.isDark x = false →
      s.dev.auxNeed x k = none) ∨
    ((s.dev.entry i).act = 4 ∧ ∀ x ∈ s.dev.memc.chans, Nat.min x.debt (bits (s.dev.entry i).operand 0 4) = 0))

/-- Entry `i` has not missed its deadline: none of its passes was stopped in a tile that became dark, and it has completed by then or
had nothing to do (R172, log 106). -/
def OnTime (s : State) (i : Nat) : Prop :=
  Idle s i ∨ (s.dev.frm.stopped.contains i = false ∧
    ((∃ c, BeganAs s i (some c) ∧ c ≤ (s.dev.entry i).deadline) ∨ NothingToDo s i))

/-- The schedule monitor judges entry `i` at its deadline: once a frame, in a normal frame of the mode in force, and in a takeover
frame none that works on the frame (R96, R172, R174). -/
def Judges (s : State) (i : Nat) : Prop :=
  s.running = true ∧ s.dev.frm.transitional = false ∧ s.dev.inMode i = true ∧ s.dev.frm.judged.contains i = false ∧
  (s.dev.frm.suspended = false ∨ (s.dev.entry i).act ∉ [1, 2, 3, 7])

/-- The frame timing once entry `i` is judged with slack `x`: the least slack counts COMPOSE and CHAIN_DRIVE entries (R176). -/
def judgedWith (s : State) (i x : Nat) : Sys2Proof.Machine.Frm :=
  { s.dev.frm with
    judged := s.dev.frm.judged ++ [i]
    slackNow := if (s.dev.entry i).act ∈ [1, 2] then some (match s.dev.frm.slackNow with | some y => Nat.min y x | none => x)
      else s.dev.frm.slackNow }

end Sys2Proof.Claims

namespace Sys2Proof.Claims

/-- What the start of a pass of purpose `pu` on chain `k` of tile `x` comes to: the pass with its payloads runs; where the tile controller
refuses the header as it is received, none does, and the refusal is counted and reported, of a READ to be repeated on all four chains
(R41, R51, R454). -/
def PassStarts (s t : State) (x k : Nat) (pu : Purpose) (data : List (BitVec 16)) (flip : BitVec 20) : Prop :=
  (s.dev.refuses k (passHeader pu.op k pu.sel s.dev.nextTick ^^^ flip).toNat = false →
    ∃ p, t.dev.passOn x k = some p ∧ p.purpose = pu ∧ p.data = data) ∧
  (s.dev.refuses k (passHeader pu.op k pu.sel s.dev.nextTick ^^^ flip).toNat = true →
    t.dev.passOn x k = none ∧ mkMsg x 0x01 1 (x * 4 + k) ∈ t.dev.keep.transit ∧ Pends t 78 ∧
    (pu = .readback → (t.dev.tile x).readDue = 15 ∧ (t.dev.tile x).reads = [none, none, none, none]))

/-- Chain `k` of tile `x` of row `ty` may run a pass: the tile is not dark, and none runs (R44, R306). -/
def MayPass (s : State) (ty x k : Nat) : Prop :=
  x < 192 ∧ x / 24 = ty ∧ k < 4 ∧ s.dev.isDark x = false ∧ s.dev.passOn x k = none

/-- The drive words of a chain as stage 7 passes them, an uncorrectable word of the back buffer being read as 0x0000 (R74, R106). -/
def loadWords (s : State) (bb : List BbufErr) (x k : Nat) : List (BitVec 16) :=
  (List.range 1408).map (fun j => if bb.any (fun e => e.bad && e.p == pixelOnChain x k j) then 0
    else BitVec.ofNat 16 (s.dev.stage7 (pixelOnChain x k j)))

/-- The errors of the back buffer that loading row `ty` finds. -/
def rowErrors (bb : List BbufErr) (ty : Nat) (bad : Bool) : List BbufErr :=
  bb.filter (fun e => decide (e.p < nPixels) && tileOf e.p / 24 == ty && e.bad == bad)

/-- Row `ty` is loaded: a DRIVE pass starts on every chain that may run one, and on no other row; each uncorrectable word is counted and
reported, each corrected one counted with event 56 (R106, R161). -/
def RowLoaded (s t : State) (ty : Nat) (hdr : List HdrErr) (bb : List BbufErr) : Prop :=
  t.dev.comp.loaded.getLsbD ty = true ∧
  (∀ x k, MayPass s ty x k → PassStarts s t x k .drive (loadWords s bb x k) (hdrFlip hdr x k)) ∧
  (∀ x k, x / 24 ≠ ty → t.dev.passOn x k = s.dev.passOn x k) ∧
  (∀ e ∈ rowErrors bb ty true, mkMsg 0xCE 0x17 1 e.p ∈ t.dev.keep.transit) ∧
  (rowErrors bb ty true ≠ [] →
    t.dev.eng.bbUncorrectable = Nat.min 255 (s.dev.eng.bbUncorrectable + (rowErrors bb ty true).length)) ∧
  (rowErrors bb ty false ≠ [] → Pends t 56 ∧
    t.dev.eng.bbCorrected = Nat.min 65535 (s.dev.eng.bbCorrected + (rowErrors bb ty false).length)) ∧
  t.mem = s.mem ∧ t.otp = s.otp ∧ t.lat = s.lat ∧ (∀ p, (t.cell p).shadow = (s.cell p).shadow ∧ (t.cell p).active = (s.cell p).active)

/-- The payloads of an auxiliary pass (R38, R162). -/
def auxData (s : State) (x k : Nat) : Purpose → List (BitVec 16)
  | .isolate => s.dev.isolateData x k
  | .trim => s.trimData x k
  | _ => readData

end Sys2Proof.Claims

/-- What COMPOSE makes of a request: the current code is the knee at or below it, and above it the smallest code that carries
the request; the on-time is what the code carries of it, raised by one slot when its remainder exceeds the dither threshold; and the
drive word is 0 exactly when that on-time is 0, whatever the code, and otherwise the code with the on-time of 1 to 1,023 slots (R61,
R62, R63, R64). -/
def Obligations.RequestSplitsAtKnee : Prop :=
  ∀ l knee thr : Nat, l ≤ fullScale → 4 ≤ knee → knee ≤ 32 →
    (l * 64449 ≤ knee * 1023 * fullScale → currentCode knee l = knee) ∧
    (knee * 1023 * fullScale < l * 64449 → l * 64449 ≤ currentCode knee l * 1023 * fullScale ∧
      ∀ c, l * 64449 ≤ c * 1023 * fullScale → currentCode knee l ≤ c) ∧
    currentCode knee l ≤ 63 ∧
    onTimeOf l (currentCode knee l) thr ≤ 1023 ∧
    (driveWord l knee thr = 0 ↔ onTimeOf l (currentCode knee l) thr = 0) ∧
    (onTimeOf l (currentCode knee l) thr ≠ 0 →
      driveWord l knee thr = currentCode knee l * 1024 + onTimeOf l (currentCode knee l) thr)

/-- COMPOSE composes the batches that its entry names, in a frame that has content and an engine in control, when every
batch before them is composed; a rebuild composes its batches without an entry. Cells, layer memory and fuses stay as they
are. An entry before its START, or a COMPOSE entry whose predecessor has not completed, does nothing (R105, R160, R163, R174). Where
it rests on the model's own reading or choice: log 96. -/
def Obligations.ComposeAddsBatches : Prop :=
  ∀ (s : State) (doneAt : Nat) (po co fetched : List Nat),
    (∀ i, MayBegin s i 1 → s.dev.frm.suspended = false →
      s.dev.mayCompose (bits (s.dev.entry i).operand 0 7) (bits (s.dev.entry i).operand 8 7) = true →
      Next (.compose (.entry i) doneAt po co fetched) s (fun t => SameStore s t ∧ Begun t i ∧
        (∀ b, b < 88 → t.dev.comp.batches.getLsbD b = (s.dev.comp.batches.getLsbD b ||
          (decide (bits (s.dev.entry i).operand 0 7 ≤ b) &&
            decide (b < bits (s.dev.entry i).operand 0 7 + bits (s.dev.entry i).operand 8 7)))) ∧
        t.dev.frm = { s.dev.frm with begun := s.dev.frm.begun ++ [(i, some doneAt)] })) ∧
    (∀ i, s.dev.now - s.dev.frm.tickAt < (s.dev.entry i).start → exec (.compose (.entry i) doneAt po co fetched) s = .next s) ∧
    (∀ i j, j < i → s.dev.inMode j = true → (s.dev.entry j).act = 1 →
      (∀ k, j < k → k < i → (s.dev.entry k).act ≠ 1) → ¬ Completed s j (s.dev.now - s.dev.frm.tickAt) →
      exec (.compose (.entry i) doneAt po co fetched) s = .next s) ∧
    (∀ b0 n, s.running = true → s.dev.chg.rebuilding = true → s.dev.mayCompose b0 n = true →
      Next (.compose (.rebuild b0 n) doneAt po co fetched) s (fun t => SameStore s t ∧
        (∀ b, b < 88 → t.dev.comp.batches.getLsbD b = (s.dev.comp.batches.getLsbD b || (decide (b0 ≤ b) && decide (b < b0 + n)))) ∧
        t.dev.frm = s.dev.frm))

/-- CHAIN_DRIVE starts a DRIVE pass with the drive words of the back buffer on every chain of its tile row that is not dark
and idle, and CHAIN_AUX an auxiliary pass, ISOLATE, READ or TRIM, on every chain that needs one; no pass starts on another row. In a
rebuild both run without their entries, CHAIN_AUX chain by chain after the DRIVE pass. A header that the tile controller refuses starts
no pass, with event 78 and message 0x01; an error of the back buffer is counted, and an uncorrectable word loaded as 0x0000; and a tick
cuts the passes that still run, each counted by its tile and reported with event 78 and message 0x04 (R41, R44, R74, R106, R161, R162, R174, R454). Where it rests on
the model's own reading or choice: log 96. -/
def Obligations.ChainEntriesStartPasses : Prop :=
  ∀ (s : State) (i : Nat),
    (∀ hdr bb, MayBegin s i 2 → s.dev.frm.suspended = false → s.dev.mayLoad (bits (s.dev.entry i).operand 0 3) = true →
      Next (.chainDrive (.entry i) hdr bb) s (fun t => Begun t i ∧ RowLoaded s t (bits (s.dev.entry i).operand 0 3) hdr bb)) ∧
    (∀ ty n hdr bb, s.running = true → s.dev.frm.suspended = true → s.dev.mayLoad ty = true →
      Next (.chainDrive (.rebuild ty n) hdr bb) s (fun t => RowLoaded s t ty hdr bb)) ∧
    (∀ hdr, MayBegin s i 3 → s.dev.frm.suspended = false →
      Next (.chainAux (.entry i) hdr) s (fun t => Begun t i ∧
        (∀ x k pu, MayPass s (bits (s.dev.entry i).operand 0 3) x k → s.dev.auxNeed x k = some pu →
          (∀ k', k' < k → hdrFlip hdr x k' = 0) → PassStarts s t x k pu (auxData s x k pu) (hdrFlip hdr x k)) ∧
        (∀ x k, x / 24 ≠ bits (s.dev.entry i).operand 0 3 → t.dev.passOn x k = s.dev.passOn x k) ∧
        t.mem = s.mem ∧ t.otp = s.otp ∧ t.lat = s.lat ∧ (∀ p, (t.cell p).trim = (s.cell p).trim ∧ (t.cell p).active = (s.cell p).active))) ∧
    (∀ x k hdr, s.running = true → s.dev.frm.suspended = true → x < 192 → k < 4 → (s.dev.tile x).drive.getLsbD k = true →
      x * 4 + k ∉ s.dev.frm.auxDone →
      Next (.chainAux (.rebuild x k) hdr) s (fun t => t.dev.frm.auxDone = s.dev.frm.auxDone ++ [x * 4 + k] ∧
        (∀ pu, MayPass s (x / 24) x k → s.dev.auxNeed x k = some pu → PassStarts s t x k pu (auxData s x k pu) (hdrFlip hdr x k)) ∧
        (∀ y l, y ≠ x ∨ l ≠ k → (t.dev.passOn y l).isSome = (s.dev.passOn y l).isSome) ∧
        t.mem = s.mem ∧ t.otp = s.otp ∧ t.lat = s.lat ∧ (∀ p, (t.cell p).trim = (s.cell p).trim ∧ (t.cell p).active = (s.cell p).active))) ∧
    (∀ temps, s.running = true → s.dev.frm.decision = .tick → Next (.tick temps) s (fun t => t.dev.arr.passes = [] ∧
      (∀ p ∈ s.dev.arr.passes, mkMsg p.tile 0x04 0 (p.tile * 4 + p.chain) ∈ t.dev.keep.transit ∧ Pends t 78 ∧
        (t.dev.tile p.tile).cut = Nat.min 255 ((s.dev.tile p.tile).cut + s.dev.arr.passes.countP (fun q => q.tile == p.tile)))))

/-- REFRESH issues up to R refreshes a channel, each of 180 ns, and takes them from the debt; the first of a frame reads MR4 of both
channels, whose change between the normal and the double rate is event 46, and a code from 5 up event 47 with message 0x18. RETRAIN holds both channels until it
is done and clears the flag where nothing drifted or centring passes, and sets it where centring fails, with event 44 and message 0x1B, and a HEALTH entry in DRAM-less mode makes the map invalid; each is recorded as begun with its completion
(R161, R251, R252, R255, R258). Where it rests on the model's own reading or choice: log 54, 55 and 96. -/
def Obligations.MemoryEntriesComplete : Prop :=
  ∀ (s : State) (i doneAt : Nat),
    (∀ m0 m1 : BitVec 3, MayBegin s i 4 → s.dev.dramOn = true → s.dev.memc.mr4Read = true →
      Next (.refresh i doneAt m0 m1) s (fun t => SameStore s t ∧
        t.dev = { s.dev with
          frm := { s.dev.frm with begun := s.dev.frm.begun ++ [(i, some doneAt)] }
          memc := { s.dev.memc with
            chans := s.dev.memc.chans.map (refreshed s.dev.now (bits (s.dev.entry i).operand 0 4)) } })) ∧
    (∀ (m0 m1 : BitVec 3) (a b : Chan), MayBegin s i 4 → s.dev.dramOn = true → s.dev.memc.mr4Read = false →
      s.dev.memc.chans = [a, b] →
      Next (.refresh i doneAt m0 m1) s (fun t => SameStore s t ∧
        Raises s t ((if rateChanges a.mr4 m0.toNat || rateChanges b.mr4 m1.toNat then [46] else []) ++
          (if 5 ≤ m0.toNat ∨ 5 ≤ m1.toNat then [47] else [])) ∧
        Sends s t ((if 5 ≤ m0.toNat then [mkMsg 0xC4 0x18 1 m0.toNat] else []) ++
          (if 5 ≤ m1.toNat then [mkMsg 0xC4 0x18 1 m1.toNat] else [])) ∧
        t.dev = { s.dev with
          frm := { s.dev.frm with begun := s.dev.frm.begun ++ [(i, some doneAt)] }
          memc := { s.dev.memc with
            mr4Read := true
            chans := [{ refreshed s.dev.now (bits (s.dev.entry i).operand 0 4) a with mr4 := m0.toNat },
              { refreshed s.dev.now (bits (s.dev.entry i).operand 0 4) b with mr4 := m1.toNat }] }
          evt := t.dev.evt, keep := t.dev.keep })) ∧
    (MayBegin s i 8 → s.dev.dramOn = true →
      (∀ drifted pass, drifted = false ∨ pass = true → Next (.retrain i doneAt drifted pass) s (fun t => SameStore s t ∧ t.dev.memc = { s.dev.memc with
          flagged := false, chans := s.dev.memc.chans.map (fun x => { x with retrainUntil := s.dev.frm.tickAt + doneAt }) } ∧
        t.dev = { s.dev with
          frm := { s.dev.frm with begun := s.dev.frm.begun ++ [(i, some doneAt)] }, memc := t.dev.memc })) ∧
      Next (.retrain i doneAt true false) s (fun t => SameStore s t ∧ Raises s t [44] ∧ Sends s t [mkMsg 0xC4 0x1B 1 0] ∧
        t.dev.memc = { s.dev.memc with
          flagged := true, retrainFails := Nat.min 255 (s.dev.memc.retrainFails + 1)
          chans := s.dev.memc.chans.map (fun x => { x with retrainUntil := s.dev.frm.tickAt + doneAt }) })) ∧
    (∀ po co, MayBegin s i 7 → s.dev.diag.stopped = true → s.dev.memc.dramLess = true →
      Next (.health i doneAt po co) s (fun t => SameStore s t ∧
        t.dev = { s.dev with
          frm := { s.dev.frm with begun := s.dev.frm.begun ++ [(i, some doneAt)] }
          diag := { s.dev.diag with mapValid := false } })) ∧
    (∀ po co, MayBegin s i 7 → s.dev.memc.dramLess = false →
      Next (.health i doneAt po co) s (fun t => t.dev.diag.mapValid = true ∧ t.cells = s.cells ∧ t.otp = s.otp ∧ t.lat = s.lat ∧
        (∀ a, a < 0x36000000 ∨ 0x36000000 + nPixels ≤ a → t.mem.read a = s.mem.read a) ∧
        (∀ a, 0x36000000 ≤ a → a < 0x36000000 + nPixels → (t.mem.read a).isSome = true)))

/-- A LEDGER entry that may begin completes whatever it reads: it packs the next masks that TRIM passes handed over into the cache,
eight in seven bytes, and stores nothing but the granules that they touch, whose other bytes go back as they are read; its reads are
counted, those that queued writes answer apart; with a
granule of the cache read poisoned from the DRAM the pending image is abandoned, and in DRAM-less mode it only begins. A SCAN entry that may begin completes whatever it reads: it carries the
CRC of its engine's entry on over the bytes it reads, and at the end of the entry the result is judged in the order of R347 against
the two copies; without an entry to visit it only begins, and an entry that is skipped is counted (R161, R250, R257, R340, R345,
R346, R347, R432). Where it rests on the model's own reading or choice: log 29, 59, 96, 115 and 159. -/
def Obligations.LedgerAndScanEntriesComplete : Prop :=
  ∀ (s : State) (i doneAt : Nat),
    (∀ po co, MayBegin s i 5 → s.dev.memc.dramLess = true →
      Next (.ledger i doneAt po co) s (fun t => SameStore s t ∧
        t.dev = { s.dev with frm := { s.dev.frm with begun := s.dev.frm.begun ++ [(i, some doneAt)] } })) ∧
    (∀ po co, MayBegin s i 5 → s.dev.memc.dramLess = false →
      Next (.ledger i doneAt po co) s (fun t => t.pending = s.pending ∧ t.cells = s.cells ∧ t.otp = s.otp ∧ t.lat = s.lat ∧
        Begun t i ∧ t.dev.ledg.toPack = s.dev.ledg.toPack.drop (8 * (bits (s.dev.entry i).operand 0 20 / 7)) ∧
        (∀ a ∈ po, s.dev.memc.forwards a = false → cachePart 0 ≤ a → a < cachePart 384 →
          t.dev.ledg.image = none ∧ t.dev.ledg.writing = none) ∧
        ((∀ a ∈ po ++ co, a < cachePart 0 ∨ cachePart 384 ≤ a) → t.dev = { s.dev with
          frm := { s.dev.frm with begun := s.dev.frm.begun ++ [(i, some doneAt)] }
          ledg := { s.dev.ledg with toPack := t.dev.ledg.toPack }
          memc := { s.dev.memc with chans := t.dev.memc.chans, forwarded := t.dev.memc.forwarded, reads := t.dev.memc.reads } } ∧
          ∀ ps fwd, ps = packReads (bits (s.dev.entry i).operand 0 20 / 7) s.dev.ledg.toPack → fwd = ps.countP s.dev.memc.forwards →
            t.dev.memc.reads = s.dev.memc.reads + (ps.length - fwd) ∧
            (fwd ≠ 0 → t.dev.memc.forwarded = Nat.min 65535 (s.dev.memc.forwarded + fwd))) ∧
        (bits (s.dev.entry i).operand 0 20 < 7 → t.mem = s.mem) ∧
        ((∀ e ∈ s.dev.ledg.toPack, cacheAddr e.1 + 38 ≤ memTop) →
          Packed s t (bits (s.dev.entry i).operand 0 20 / 7) s.dev.ledg.toPack))) ∧
    (∀ flips po co, MayBegin s i 6 → (s.dev.ownEntries (bit (s.dev.entry i).operand 24)).length ≤
        (s.dev.chk.engine (bit (s.dev.entry i).operand 24)).pos →
      Next (.scan i doneAt flips po co) s (fun t => SameStore s t ∧
        t.dev = { s.dev with frm := { s.dev.frm with begun := s.dev.frm.begun ++ [(i, some doneAt)] } })) ∧
    (∀ flips po co e, MayBegin s i 6 →
      (s.dev.ownEntries (bit (s.dev.entry i).operand 24))[(s.dev.chk.engine (bit (s.dev.entry i).operand 24)).pos]? = some e →
      s.dev.scanSkips e = true →
      Next (.scan i doneAt flips po co) s (fun t => SameStore s t ∧
        t.dev.chk.skipped = Nat.min 255 (s.dev.chk.skipped + 1) ∧ t.dev.chk.lastEntry = e ∧ t.dev.chk.lastVerdict = 5 ∧
        t.dev.chk.lastResult = 0 ∧ (s.dev.chk.skipped = 0 → Pends t 108) ∧ t.dev.keep = s.dev.keep)) ∧
    (∀ flips po co e g ce3 n, MayBegin s i 6 → ce3 = bit (s.dev.entry i).operand 24 → n = bits (s.dev.entry i).operand 0 20 →
      g = s.dev.chk.engine ce3 → (s.dev.ownEntries ce3)[g.pos]? = some e → s.dev.scanSkips e = false →
      (g.done + n < s.dev.scanLength e →
        Next (.scan i doneAt flips po co) s (fun t => SameStore s t ∧ Begun t i ∧
          t.dev.chk.engine ce3 = { g with
            done := g.done + n, crc := scanCrc s ce3 e n flips
            poisoned := g.poisoned || decide (scanHits s ce3 e n po ≠ []) } ∧
          (s.dev.memc.dramLess = false → s.dev.scanStore e = false → ∀ lo hi, lo = s.dev.scanStart e + g.done → hi = lo + scanCount s ce3 e n →
            lo < hi → t.dev.memc.reads = s.dev.memc.reads + (granulesIn lo hi - s.dev.memc.forwardsIn lo hi)) ∧
          (scanHits s ce3 e n po = [] → t.dev.keep = s.dev.keep ∧ (scanHits s ce3 e n co = [] → t.dev.evt = s.dev.evt)))) ∧
      (∀ a b r, s.dev.scanLength e ≤ g.done + n → a = nth 0 s.dev.chk.expA e → b = nth 0 s.dev.chk.expB e →
        r = (s.dev.scanPar ce3).result (scanCrc s ce3 e n flips) →
        (g.poisoned = true ∨ scanHits s ce3 e n po ≠ [] →
          Next (.scan i doneAt flips po co) s (fun t => SameStore s t ∧ Begun t i ∧ ScanMovedOn s t ce3 ∧ Pends t 107 ∧
            t.dev.chk.poisonedCnt = Nat.min 255 (s.dev.chk.poisonedCnt + 1) ∧ t.dev.chk.lastVerdict = 4)) ∧
        (g.poisoned = false → scanHits s ce3 e n po = [] →
          (a ≠ b ∨ (r = a ∧ r ≠ b) ∨ (r ≠ a ∧ r = b) →
            Next (.scan i doneAt flips po co) s (fun t => SameStore s t ∧ Begun t i ∧ ScanMovedOn s t ce3 ∧ Pends t 105 ∧
              t.dev.chk.value = Nat.min 65535 (s.dev.chk.value + 1) ∧ t.dev.chk.lastVerdict = 2 ∧ t.dev.chk.lastResult = r)) ∧
          (r = a → r = b → g.rescan = false →
            Next (.scan i doneAt flips po co) s (fun t => SameStore s t ∧ Begun t i ∧ ScanMovedOn s t ce3 ∧
              t.dev.keep = s.dev.keep ∧ t.dev.chk.lastVerdict = s.dev.chk.lastVerdict)) ∧
          (r = a → r = b → g.rescan = true →
            Next (.scan i doneAt flips po co) s (fun t => SameStore s t ∧ Begun t i ∧ ScanMovedOn s t ce3 ∧ Pends t 106 ∧
              t.dev.keep = s.dev.keep ∧ t.dev.chk.transient = Nat.min 65535 (s.dev.chk.transient + 1) ∧
              t.dev.chk.lastVerdict = 3)) ∧
          (a = b → r ≠ a → g.rescan = false →
            Next (.scan i doneAt flips po co) s (fun t => SameStore s t ∧ Begun t i ∧
              t.dev.chk.engine ce3 = { g with done := 0, crc := 0, rescan := true, poisoned := false } ∧
              (scanHits s ce3 e n co = [] → t.dev.evt = s.dev.evt) ∧ t.dev.keep = s.dev.keep)) ∧
          (a = b → r ≠ a → g.rescan = true →
            Next (.scan i doneAt flips po co) s (fun t => SameStore s t ∧ Begun t i ∧ ScanMovedOn s t ce3 ∧ Pends t 104 ∧
              t.dev.chk.data = Nat.min 65535 (s.dev.chk.data + 1) ∧ t.dev.chk.lastVerdict = 1 ∧ t.dev.chk.lastResult = r)))))

/-- At its deadline an entry of any activity has missed unless it has completed by then or had nothing to do: a COMPOSE entry, a chain
entry, a HEALTH, LEDGER, SCAN or RETRAIN entry that ends later or has not begun, a REFRESH entry that has refreshes to issue, and a
chain entry one of whose passes was stopped in a tile that became dark. An idle entry has not: REFRESH and RETRAIN without DRAM, SCAN
of an engine without entries. A miss is counted, recorded with its activity and tick, raised with event 62, and the first of the frame sends SLOT_MISS; it stands for
slack 0. An entry on time changes the least slack alone. Each entry is judged once a frame, and in a takeover frame no entry that
works on the frame (R172, R173, R174, R176, R258, R345). Where it rests on the model's own reading or choice: log 96 and 106. -/
def Obligations.DeadlinesAreJudged : Prop :=
  ∀ (s : State) (i : Nat),
    (Judges s i → ¬ OnTime s i → Next (.entryDeadline i) s (fun t => SameStore s t ∧ Raises s t [62] ∧
      Sends s t (if s.dev.frm.missSent then [] else [mkMsg 0xCD 0x15 1 (s.dev.frm.mode * 4096 + i)]) ∧
      t.dev.frm = { judgedWith s i 0 with
        misses := Nat.min 65535 (s.dev.frm.misses + 1), missEntry := i, missAct := (s.dev.entry i).act % 16
        missTick := s.dev.frm.tick, missSent := true } ∧
      t.dev = { s.dev with frm := t.dev.frm, evt := t.dev.evt, keep := t.dev.keep })) ∧
    (∀ c, Judges s i → BeganAs s i (some c) → c ≤ (s.dev.entry i).deadline → s.dev.frm.stopped.contains i = false → Next (.entryDeadline i) s (fun t => SameStore s t ∧
      t.dev = { s.dev with frm := judgedWith s i ((s.dev.entry i).deadline - c) })) ∧
    (Judges s i → Idle s i ∨ (s.dev.frm.stopped.contains i = false ∧ NothingToDo s i) → Next (.entryDeadline i) s (fun t => SameStore s t ∧
      t.dev = { s.dev with frm := { s.dev.frm with judged := s.dev.frm.judged ++ [i] } })) ∧
    (¬ Judges s i → exec (.entryDeadline i) s = .next s)

/-! ## Calibration -/

namespace Sys2Proof.Claims

/-- The lower median of a list: the value at position (n − 1) / 2 of its ascending order (R268). -/
def IsLowerMedian (l : List Nat) (x : Nat) : Prop :=
  x ∈ l ∧ l.countP (fun y => decide (y < x)) ≤ (l.length - 1) / 2 ∧ (l.length - 1) / 2 < l.countP (fun y => decide (y ≤ x))

/-- Tile `i` has too few measured pixels at the end of pass 3: it is skipped, unless its sweep was discarded and it may still measure
(R267, log 131). -/
def skipsSweep (s : State) (i : Nat) : Bool :=
  !s.dev.isDark i && decide ((s.dev.tileMeans i).length < 2816) &&
    !((s.dev.calTile i).aborted && decide (2816 ≤ s.dev.eligibleCount i))

/-- Candidate conversion `c` of tile `i` serves candidate `x`, whose mean in passes 0 to 3 is `m` (R264, R268). -/
def Serves (s : State) (i c m : Nat) (x : Cand) : Prop :=
  s.dev.base < c ∧ s.dev.trims i = true ∧ s.dev.candAt i (c - s.dev.base - 1) = some x ∧
  SMap.get none (s.dev.calTile i).m x.pixel = some m

/-- Mask `k` may be chosen for it: the step from `m` is at most 0.08 %, unless the sweep settles (R269, R272). -/
def Permitted (s : State) (codes : List Nat) (m k : Nat) : Prop :=
  k ∈ masks10 ∧ (s.dev.cal.settle ≠ 0 ∨ absDiff (maskEst codes k) m * 10000 ≤ 8 * m)

/-- The candidate in place `j` of tile `i`. -/
def place (t : State) (i j : Nat) : Cand := nth freePlace (t.dev.calTile i).cands j

/-- The tiles that take part in T_ARR. -/
def partaking (t : State) : List Nat := (List.range 192).filter t.dev.partakes

/-- The normalised median of tile `a` is below that of tile `b`; `le` admits equals. -/
def lower (t : State) (le : Bool) (a b : Nat) : Bool :=
  decide ((t.dev.calTile a).median * t.dev.iuNa b < (t.dev.calTile b).median * t.dev.iuNa a) ||
    (le && decide ((t.dev.calTile a).median * t.dev.iuNa b = (t.dev.calTile b).median * t.dev.iuNa a))

/-- T_ARR is the lower median of the normalised medians, that of tile `j`, and every reference target follows it (R268). -/
def TargetsFrom (t : State) (j : Nat) : Prop :=
  j ∈ partaking t ∧
  (partaking t).countP (fun i => lower t false i j) ≤ ((partaking t).length - 1) / 2 ∧
  ((partaking t).length - 1) / 2 < (partaking t).countP (fun i => lower t true i j) ∧
  t.dev.cal.tArrNow = (t.dev.calTile j).median * 500 / t.dev.iuNa j ∧
  ∀ i ∈ partaking t, (t.dev.calTile i).rho = ((t.dev.calTile j).median * t.dev.iuNa i, t.dev.iuNa j * (t.dev.calTile i).median)

end Sys2Proof.Claims

/-- In its period of the frame, a pass conversion of passes 0 to 3 records its result with the eligible pixel at the pass
pointer, and a reference conversion with its unit cell in rotation; the tile's sense registers take the code and the pixel of
the pass conversion and stay with the reference conversion. A candidate conversion adds its result to the candidate in its place; the
13th chooses the mask of least error among those permitted, or frees the place, and the 21st accepts it or not. A discarded
conversion counts nothing, and the pixel of a pass conversion awaits the next one. The end of pass 3 forms each tile's means, median and
reference target, or skips the tile with event 90; the end of another pass moves to the next, that of pass 15 begins staging, and a
trim commit gives every staged tile its shadow masks and reference selection, reports each other one that is lit with event 89 and
message 0x05, clears the TRIM flags of all, and begins pass 0
with event 88 (R45, R47, R262 to R264, R266 to R270, R272, R273). Where it rests on the model's own reading or choice: log 60, 110,
131 and 145. -/
def Obligations.CalibrationProceeds : Prop :=
  (∀ (s : State) (i c code : Nat), s.converts i c = true → s.dev.cal.discardUntil + 4 * s.dev.slot ≤ s.dev.now →
    (c < s.dev.base → s.dev.cal.pointer + c < 5632 → s.dev.cal.pass < 4 → (s.dev.calTile i).owed = [] →
      s.dev.eligible i (s.dev.cal.pointer + c) = true →
      Next (.conversion i c code) s (fun t => SameStore s t ∧ (t.dev.calTile i).nextConv = c + 1 ∧
        (t.dev.calTile i).meas = SMap.upd [] (s.dev.calTile i).meas (s.dev.cal.pointer + c) (fun l => code :: l) ∧
        t.dev.tile i = { s.dev.tile i with senseCode := code, sensePixel := s.dev.cal.pointer + c, senseValid := true } ∧
        t.dev = { s.dev with cal := { s.dev.cal with tiles := t.dev.cal.tiles }, tiles := t.dev.tiles } ∧
        ∀ j, j ≠ i → t.dev.calTile j = s.dev.calTile j ∧ t.dev.tile j = s.dev.tile j)) ∧
    (c = s.dev.base →
      Next (.conversion i c code) s (fun t => SameStore s t ∧
        t.dev.calTile i = { s.dev.calTile i with
          nextConv := c + 1, refTurn := ((s.dev.calTile i).refTurn + 1) % 17
          cellSums := updNth (s.dev.calTile i).cellSums (s.dev.calTile i).refTurn (fun x => (x.1 + code, x.2 + 1)) } ∧
        (∀ j, t.dev.tile j = s.dev.tile j) ∧ ∀ j, j ≠ i → t.dev.calTile j = s.dev.calTile j)) ∧
    (∀ j rest, c < s.dev.base → s.dev.passQueue i c = j :: rest →
      Next (.conversion i c code) s (fun t => SameStore s t ∧ (t.dev.calTile i).owed = rest ∧
        (s.dev.convPassNo c < 4 → (t.dev.calTile i).meas = SMap.upd [] (s.dev.calTile i).meas j (fun l => code :: l)) ∧
        (4 ≤ s.dev.convPassNo c → (s.dev.calTile i).reforms = false → (t.dev.calTile i).sSum = (s.dev.calTile i).sSum + code ∧
          (t.dev.calTile i).sqSum = (s.dev.calTile i).sqSum + code * code ∧ (t.dev.calTile i).sqN = (s.dev.calTile i).sqN + 1))) ∧
    (∀ m x codes, codes = x.codes ++ [code] → Serves s i c m x →
      Next (.conversion i c code) s (fun t => SameStore s t ∧ (t.dev.calTile i).nextConv = c + 1 ∧
        t.dev.tile i = { s.dev.tile i with senseCode := code, sensePixel := x.pixel, senseValid := true } ∧
        (codes.length ≠ 13 → codes.length ≠ 21 → place t i (c - s.dev.base - 1) = { x with codes := codes }) ∧
        (codes.length = 13 →
          (∀ k, Permitted s codes m k → absDiff m (s.dev.calTile i).median ≤ absDiff (maskEst codes k) (s.dev.calTile i).median) →
          place t i (c - s.dev.base - 1) = freePlace) ∧
        (codes.length = 13 → place t i (c - s.dev.base - 1) = freePlace ∨
          ∃ k, Permitted s codes m k ∧ place t i (c - s.dev.base - 1) = { x with codes := codes, best := some (BitVec.ofNat 12 k) } ∧
            absDiff (maskEst codes k) (s.dev.calTile i).median < absDiff m (s.dev.calTile i).median ∧
            ∀ k', Permitted s codes m k' →
              absDiff (maskEst codes k) (s.dev.calTile i).median ≤ absDiff (maskEst codes k') (s.dev.calTile i).median) ∧
        (codes.length = 21 → place t i (c - s.dev.base - 1) = freePlace ∧
          ∀ v8, v8 = sumNat (codes.drop 13) → (t.dev.calTile i).accepted =
            if (s.dev.cal.settle ≠ 0 ∨ absDiff v8 (8 * m) * 1000 ≤ 8 * m) ∧
              absDiff v8 (8 * (s.dev.calTile i).median) < 8 * absDiff m (s.dev.calTile i).median
            then SMap.set 0 (s.dev.calTile i).accepted x.pixel (x.best.getD 0) else (s.dev.calTile i).accepted) ∧
        (∀ p, p ≠ c - s.dev.base - 1 → place t i p = place s i p) ∧
        ∀ j, j ≠ i → t.dev.calTile j = s.dev.calTile j ∧ t.dev.tile j = s.dev.tile j))) ∧
  (∀ (s : State) (i c code : Nat), s.converts i c = true → s.dev.now < s.dev.cal.discardUntil + 4 * s.dev.slot →
    Next (.conversion i c code) s (fun t => SameStore s t ∧ (∀ j, t.dev.tile j = s.dev.tile j) ∧
      (∀ j, j ≠ i → t.dev.calTile j = s.dev.calTile j) ∧
      t.dev = { s.dev with cal := { s.dev.cal with tiles := t.dev.cal.tiles }, tiles := t.dev.tiles } ∧
      (s.dev.base ≤ c → t.dev.calTile i = { s.dev.calTile i with nextConv := c + 1 }) ∧
      (c < s.dev.base → s.dev.passQueue i c ≠ [] →
        t.dev.calTile i = { s.dev.calTile i with nextConv := c + 1, owed := s.dev.passQueue i c }))) ∧
  (∀ s : State, s.dev.pwr.mainOn = true → s.dev.cal.passEndDue = true → s.dev.cal.pass = 3 → s.dev.has 1 = true →
    Next .calPassEnd s (fun t => SameStore s t ∧ t.dev.cal.pass = 4 ∧ t.dev.cal.passEndDue = false ∧
      t.dev = { s.dev with cal := t.dev.cal, evt := t.dev.evt } ∧
      Raises s t (if (List.range 192).any (skipsSweep s) then [90] else []) ∧
      (∀ i, i < 192 → (t.dev.calTile i).skip = ((s.dev.calTile i).skip || skipsSweep s i)) ∧
      (∀ i, i < 192 → s.dev.isDark i = false → 2816 ≤ (s.dev.tileMeans i).length →
        (∀ p l, s.dev.eligible i p = true → SMap.get [] (s.dev.calTile i).meas p = l → l ≠ [] →
          SMap.get none (t.dev.calTile i).m p = some (sumNat l / l.length)) ∧
        IsLowerMedian ((t.dev.calTile i).m.map (fun e => e.2.getD 0)) (t.dev.calTile i).median ∧ (t.dev.calTile i).meas = []) ∧
      (partaking t ≠ [] → ∃ j, TargetsFrom t j))) ∧
  (∀ s : State, s.dev.pwr.mainOn = true → s.dev.cal.passEndDue = true → s.dev.cal.pass ≠ 15 → s.dev.cal.pass ≠ 3 →
    Next .calPassEnd s (fun t => SameStore s t ∧
      t.dev = { s.dev with cal := { s.dev.cal with passEndDue := false, pass := s.dev.cal.pass + 1 } })) ∧
  (∀ s : State, s.dev.pwr.mainOn = true → s.dev.cal.passEndDue = true → s.dev.cal.pass = 15 →
    Next .calPassEnd s (fun t => SameStore s t ∧ t.dev.cal.staging = true ∧ t.dev.cal.stagingTicks = 0 ∧ t.dev.cal.pointer = 0 ∧
      ∀ i, i < 192 → s.dev.isDark i = false → (t.dev.tile i).trimDue = 15)) ∧
  (∀ s : State, s.dev.pwr.mainOn = true → SMap.wf {} s.cells = true → s.dev.cal.commitDue = true → s.dev.frm.ticked = true → s.dev.cal.stopped = false →
    Next .trimCommit s (fun t =>
      (∀ p, (s.dev.tile (tileOf p)).dark = false ∧ (s.dev.tile (tileOf p)).trim = 15 →
        t.cell p = { s.cell p with trim := (s.cell p).shadowTrim }) ∧
      (∀ p, (s.dev.tile (tileOf p)).dark = true ∨ (s.dev.tile (tileOf p)).trim ≠ 15 → t.cell p = s.cell p) ∧
      (∀ i, i < 192 → (t.dev.tile i).trim = 0) ∧
      (∀ i, i < 192 → s.dev.isDark i = false → (s.dev.tile i).trim = 15 → t.dev.activeCells i =
        match (s.dev.calTile i).newCells with | some n => n.toNat | none => s.dev.activeCells i) ∧
      (∀ i, i < 192 → s.dev.isDark i = false → (s.dev.tile i).trim ≠ 15 → t.dev.activeCells i = s.dev.activeCells i ∧
        (t.dev.calTile i).wear = (s.dev.calTile i).wear ∧ Pends t 89 ∧ mkMsg i 0x05 0 0 ∈ t.dev.keep.transit ∧
        t.dev.cal.stageMisses = Nat.min 65535 (s.dev.cal.stageMisses +
          (List.range 192).countP (fun j => !s.dev.isDark j && (s.dev.tile j).trim != 15))) ∧
      t.dev.cal.staging = false ∧ t.dev.cal.pass = 0 ∧ t.dev.cal.pointer = 0 ∧ t.dev.cal.commitDue = false ∧
      t.dev.cal.commits = Nat.min 65535 (s.dev.cal.commits + 1) ∧ t.dev.cal.lastTick = s.dev.frm.tick ∧ Pends t 88 ∧
      t.mem = s.mem ∧ t.otp = s.otp ∧ t.lat = s.lat))

/-! ## The lanes of Fairway -/

namespace Sys2Proof.Claims

/-- Training has failed for `reason`: the link waits in BACKOFF, for twice as long as before up to 64 ms, and counts and keeps the
failure (R197, R198, R206). -/
def BackedOff (s t : State) (reason : Nat) : Prop :=
  t.dev.link.state = .backoff ∧ t.dev.link.lastFail = reason ∧ t.dev.link.rxSet = 0 ∧ t.dev.link.txSet = 0 ∧
  t.dev.link.fails = Nat.min 255 (s.dev.link.fails + 1) ∧ t.dev.link.backoffMs = Nat.min 64 (2 * s.dev.link.backoffMs) ∧
  t.dev = { s.dev with link := t.dev.link, evt := t.dev.evt, keep := t.dev.keep }

end Sys2Proof.Claims

/-- Training that does not come to its end falls back: the link is in BACKOFF with the reason, the wait doubled up to 64 ms,
the failure counted, raised and reported; so does TRAIN_B, with reason SKEW, when a block of FTS-B shows that no lane of a link is good,
or the last good receive lane loses lock; the wait's end begins DETECT again (R197, R198, R206). -/
def Obligations.TrainingTimeoutsBackOff : Prop :=
  ∀ (s : State),
    (∀ (c : Instr) (st : LinkState) (reason : Nat),
      (c = .detectTimeout ∧ st = .detect ∧ reason = 1) ∨ (c = .trainATimeout ∧ st = .trainA ∧ reason = 2) ∨
        (c = .trainBTimeout ∧ st = .trainB ∧ reason = 4) →
      s.dev.link.state = st →
      Next c s (fun t => SameStore s t ∧ Raises s t [28] ∧
        Sends s t [if s.dev.link.beenActive then mkMsg 0xC5 0x1A 1 reason else mkMsg 0xC5 0x1D 0 reason] ∧
        BackedOff s t reason)) ∧
    (∀ lane block set arrivals, s.dev.fairwayOn = true → s.dev.link.state = .trainB → set = lineSet lane block →
      s.dev.link.validSet lane 0xB6 set = true → lane = s.dev.link.countLane →
      usedSet (s.dev.link.measure arrivals).goodLanes = 0 ∨ usedTx (setByte set 6) = 0 →
      Next (.ftsB lane block arrivals) s (fun t => SameStore s t ∧ Raises s t [28] ∧ Sends s t [mkMsg 0xC5 0x1A 1 3] ∧
        BackedOff s t 3)) ∧
    (∀ n c, s.dev.fairwayOn = true → s.dev.link.state = .trainB → n < 4 → (s.dev.link.lane n).locked = true →
      s.dev.link.loses n c = true → (∀ m, m < 4 → m ≠ n → (s.dev.link.lane m).good = false) → s.dev.link.lanes.length = 4 →
      Next (.laneLoss n c) s (fun t => SameStore s t ∧ Raises s t [28] ∧ Sends s t [mkMsg 0xC5 0x1A 1 3] ∧ BackedOff s t 3)) ∧
    (s.dev.link.state = .backoff → Next .backoffEnd s (fun t => SameStore s t ∧ t.dev.link.state = .detect ∧
      t.dev.link.backoffMs = s.dev.link.backoffMs ∧ t.dev.link.txPreset = [4, 4] ∧
      (∀ l ∈ t.dev.link.lanes, l.preset = 4) ∧ t.dev = { s.dev with link := t.dev.link }))

namespace Sys2Proof.Claims

/-- Coding violations of blocks received one after another, each read behind the runs that the one before left open and with the
comma before it (R191). -/
def violationsOf : List (Bool × Nat) → Option Int → List Line → List Nat
  | _, _, [] => []
  | o, l, b :: bs => (readBlock o l b).1 :: violationsOf (readBlock o l b).2.2 (readBlock o l b).2.1 bs

/-- The runs that stand open after those blocks. -/
def openAfter : List (Bool × Nat) → Option Int → List Line → List (Bool × Nat)
  | o, _, [] => o
  | o, l, b :: bs => openAfter (readBlock o l b).2.2 (readBlock o l b).2.1 bs

/-- The coding violations of open runs that no comma can end any more, beside those counted already (R191). -/
def leftOpen (o : List (Bool × Nat)) : Nat := o.countP (fun r => decide (8 ≤ r.2)) - openBad o

/-- No comma lies at its expected place in any of these blocks, nor within `slack` UI of it (R192, R193). -/
def NoComma (slack : Nat) : List (Bool × Nat) → Option Int → List Line → Prop
  | _, _, [] => True
  | o, l, b :: bs => (∀ p ∈ commaPlaces (joinRuns o (runs b)) (openAt o), slack < p.natAbs) ∧
      NoComma slack (readBlock o l b).2.2 (readBlock o l b).2.1 bs

/-- The blocks that a cause of loss brings. -/
def causeBlocks : LossCause → List Line
  | .clockRecovery => []
  | .commas blocks => blocks
  | .violations blocks => blocks

/-- LINK_VIOL of a lane that loses lock: the violations of those blocks, and of the runs that stand open after them (R191, R209). -/
def violAfter (x : Lane) (blocks : List Line) : Nat :=
  Nat.min 255 (x.viol + sumNat (violationsOf x.openRuns x.lastComma blocks) +
    leftOpen (openAfter x.openRuns x.lastComma blocks))

/-- HOST_GOOD once a lane has received an ordered set: RXGOOD of a valid one (R196, R209). -/
def heard (s : State) (lane : Nat) (set : Bytes) : Nat :=
  if s.dev.link.validSet lane 0xA5 set = true ∨ s.dev.link.validSet lane 0xB6 set = true ∨ s.dev.link.validSet lane 0xC7 set = true
  then setByte set 6 % 4 else s.dev.link.hostGood

end Sys2Proof.Claims

/-- FW_REFCLK, present for 1.00 ms of windows within 99.0 to 100.1 MHz, brings a link that is DOWN to DETECT once its domains
run; a window outside those limits, or 1.00 µs without an edge, takes the link to DOWN from any state with event 29, counted, a link in ACTIVE or
REWIDTH with its session, its witness stream, its commits and event 25, and what is
neither changes nothing; replies that have waited for LRX enter the queue once it runs. A lane locks by clock recovery and a comma in
4 blocks, with their violations counted, among them each comma that does not lie 8,192 UI after the one before, and the same four are blocks
as any other to a lane that is locked; one that loses
lock where no link uses it is counted, with the violations that the blocks of its loss bring and runs still open then, and clock recovery's
report, the third missing comma and the eighth violation in 64
blocks each make it lose lock. In PARK, with only AON alive, nothing watches the clock (R17, R186, R191, R192, R197, R205, R209, R210,
R415). SPREAD is the operand's, and the rest of its reading: log 16, 31, 118, 121, 138, 143, 153 and 154. -/
def Obligations.ClockAndLaneEvents : Prop :=
  ∀ s : State,
    (∀ windows spread, 100 ≤ windows.length → (∀ k ∈ windows, 99000 ≤ k ∧ k ≤ 100100) →
      s.dev.pwr.mainOn = true → s.dev.pwr.aonLost = false → s.dev.pwr.state ≠ .entry → s.dev.link.state = .down →
      s.dev.fw.writes = [] → s.dev.fw.replies.length + s.dev.fw.crossing.length ≤ 256 →
      Next (.refclkPresent windows spread) s (fun t => SameStore s t ∧ t.dev.link.refclk = true ∧ t.dev.link.spread = spread ∧
        t.dev.link.state = .detect ∧ t.dev = { s.dev with link := t.dev.link, fw := crossed s.dev.fw })) ∧
    (∀ windows spread, windows.length < 100 ∨ (∃ k ∈ windows, k < 99000 ∨ 100100 < k) →
      exec (.refclkPresent windows spread) s = .next s) ∧
    (s.dev.pwr.parked = true ∨ s.dev.pwr.aonLost = true → (∀ m, exec (.refclkLoss m) s = .next s) ∧
      ∀ windows spread, exec (.refclkPresent windows spread) s = .next s) ∧
    (∀ khz, 99000 ≤ khz → khz ≤ 100100 → exec (.refclkLoss (.window khz)) s = .next s) ∧
    (∀ ns, ns < 1000 → exec (.refclkLoss (.noEdge ns)) s = .next s) ∧
    (∀ m, (∃ khz, m = RefLoss.window khz ∧ (khz < 99000 ∨ 100100 < khz)) ∨ (∃ ns, m = RefLoss.noEdge ns ∧ 1000 ≤ ns) →
      s.dev.link.refclk = true → s.dev.pwr.mainOn = true → s.dev.pwr.aonLost = false → s.dev.link.state = .detect →
      Next (.refclkLoss m) s (fun t => SameStore s t ∧ Raises s t [29] ∧ t.dev.link.state = .down ∧ t.dev.link.refclk = false ∧
        t.dev.link.refLosses = Nat.min 65535 (s.dev.link.refLosses + 1) ∧ t.dev.link.beenActive = false ∧
        (∀ l ∈ t.dev.link.lanes, l.locked = false) ∧ t.dev = { s.dev with link := t.dev.link, evt := t.dev.evt })) ∧
    (∀ m, refLost m = true → s.dev.link.refclk = true → s.dev.pwr.mainOn = true → s.dev.pwr.parked = false → s.dev.pwr.aonLost = false →
      Next (.refclkLoss m) s (fun t => SameStore s t ∧ Pends t 29 ∧ t.dev.link.state = .down ∧ t.dev.link.refclk = false ∧
        t.dev.link.refLosses = Nat.min 65535 (s.dev.link.refLosses + 1) ∧ (∀ l ∈ t.dev.link.lanes, l.locked = false) ∧
        (∀ n, n < s.dev.link.lanes.length → (s.dev.link.lane n).locked = true →
          (t.dev.link.lane n).viol = violAfter (s.dev.link.lane n) []) ∧
        (s.dev.link.carries = true → Pends t 25 ∧ t.dev.ses.keys = none ∧ t.dev.ses.hs = none ∧ t.dev.frm.commits = [] ∧
          t.dev.frm.modePend = none ∧ t.dev.eng.sectStaged = none ∧ t.dev.eng.symStaged = none ∧ t.dev.wit.running = false))) ∧
    (∀ n b0 b1 b2 b3, s.dev.fairwayOn = true → n < 4 → s.dev.link.lanes.length = 4 →
      (∀ b ∈ [b0, b1, b2, b3], hasComma b = true) → (s.dev.link.lane n).locked = true →
      Next (.laneLock n true [b0, b1, b2] b3) s (fun t => SameStore s t ∧
        (t.dev.link.lane n).viol = Nat.min 255 ((s.dev.link.lane n).viol +
          sumNat (violationsOf (s.dev.link.lane n).openRuns (s.dev.link.lane n).lastComma [b0, b1, b2, b3])) ∧
        (t.dev.link.lane n).locked = true ∧ (∀ m, m ≠ n → t.dev.link.lane m = s.dev.link.lane m) ∧
        t.dev = { s.dev with link := { s.dev.link with lanes := t.dev.link.lanes } })) ∧
    (∀ n b0 b1 b2 b3, s.dev.fairwayOn = true → n < 4 → s.dev.link.lanes.length = 4 →
      (∀ b ∈ [b0, b1, b2, b3], hasComma b = true) → (s.dev.link.lane n).locked = false →
      Next (.laneLock n true [b0, b1, b2] b3) s (fun t => SameStore s t ∧
        t.dev.link.lane n = { s.dev.link.lane n with
          locked := true, restoreRun := 0, recent := (violationsOf [] none [b0, b1, b2, b3]).reverse
          viol := Nat.min 255 ((s.dev.link.lane n).viol + sumNat (violationsOf [] none [b0, b1, b2, b3]))
          lastComma := (t.dev.link.lane n).lastComma, openRuns := (t.dev.link.lane n).openRuns } ∧
        (∀ m, m ≠ n → t.dev.link.lane m = s.dev.link.lane m) ∧
        t.dev = { s.dev with link := { s.dev.link with lanes := t.dev.link.lanes, eqRun := 0, agreeRun := 0 } })) ∧
    (∀ n recovered before block, locks recovered (before ++ [block]) = false →
      exec (.laneLock n recovered before block) s = .next s) ∧
    (∀ n, s.dev.link.loses n .clockRecovery = true ∧
      (∀ blocks, s.dev.link.loses n (.commas blocks) = true ↔ blocks.length = 3 ∧
        NoComma (if s.dev.link.carries then 8 else 0) (s.dev.link.lane n).openRuns (s.dev.link.lane n).lastComma blocks) ∧
      (∀ blocks, blocks.length ≤ 64 → (s.dev.link.loses n (.violations blocks) = true ↔
        8 ≤ sumNat (violationsOf (s.dev.link.lane n).openRuns (s.dev.link.lane n).lastComma blocks) +
          sumNat ((s.dev.link.lane n).recent.take (64 - blocks.length))))) ∧
    (∀ n c, s.dev.link.loses n c = false ∨ (s.dev.link.lane n).locked = false → exec (.laneLoss n c) s = .next s) ∧
    (∀ n c, s.dev.fairwayOn = true → n < 4 → s.dev.link.lanes.length = 4 → (s.dev.link.lane n).locked = true →
      s.dev.link.loses n c = true → s.dev.link.carries = false → s.dev.link.state ≠ .trainB →
      Next (.laneLoss n c) s (fun t => SameStore s t ∧ (t.dev.link.lane n).locked = false ∧
        (t.dev.link.lane n).losses = Nat.min 255 ((s.dev.link.lane n).losses + 1) ∧
        (t.dev.link.lane n).viol = violAfter (s.dev.link.lane n) (causeBlocks c) ∧
        (∀ m, m ≠ n → t.dev.link.lane m = s.dev.link.lane m) ∧ t.dev.link.state = s.dev.link.state ∧
        t.dev = { s.dev with link := t.dev.link }))

/-- A block carries an ordered set that a lane reads back from its bits. The first valid FTS-A set ends DETECT; in TRAIN_A the
sixteenth block in a row with both ends' equalisation complete and the same set of good lanes ends it, and a block without one
breaks the run; in TRAIN_B the block that completes 16 in a row in which the partner's set agrees and 16 sent with AGREE brings
ACTIVE on the sets that the locks and the skew measured in it give, with fresh credits, no session and no handshake, the training
counted and event 24, and a generation whose LAST has not come has lost frames. RXGOOD of every valid set is HOST_GOOD, in any state
(R188 to R190, R193, R196 to R199, R210, R221, R231, R364). Where it rests on
the model's own reading or choice: log 16, 46, 118, 128 (FAILS starts again), 142 (a set's other bits), 151 and 157. -/
def Obligations.TrainingReachesActive : Prop :=
  (∀ (lane : Nat) (set : Bytes), set.length = 16 → lineSet lane (blockLine (rxSeed lane) set) = set) ∧
  ∀ (s : State) (lane : Nat) (block : Line) (set : Bytes), s.dev.fairwayOn = true → set = lineSet lane block →
    (s.dev.link.state = .detect → s.dev.link.validSet lane 0xA5 set = true → ∀ x,
      Next (.ftsA lane block x) s (fun t => SameStore s t ∧ t.dev.link.state = .trainA ∧ t.dev.link.hostGood = setByte set 6 % 4 ∧
        t.dev = { s.dev with link := t.dev.link })) ∧
    (s.dev.link.state = .trainA → s.dev.link.validSet lane 0xA5 set = true → lane = s.dev.link.countLane →
      s.dev.link.eqRun = 15 → setByte set 6 % 16 = s.dev.link.partnerGood → bit (setByte set 7) 0 = true →
      bit (setByte set 2) 7 = false → bit (setByte set 3) 7 = false → ∀ x, x.complete = true →
      Next (.ftsA lane block x) s (fun t => SameStore s t ∧ t.dev.link.state = .trainB ∧ t.dev.link.agreeRun = 0 ∧
        t.dev.link.hostGood = setByte set 6 % 4 ∧
        t.dev = { s.dev with link := t.dev.link })) ∧
    (s.dev.link.state = .trainA → s.dev.link.validSet lane 0xA5 set = false → lane = s.dev.link.countLane → ∀ x,
      Next (.ftsA lane block x) s (fun t => SameStore s t ∧ t.dev.link.state = .trainA ∧ t.dev.link.eqRun = 0 ∧
        t.dev = { s.dev with link := t.dev.link })) ∧
    (∀ arrivals rx tx, s.dev.link.state = .trainB → s.dev.link.validSet lane 0xB6 set = true → lane = s.dev.link.countLane →
      rx = usedSet (s.dev.link.measure arrivals).goodLanes → tx = usedTx (setByte set 6) → rx ≠ 0 → tx ≠ 0 →
      15 ≤ s.dev.link.agreeRun → 15 ≤ s.dev.link.sentRun → s.dev.link.agree = true →
      bit (setByte set 7) 1 = true → setByte set 8 % 16 = tx → setByte set 9 % 16 = rx →
      Next (.ftsB lane block arrivals) s (fun t => SameStore s t ∧ t.dev.link.state = .active ∧ t.dev.link.rxSet = rx ∧ t.dev.link.txSet = tx ∧
        t.dev.link.backoffMs = 1 ∧ t.dev.link.fails = 0 ∧ t.dev.link.trained = Nat.min 65535 (s.dev.link.trained + 1) ∧
        t.dev.fw.limit0 = 8 ∧ t.dev.fw.limit1 = 32 ∧ t.dev.fw.exp0 = 0 ∧ t.dev.fw.exp1 = 0 ∧
        t.dev.ses.keys = none ∧ t.dev.ses.hs = none ∧ t.dev.link.hostGood = setByte set 6 % 4 ∧ Pends t 24 ∧
        ∀ b, (SMap.get {} s.dev.fw.bufs b).gen.isSome = true → (SMap.get {} s.dev.fw.bufs b).gotLast = false →
          (SMap.get {} t.dev.fw.bufs b).lost = true)) ∧
    (s.dev.link.state ≠ .trainB → ∀ arrivals, Next (.ftsB lane block arrivals) s (fun t => SameStore s t ∧
      t.dev = { s.dev with link := { s.dev.link with lanes := t.dev.link.lanes, hostGood := heard s lane set } }))

/-- A change of width: the loss of a receive lane of the link begins the handshake with the lanes that are left, with event 26
and LANE_LOST; the partner's WIDTH set is answered in REWIDTH by two acknowledging blocks at its sets, and the partner's sets
in those blocks' time make them the used ones; a set that names what is in force changes nothing; the second acknowledgement of
the MZN1080's own handshake makes its sets the used ones, and both handshakes count; when no acknowledgement comes the link is
lost, with its commits, its session and the message LOST. Either beginning abandons an attempt to restore lanes, with RELEASE sent
when it was the MZN1080's own. A set counts on the lowest good receive lane; its copies on other lanes, and a set in any other state, change nothing but HOST_GOOD (R196, R199,
R201, R203, R205, R206, R209, R364). Where it rests on the model's own reading or choice: log 33 and 142. -/
def Obligations.WidthChanges : Prop :=
  ∀ (s : State) (lane : Nat) (block : Line) (set : Bytes), set = lineSet lane block →
    (∀ c rx, s.dev.fairwayOn = true → lane < 4 → (s.dev.link.lane lane).locked = true → s.dev.link.loses lane c = true →
      s.dev.link.state = .active → bit s.dev.link.rxSet lane = true →
      rx = usedSet (s.dev.link.goodLanes.filter (· != lane)) → rx ≠ 0 →
      Next (.laneLoss lane c) s (fun t => SameStore s t ∧ Raises s t [26] ∧ Sends s t [mkMsg 0xC5 0x1E 0 lane] ∧
        t.dev.link.state = .rewidth ∧ t.dev.link.newRx = rx ∧ t.dev.link.newTx = s.dev.link.txSet ∧
        t.dev.link.detecting = true ∧ t.dev.link.acks = 0 ∧ t.dev.link.attempt = none ∧
        t.dev.link.out = (match s.dev.link.attempt with
          | some (own, _) => if own = 0 then [] else [(16, rx, s.dev.link.txSet)]
          | none => []) ∧
        t.dev = { s.dev with link := t.dev.link, evt := t.dev.evt, keep := t.dev.keep })) ∧
    (s.dev.fairwayOn = true → s.dev.link.carries = false ∨ s.dev.link.setLane ≠ some lane →
      Next (.widthSet lane block) s (fun t => SameStore s t ∧
        t.dev = { s.dev with link := { s.dev.link with lanes := t.dev.link.lanes, hostGood := heard s lane set } })) ∧
    (∀ rx tx, s.dev.fairwayOn = true → s.dev.link.validSet lane 0xC7 set = true → bits (setByte set 7) 2 3 = 0 →
      s.dev.link.setLane = some lane →
      tx = usedTx (setByte set 8) → rx = usedSet ((lanesOf (setByte set 9 % 16)).filter (fun n => (s.dev.link.lane n).good)) →
      rx = setByte set 9 % 16 → tx ≠ 0 → rx ≠ 0 →
      (s.dev.link.state = .active → rx ≠ s.dev.link.rxSet ∨ tx ≠ s.dev.link.txSet →
        Next (.widthSet lane block) s (fun t => SameStore s t ∧ t.dev.link.state = .rewidth ∧ t.dev.link.detecting = false ∧
          t.dev.link.newRx = rx ∧ t.dev.link.newTx = tx ∧ t.dev.link.acks = 0 ∧ t.dev.link.attempt = none ∧
          (∃ rest, t.dev.link.out = [(4, rx, tx), (4, rx, tx)] ++ rest ∧
            (∀ own asked, s.dev.link.attempt = some (own, asked) → own ≠ 0 → rest = [(16, rx, tx)]) ∧
            (s.dev.link.attempt.all (fun a => a.1 = 0) = true → rest = [])) ∧
          t.dev.ses = s.dev.ses ∧ t.dev.frm = s.dev.frm)) ∧
      (s.dev.link.state = .active → rx = s.dev.link.rxSet → tx = s.dev.link.txSet →
        Next (.widthSet lane block) s (fun t => SameStore s t ∧
          t.dev = { s.dev with link := { s.dev.link with lanes := t.dev.link.lanes, hostGood := heard s lane set } })) ∧
      (s.dev.link.state = .rewidth → s.dev.link.detecting = false → rx = s.dev.link.newRx → tx = s.dev.link.newTx →
        (s.dev.link.acks = 0 → Next (.widthSet lane block) s (fun t => SameStore s t ∧
          t.dev = { s.dev with link := { s.dev.link with acks := 1, lanes := t.dev.link.lanes, hostGood := setByte set 6 % 4 } })) ∧
        (s.dev.link.acks ≠ 0 → Next (.widthSet lane block) s (fun t => SameStore s t ∧ t.dev.link.state = .active ∧
          t.dev.link.rxSet = rx ∧ t.dev.link.txSet = tx ∧
          t.dev.link.rewidths = Nat.min 65535 (s.dev.link.rewidths + 1) ∧ t.dev.ses = s.dev.ses ∧ t.dev.frm = s.dev.frm)))) ∧
    (s.dev.fairwayOn = true → s.dev.link.state = .rewidth → s.dev.link.detecting = true →
      s.dev.link.validSet lane 0xC7 set = true → bit (setByte set 7) 2 = true →
      setByte set 8 % 16 = s.dev.link.newTx → setByte set 9 % 16 = s.dev.link.newRx → bit s.dev.link.newRx lane = true →
      (lanesOf s.dev.link.newRx).head? = some lane →
      (s.dev.link.acks = 0 → Next (.widthAck lane block) s (fun t => SameStore s t ∧
        t.dev = { s.dev with link := { s.dev.link with acks := 1, lanes := t.dev.link.lanes, hostGood := setByte set 6 % 4 } })) ∧
      (s.dev.link.acks = 1 → Next (.widthAck lane block) s (fun t => SameStore s t ∧ t.dev.link.state = .active ∧
        t.dev.link.rxSet = s.dev.link.newRx ∧ t.dev.link.txSet = s.dev.link.newTx ∧
        t.dev.link.rewidths = Nat.min 65535 (s.dev.link.rewidths + 1) ∧ t.dev.ses = s.dev.ses))) ∧
    (s.dev.link.state = .rewidth → Next .rewidthTimeout s (fun t => SameStore s t ∧ t.dev.link.state = .backoff ∧
      t.dev.link.lastFail = 5 ∧ t.dev.ses.keys = none ∧ t.dev.frm.commits = [] ∧ t.dev.frm.modePend = none ∧
      t.dev.eng.sectStaged = none ∧ t.dev.eng.symStaged = none ∧ Pends t 25 ∧ mkMsg 0xC5 0x20 1 0 ∈ t.dev.keep.transit))

/-- Restoring lanes: an attempt names the unused receive lanes, when the transmit link lacks none, and sends RESTORE with them and
the transmit set; for the transmit link alone the turn is the partner's, and nothing is sent;
blocks of FTS-A whose sender has finished adapting count towards a lane's 64 in a row; the partner's request names transmit
lanes of its own choice; it ends when the partner releases it, and a timeout ends the MZN1080's own from which no lane is ready,
with RELEASE sent on the sets in use, and leaves the partner's (R196, R203). Where it rests on the model's own reading or choice: log 34, 142 and 144. -/
def Obligations.LaneRestoreEvents : Prop :=
  ∀ s : State, s.dev.link.state = .active →
    (s.dev.link.attempt = none → s.dev.link.rxSet ≠ 15 → s.dev.link.txSet = 3 →
      Next .restoreAttempt s (fun t => SameStore s t ∧ t.dev.link.attempt = some (15 - s.dev.link.rxSet, 0) ∧
        t.dev.link.out = s.dev.link.out ++ [(8, 15 - s.dev.link.rxSet, 3)] ∧
        t.dev.link.lastRx = true ∧ t.dev.link.rxSet = s.dev.link.rxSet ∧ t.dev = { s.dev with link := t.dev.link })) ∧
    (s.dev.link.attempt = none → s.dev.link.rxSet = 15 → s.dev.link.txSet ≠ 3 →
      Next .restoreAttempt s (fun t => SameStore s t ∧ (∀ l ∈ t.dev.link.lanes, l.restoreRun = 0) ∧
        t.dev = { s.dev with link := { s.dev.link with lastRx := false, lanes := t.dev.link.lanes } })) ∧
    (∀ lane block set rx tx x, s.dev.fairwayOn = true → lane < 4 → s.dev.link.lanes.length = 4 → set = lineSet lane block →
      s.dev.link.attempt = some (rx, tx) → bit rx lane = true → (s.dev.link.lane lane).restoreRun < 63 →
      Next (.ftsA lane block x) s (fun t => SameStore s t ∧ t.dev.link.state = .active ∧ t.dev.link.attempt = some (rx, tx) ∧
        (t.dev.link.lane lane).restoreRun =
          (if s.dev.link.validSet lane 0xA5 set = true ∧ bit (setByte set 7) 0 = true then (s.dev.link.lane lane).restoreRun + 1
            else 0) ∧
        t.dev = { s.dev with link := { s.dev.link with lanes := t.dev.link.lanes, hostGood := heard s lane set } })) ∧
    (∀ lane block set, s.dev.fairwayOn = true → set = lineSet lane block → s.dev.link.validSet lane 0xC7 set = true →
      bit (setByte set 7) 3 = true → s.dev.link.attempt = none → Nat.land (setByte set 8 % 4) (3 - s.dev.link.txSet) ≠ 0 →
      Next (.restoreSet lane block) s (fun t => SameStore s t ∧
        t.dev = { s.dev with link := { s.dev.link with
          attempt := some (0, Nat.land (setByte set 8 % 4) (3 - s.dev.link.txSet)), lanes := t.dev.link.lanes
          hostGood := setByte set 6 % 4 } })) ∧
    (∀ lane block set tx, s.dev.fairwayOn = true → set = lineSet lane block → s.dev.link.validSet lane 0xC7 set = true →
      bit (setByte set 7) 4 = true → s.dev.link.attempt = some (0, tx) →
      Next (.releaseSet lane block) s (fun t => SameStore s t ∧
        t.dev = { s.dev with link := { s.dev.link with attempt := none, lanes := t.dev.link.lanes, hostGood := setByte set 6 % 4 } })) ∧
    (∀ rx tx, s.dev.link.attempt = some (rx, tx) → rx ≠ 0 → (∀ l ∈ s.dev.link.lanes, l.restoreRun = 0) →
      Next .restoreTimeout s (fun t => SameStore s t ∧
        t.dev = { s.dev with link := { s.dev.link with
          attempt := none, out := s.dev.link.out ++ [(16, s.dev.link.rxSet, s.dev.link.txSet)] } })) ∧
    (∀ tx, s.dev.link.attempt = some (0, tx) → exec .restoreTimeout s = .next s)

/-! ## Frames, credits and replies -/

namespace Sys2Proof.Claims

/-- A discarded frame is noted for the next DISCARD reply, and each step has its counter and event (R218, R237). -/
def Discarded (s t : State) (step_ : Nat) : Prop :=
  t.dev.fw.discards = s.dev.fw.discards + 1 ∧ t.dev.fw.discardStep = step_ ∧ t.dev.fw.accepted = s.dev.fw.accepted ∧
  (step_ = 1 → t.dev.fw.crcFail = Nat.min 65535 (s.dev.fw.crcFail + 1) ∧ Pends t 30) ∧
  (step_ = 2 → t.dev.fw.format = Nat.min 255 (s.dev.fw.format + 1) ∧ Pends t 30) ∧
  (step_ = 3 → t.dev.fw.noSession = Nat.min 255 (s.dev.fw.noSession + 1) ∧ Pends t 30) ∧
  (step_ = 4 → t.dev.fw.tagFail = Nat.min 65535 (s.dev.fw.tagFail + 1) ∧ Pends t 31) ∧
  (step_ = 5 → t.dev.fw.creditViol = Nat.min 255 (s.dev.fw.creditViol + 1) ∧ Pends t 32)

end Sys2Proof.Claims

/-- A numbered frame is checked in order: its CRC under the number that SEQ spells, its format, the session, and its tag with
the encryption that the mode fixes; the first check that fails is the step at which it is discarded. Payload beyond LEN that only
the payload in clear shows is bad format. No number reaches 2^32. An unnumbered frame is checked for its CRC, its format, and ENC,
which no mode gives it (R8, R212, R216, R217, R218, R361, R364). What is judged reserved, that ENC on an unnumbered frame is
discarded at step 4, and the place of the payload's check are the model's reading: log 50; so is the fold word of a reserved type: log
148. -/
def Obligations.FrameChecksAreOrdered : Prop :=
  (∀ (d : Dev) (f : Bytes), numbered (fType f) = true → d.ses.oldKeys = none → 2 ^ 32 ≤ reconstruct d.fw.rxNext (fSeq f) →
    d.checkFrame f = .bad 1 0) ∧
  (∀ (d : Dev) (f : Bytes), numbered (fType f) = false →
    (crcMatches f 0 = false → d.checkFrame f = .bad 1 0) ∧
    (crcMatches f 0 = true → badFormat f = true → d.checkFrame f = .bad 2 0) ∧
    (crcMatches f 0 = true → badFormat f = false → fEnc f = true → d.checkFrame f = .bad 4 0) ∧
    (crcMatches f 0 = true → badFormat f = false → fEnc f = false → d.checkFrame f = .good (fPayload f))) ∧
  ∀ (d : Dev) (f : Bytes) (k : Keys), numbered (fType f) = true → d.ses.oldKeys = none →
    reconstruct d.fw.rxNext (fSeq f) < 2 ^ 32 →
    (crcMatches f (reconstruct d.fw.rxNext (fSeq f)) = false → d.checkFrame f = .bad 1 0) ∧
    (crcMatches f (reconstruct d.fw.rxNext (fSeq f)) = true → badFormat f = true → d.checkFrame f = .bad 2 0) ∧
    (crcMatches f (reconstruct d.fw.rxNext (fSeq f)) = true → badFormat f = false → d.ses.keys = none → d.checkFrame f = .bad 3 0) ∧
    (crcMatches f (reconstruct d.fw.rxNext (fSeq f)) = true → badFormat f = false → d.ses.keys = some k →
      fEnc f ≠ encFor d.ses.mode (fType f) → d.checkFrame f = .bad 4 (reconstruct d.fw.rxNext (fSeq f))) ∧
    (crcMatches f (reconstruct d.fw.rxNext (fSeq f)) = true → badFormat f = false → d.ses.keys = some k →
      fEnc f = encFor d.ses.mode (fType f) →
      d.checkFrame f = match openFrame k.toUnit (reconstruct d.fw.rxNext (fSeq f)) f with
        | some p => if badRest f p then .bad 2 0 else .numberedGood p false (reconstruct d.fw.rxNext (fSeq f))
        | none => .bad 4 (reconstruct d.fw.rxNext (fSeq f)))

/-- A frame is the one that the link symbols of the blocks have brought, where they have brought it whole, and else the one given.
A VC0 or VC1 frame that passes its checks inside the credit window is accepted, its number and VCSEQ accounted for and
its buffer occupied; one outside the window is discarded at step 5 and leaves LAST as it was, and one that fails a check is
discarded at that check's step. A frame of VC1 stores nothing yet: its data waits for the FWW port. An IDLE frame accounts for
lost frames (R188, R211, R216, R218, R220, R221, R222, R230). Where it rests on the model's own reading or choice: log 16, 50, 51
and 52. -/
def Obligations.FramesAreAcceptedOrDiscarded : Prop :=
  ∀ (s : State) (f g : Bytes), s.dev.rxOn = true →
    s.dev.link.frontFrame f = (if 2076 ≤ s.dev.link.rxSyms.length then s.dev.link.rxSyms.take 2076 else f) ∧
    (∀ n arg, s.dev.checkFrame g = .bad n arg → 1 ≤ n → n ≤ 4 →
      ∀ c, (g = s.dev.link.frontFrame f ∧ (c = Instr.vc0Frame f ∨ c = .vc1Frame f)) ∨
        (∃ blocks, g = (s.dev.symbolBlocks blocks).link.frontFrame f ∧ c = .idleFrame f blocks) ∨
        (g = f ∧ (c = .helloH f ∨ c = .finishH f ∨ c = .abort f)) →
      Next c s (fun t => SameStore s t ∧ Discarded s t n)) ∧
    (g = s.dev.link.frontFrame f → fType g = 1 → Next (.vc0Frame f) s (fun t => SameStore s t ∧
      ∀ p n, s.dev.checkFrame g = .numberedGood p false n →
        (inWindow s.dev.fw.limit0 (fVcseq g) 8 = false → Discarded s t 5 ∧ t.dev.fw.rxNext = s.dev.fw.rxNext) ∧
        (inWindow s.dev.fw.limit0 (fVcseq g) 8 = true → t.dev.fw.rxNext = n + 1 ∧
          t.dev.fw.accepted = Nat.min 0xFFFFFFFF (s.dev.fw.accepted + 1) ∧ t.dev.fw.exp0 = (fVcseq g + 1) % 256 ∧
          t.dev.fw.held0 = s.dev.fw.held0 + 1))) ∧
    (g = s.dev.link.frontFrame f → fType g = 2 → Next (.vc1Frame f) s (fun t => SameStore s t ∧
      ∀ p n, s.dev.checkFrame g = .numberedGood p false n →
        (inWindow s.dev.rxSlot.fw.limit1 (fVcseq g) 32 = false → Discarded s t 5 ∧ t.dev.fw.rxNext = s.dev.fw.rxNext) ∧
        (inWindow s.dev.rxSlot.fw.limit1 (fVcseq g) 32 = true → t.dev.fw.rxNext = n + 1 ∧
          t.dev.fw.accepted = Nat.min 0xFFFFFFFF (s.dev.fw.accepted + 1) ∧ t.dev.fw.exp1 = (fVcseq g + 1) % 256 ∧
          (s.dev.declared (fField g 8 1) = false → t.dev.fw.bounds = Nat.min 65535 (s.dev.fw.bounds + 1) ∧ Pends t 34 ∧
            t.dev.fw.writes = s.dev.fw.writes)))) ∧
    (∀ p blocks, g = (s.dev.symbolBlocks blocks).link.frontFrame f → fType g = 0 → s.dev.checkFrame g = .good p →
      Next (.idleFrame f blocks) s (fun t => SameStore s t ∧
        t.dev.fw.exp0 = fField g 8 1 % 256 ∧ t.dev.fw.exp1 = fField g 9 1 % 256 ∧
        (t.dev.fw.lost0 = Nat.min 65535 (s.dev.fw.lost0 + (fField g 8 1 + 256 - s.dev.fw.exp0) % 256) ∨
          65535 < s.dev.fw.lost0)))

/-- Packets arrive over an ACTIVE link in a session, and otherwise nothing brings them. They act when they are whole: a descriptor that no check of R117 refuses is staged, and one that a check refuses is
counted with its reason and slot, raised and rejected; a good sector set and a good symbol set replace the staged ones,
less what the limits drop; a set with a bad box, and a descriptor of another length, change nothing that is staged; BLEND
stages an order; TIME sets the anchor; PAD does nothing (R14, R109, R117, R138, R139, R150, R151, R226, R437). Where it rests on
the model's own reading or choice: log 48 and 49. -/
def Obligations.PacketsAreStaged : Prop :=
  ∀ (s : State) (body : Bytes),
    exec .pad s = .next s ∧
    (s.dev.contentOn = false → ∀ c, c = Instr.layer body ∨ c = .sectorSet body ∨ c = .symbolSet body ∨ c = .commit body ∨
      c = .mode body ∨ c = .blend body ∨ c = .time body → exec c s = .next s) ∧
    (s.dev.contentOn = true →
    (∀ n, body.length = 36 → wordAt body 0 = n → n < 16 →
      (s.dev.layerReason n (bodyWords body 1 8) = 0 → Next (.layer body) s (fun t => SameStore s t ∧
        t.dev.eng = { s.dev.eng with slots := updNth s.dev.eng.slots n (fun x => { x with staged := some (bodyWords body 1 8) }) } ∧
        t.dev.fw = { s.dev.fw with
          replies := t.dev.fw.replies, replyDropped := t.dev.fw.replyDropped, overflow := t.dev.fw.overflow } ∧
        t.dev = { s.dev with eng := t.dev.eng, fw := t.dev.fw, evt := t.dev.evt })) ∧
      (∀ r, s.dev.layerReason n (bodyWords body 1 8) = r → r ≠ 0 → Next (.layer body) s (fun t => SameStore s t ∧ Pends t 52 ∧
        t.dev.eng = { s.dev.eng with
          rejects := Nat.min 65535 (s.dev.eng.rejects + 1), rejectSlot := n, rejectReason := r } ∧
        t.dev = { s.dev with eng := t.dev.eng, fw := t.dev.fw, frm := t.dev.frm, evt := t.dev.evt }))) ∧
    (body.length ≠ 36 → Next (.layer body) s (fun t => SameStore s t ∧ Pends t 36 ∧
      t.dev.fw.malformed = Nat.min 65535 (s.dev.fw.malformed + 1) ∧ t.dev = { s.dev with fw := t.dev.fw, evt := t.dev.evt })) ∧
    (∀ count, count < 128 → body.length = 16 + 16 * count → wordAt body 0 = count →
      wordAt body 1 = 0 → wordAt body 2 = 0 → wordAt body 3 = 0 →
      ((∀ i, i < count → boxBad (bodyWords body (4 + 4 * i) 4) = false) → Next (.sectorSet body) s (fun t => SameStore s t ∧
        t.dev.eng = { s.dev.eng with
          sectStaged := some { boxes := ((List.range count).map (fun i => bodyWords body (4 + 4 * i) 4)).take s.dev.nSect }
          sectDropped := t.dev.eng.sectDropped } ∧
        (s.dev.nSect < count → Pends t 58) ∧ t.dev = { s.dev with eng := t.dev.eng, evt := t.dev.evt })) ∧
      (∀ i, i < count → boxBad (bodyWords body (4 + 4 * i) 4) = true →
        (∀ j, j < i → boxBad (bodyWords body (4 + 4 * j) 4) = false) →
        Next (.sectorSet body) s (fun t => SameStore s t ∧ Pends t 57 ∧
          t.dev.eng = { s.dev.eng with
            sectRefused := Nat.min 65535 (s.dev.eng.sectRefused + 1), sectReason := 1, sectBox := i, sectId := t.dev.eng.sectId } ∧
          t.dev = { s.dev with eng := t.dev.eng, fw := t.dev.fw, evt := t.dev.evt }))) ∧
    (∀ count insts, count < 64 → body.length = 16 + 56 * count → wordAt body 0 = count →
      wordAt body 1 = 0 → wordAt body 2 = 0 → wordAt body 3 = 0 →
      insts = (List.range count).map (fun i => bodyWords body (4 + 14 * i) 14) →
      (∀ x ∈ insts, instBad x = false ∧ instOut x = false ∧ (s.dev.eng.libReady = true → s.dev.noSprite x = false)) →
      Next (.symbolSet body) s (fun t => SameStore s t ∧
        t.dev.eng = { s.dev.eng with
          symStaged := some { insts := keepInsts s.dev.nSym s.dev.symArea 0 0 insts }, symDropped := t.dev.eng.symDropped } ∧
        t.dev = { s.dev with eng := t.dev.eng, evt := t.dev.evt })) ∧
    (∀ w, body.length = 4 → wordAt body 0 = w → w < 16 → (bit w 0 = true → bits w 1 3 < s.dev.nProg ∧ s.dev.memc.dramLess = false) →
      Next (.blend body) s (fun t => SameStore s t ∧ t.dev = { s.dev with eng := { s.dev.eng with
        blendStaged := some (if bit w 0 then some (bits w 1 3) else none) } })) ∧
    (body.length = 8 → Next (.time body) s (fun t => SameStore s t ∧ t.dev = { s.dev with ledg := { s.dev.ledg with
      anchorUtc := beNat body, anchorClock := s.dev.lampMs } })))

namespace Sys2Proof.Claims

/-- The commit that a COMMIT packet makes when it takes what is staged (R92, R227). -/
def commitOf (d : Dev) (sent target : Nat) (deps : List (Nat × Nat × Bool)) : Commit :=
  { target := target, deps := deps, sect := d.eng.sectStaged, sym := d.eng.symStaged, blend := d.eng.blendStaged, at_ := d.now
    sent := sent }

/-- What a COMMIT packet spells: target, the word of named slots and its dependencies (R227). -/
def Spells (body : Bytes) (target : Nat) (deps : List (Nat × Nat × Bool)) : Prop :=
  body.length = 8 + 4 * (namedSlots (wordAt body 1)).length ∧ wordAt body 1 < 65536 ∧ wordAt body 0 = target ∧
  (∀ w ∈ bodyWords body 2 (namedSlots (wordAt body 1)).length, w < 131072) ∧
  deps = ((namedSlots (wordAt body 1)).zip (bodyWords body 2 (namedSlots (wordAt body 1)).length)).map
    (fun e => (e.1, e.2 % 65536, bit e.2 16))

/-- A command for `target` is to enter for tick `n`, `late` or not: the next tick and the one after are on time, the tick before
them is late for the next one, and before tick 0 a command for tick 0 is late for tick 1 (R92, R400). -/
def Lands (d : Dev) (target n : Nat) (late : Bool) : Prop :=
  ((d.targetDist target = 0 ∨ d.targetDist target = 1) ∧ (d.frm.ticked = true ∨ target ≠ 0) ∧ n = target ∧ late = false) ∨
  (d.targetDist target = -1 ∧ n = d.nextTick ∧ late = true) ∨
  (d.frm.ticked = false ∧ target = 0 ∧ n = 1 ∧ late = true)

/-- A command for `target` is refused, as 0 STALE or 1 FAR (R92). -/
def TooFar (d : Dev) (target reason : Nat) : Prop :=
  (d.targetDist target ≤ -2 ∧ reason = 0) ∨ (2 ≤ d.targetDist target ∧ reason = 1)

/-- The commits and MODE commands noted as late, after one that is or is not. -/
def lateCount (d : Dev) (late : Bool) : Nat := if late then Nat.min 4095 (d.frm.late + 1) else d.frm.late

/-- The refusals, after one more. -/
def refusedCount (d : Dev) : Nat := Nat.min 255 (d.frm.refused + 1)

end Sys2Proof.Claims

/-- A commit for the next tick or the one after, none pending for it, enters the table with what is staged,
which is staged no longer; one tick late, it enters for the next tick, counted and raised; further off it is refused as
STALE or FAR, and a second one for a tick, also a late one, as DUP, with the staged sets left. A MODE command enters under the same
rules, DUP where any is pending, when its mode is valid and the level suffices, and is refused as MODE otherwise. Under COMMIT_DELAY a
command is held back and enters later, the one that is due first before the others, with what it took, and is judged by the same
rules then (R92, R94, R227, R400, R412, R469). That a held commit refused as STALE or FAR loses what it took, and passes it on at
DUP, is the model's choice: log 40. -/
def Obligations.CommandsEnterPendingTable : Prop :=
  ∀ s : State,
    (∀ body target deps, s.dev.contentOn = true → Spells body target deps →
      (s.dev.test.commitDelay = 0 → ∀ n late, Lands s.dev target n late →
        (s.dev.frm.holds n = false → Next (.commit body) s (fun t => SameStore s t ∧ (late = true → Pends t 64) ∧
          t.dev.frm = { s.dev.frm with
            commits := s.dev.frm.commits ++ [commitOf s.dev target n deps], late := lateCount s.dev late } ∧
          t.dev.eng = { s.dev.eng with sectStaged := none, symStaged := none, blendStaged := none } ∧
          t.dev = { s.dev with frm := t.dev.frm, eng := t.dev.eng, fw := t.dev.fw, evt := t.dev.evt })) ∧
        (s.dev.frm.holds n = true → Next (.commit body) s (fun t => SameStore s t ∧ (late = true → Pends t 64) ∧ Pends t 65 ∧
          t.dev.frm = { s.dev.frm with late := lateCount s.dev late, refused := refusedCount s.dev, reason := 2 } ∧
          t.dev = { s.dev with frm := t.dev.frm, fw := t.dev.fw, evt := t.dev.evt }))) ∧
      (s.dev.test.commitDelay = 0 → ∀ r, TooFar s.dev target r → Next (.commit body) s (fun t => SameStore s t ∧ Pends t 65 ∧
        t.dev.frm = { s.dev.frm with refused := refusedCount s.dev, reason := r } ∧
        t.dev = { s.dev with frm := t.dev.frm, fw := t.dev.fw, evt := t.dev.evt })) ∧
      (s.dev.test.commitDelay ≠ 0 → Next (.commit body) s (fun t => SameStore s t ∧
        t.dev = { s.dev with
          frm := { s.dev.frm with delayed := s.dev.frm.delayed ++ [{
            isMode := false, commit := commitOf s.dev target target deps, mode := 0
            due := s.dev.now + s.dev.test.commitDelay * 200 }] }
          eng := { s.dev.eng with sectStaged := none, symStaged := none, blendStaged := none } }))) ∧
    (∀ body target m, s.dev.contentOn = true → body.length = 8 → wordAt body 0 = target → wordAt body 1 = m → m < 4 →
      (s.dev.test.commitDelay = 0 → ∀ n late, Lands s.dev target n late →
        (s.dev.frm.modePend = none → s.dev.modeValid m = true → s.dev.minPl m ≤ s.dev.pwr.level.toNat →
          Next (.mode body) s (fun t => SameStore s t ∧ (late = true → Pends t 64) ∧
            t.dev.frm = { s.dev.frm with
              modePend := some { target := n, sent := target, mode := m, at_ := s.dev.now }, late := lateCount s.dev late } ∧
            t.dev = { s.dev with frm := t.dev.frm, fw := t.dev.fw, evt := t.dev.evt })) ∧
        (∀ r, (s.dev.frm.modePend.isSome = true ∧ r = 2) ∨
            (s.dev.frm.modePend = none ∧ (s.dev.modeValid m = false ∨ s.dev.pwr.level.toNat < s.dev.minPl m) ∧ r = 3) →
          Next (.mode body) s (fun t => SameStore s t ∧ (late = true → Pends t 64) ∧ Pends t 65 ∧
            t.dev.frm = { s.dev.frm with late := lateCount s.dev late, refused := refusedCount s.dev, reason := r } ∧
            t.dev = { s.dev with frm := t.dev.frm, fw := t.dev.fw, evt := t.dev.evt }))) ∧
      (s.dev.test.commitDelay = 0 → ∀ r, TooFar s.dev target r → Next (.mode body) s (fun t => SameStore s t ∧ Pends t 65 ∧
        t.dev.frm = { s.dev.frm with refused := refusedCount s.dev, reason := r } ∧
        t.dev = { s.dev with frm := t.dev.frm, fw := t.dev.fw, evt := t.dev.evt })) ∧
      (s.dev.test.commitDelay ≠ 0 → Next (.mode body) s (fun t => SameStore s t ∧ ∃ c, c.target = target ∧ c.sent = target ∧
        t.dev = { s.dev with frm := { s.dev.frm with delayed := s.dev.frm.delayed ++ [{
          isMode := true, commit := c, mode := m, due := s.dev.now + s.dev.test.commitDelay * 200 }] } }))) ∧
    (s.dev.pwr.mainOn = false ∨ s.dev.frm.delayed = [] → exec .delayedCommitEntry s = .next s) ∧
    (∀ before x after, s.dev.pwr.mainOn = true → s.dev.frm.delayed = before ++ x :: after →
      (∀ y ∈ before, x.due < y.due) → (∀ y ∈ after, x.due ≤ y.due) →
      (x.isMode = false → ∀ n late, Lands s.dev x.commit.target n late →
        (s.dev.frm.holds n = false → Next .delayedCommitEntry s (fun t => SameStore s t ∧ (late = true → Pends t 64) ∧
          t.dev.eng = s.dev.eng ∧ t.dev.frm = { s.dev.frm with
            delayed := before ++ after, late := lateCount s.dev late
            commits := s.dev.frm.commits ++ [{ x.commit with target := n, at_ := s.dev.now }] })) ∧
        (s.dev.frm.holds n = true → Next .delayedCommitEntry s (fun t => SameStore s t ∧ (late = true → Pends t 64) ∧ Pends t 65 ∧
          t.dev.eng = s.dev.eng ∧ t.dev.frm = { s.dev.frm with
            delayed := before ++ after, late := lateCount s.dev late, refused := refusedCount s.dev, reason := 2
            commits := s.dev.frm.commits.map (fun o => if o.target = n then { o with
              sect := o.sect.or x.commit.sect, sym := o.sym.or x.commit.sym, blend := o.blend.or x.commit.blend } else o) }))) ∧
      (∀ target r, target = (if x.isMode then x.commit.sent else x.commit.target) → TooFar s.dev target r →
        Next .delayedCommitEntry s (fun t => SameStore s t ∧ Pends t 65 ∧ t.dev.eng = s.dev.eng ∧
          t.dev.frm = { s.dev.frm with delayed := before ++ after, refused := refusedCount s.dev, reason := r })) ∧
      (x.isMode = true → ∀ n late, Lands s.dev x.commit.sent n late → s.dev.frm.modePend = none → s.dev.modeValid x.mode = true →
        s.dev.minPl x.mode ≤ s.dev.pwr.level.toNat → Next .delayedCommitEntry s (fun t => SameStore s t ∧ (late = true → Pends t 64) ∧
          t.dev.eng = s.dev.eng ∧ t.dev.frm = { s.dev.frm with
            delayed := before ++ after, late := lateCount s.dev late
            modePend := some { target := n, sent := x.commit.sent, mode := x.mode, at_ := s.dev.now } })))

namespace Sys2Proof.Claims

/-- The OVERFLOW packet that goes before the replies, where some were dropped (R238). -/
def overflowPacket (s : State) : Bytes := if s.dev.fw.overflow = 0 then [] else packet 0x88 (word32 s.dev.fw.overflow)

end Sys2Proof.Claims

/-- Credits and replies: a throttled window is counted with event 70; a freed VC0 buffer returns its credit unless HOLD0
withholds it; a whole generation becomes its buffer's last complete one and READY is replied; a free slot carries the
oldest replies that wait, in order and as many as fit behind the OVERFLOW packet, at least one where one fits, or IDLE where a witness
payload does not wait for it either; without LRX no
generation completes; and a witness slot the statistics or the next drive payload, under the next number (R166, R213,
R216, R220, R231, R237, R238, R239, R469). Where it rests on the model's own reading or choice: log 42 and 47. -/
def Obligations.CreditsAndRepliesComplete : Prop :=
  ∀ s : State,
    (s.dev.fairwayOn = true → Next .linkThrottle s (fun t => SameStore s t ∧ Raises s t (if s.dev.fw.throttled then [70] else []) ∧
      t.dev.frm = { s.dev.frm with
        throttle := if s.dev.fw.throttled then Nat.min 65535 (s.dev.frm.throttle + 1) else s.dev.frm.throttle } ∧
      t.dev = { s.dev with frm := t.dev.frm, evt := t.dev.evt, fw := { s.dev.fw with vc1Bytes := 0, throttled := false } })) ∧
    (s.dev.fairwayOn = true → 0 < s.dev.fw.held0 →
      (s.dev.test.hold0 ≤ s.dev.fw.kept0 → Next .vc0BufferFree s (fun t => SameStore s t ∧
        t.dev = { s.dev with fw := { s.dev.fw with
          held0 := s.dev.fw.held0 - 1, limit0 := (s.dev.fw.limit0 + 1) % 256 } })) ∧
      (s.dev.fw.kept0 < s.dev.test.hold0 → Next .vc0BufferFree s (fun t => SameStore s t ∧
        t.dev = { s.dev with fw := { s.dev.fw with
          held0 := s.dev.fw.held0 - 1, kept0 := s.dev.fw.kept0 + 1, limit0 := s.dev.fw.limit0 % 256 } }))) ∧
    (∀ b, s.dev.fairwayOn = false → exec (.generationComplete b) s = .next s) ∧
    (∀ b g, s.dev.fairwayOn = true → (SMap.get {} s.dev.fw.bufs b).gen = some g → (SMap.get {} s.dev.fw.bufs b).gotLast = true →
      (SMap.get {} s.dev.fw.bufs b).lost = false → (∀ w ∈ s.dev.fw.writes, w.buf ≠ b ∨ w.gen ≠ some g) →
      s.dev.fw.replies.length < 256 →
      Next (.generationComplete b) s (fun t => SameStore s t ∧
        (SMap.get {} t.dev.fw.bufs b).ready = g ∧ (SMap.get {} t.dev.fw.bufs b).hasReady = true ∧
        (SMap.get {} t.dev.fw.bufs b).gen = none ∧ (∀ c, c ≠ b → SMap.get {} t.dev.fw.bufs c = SMap.get {} s.dev.fw.bufs c) ∧
        t.dev = { s.dev with fw := { s.dev.fw with
          bufs := t.dev.fw.bufs, replies := s.dev.fw.replies ++ [packet 0x85 (word32 (packNat [(b, 0, 8), (g, 8, 16)]))] } })) ∧
    (s.dev.txOn = true →
      (s.dev.replyReady = true → Next .replyFrame s (fun t => SameStore s t ∧ t.dev.fw.txFrame.take 1 = [4] ∧
        (∃ out body, s.dev.fw.replies = out ++ t.dev.fw.replies ∧ body = overflowPacket s ++ out.flatten ∧ body.length ≤ 2048 ∧
          (∀ p ∈ s.dev.fw.replies.head?, (overflowPacket s).length + p.length ≤ 2048 → out ≠ []) ∧
          (∀ p ∈ t.dev.fw.replies.head?, 2048 < body.length + p.length) ∧
          t.dev.fw.txFrame = s.frameOut 4 body.length s.dev.fw.txNext [] body ∧
          (encFor s.dev.ses.mode 4 = false → slice t.dev.fw.txFrame 16 body.length = body)) ∧
        t.dev = { s.dev with
          link := s.dev.link.sendFrame t.dev.fw.txFrame
          fw := { s.dev.fw with
            txFrame := t.dev.fw.txFrame, txNext := s.dev.fw.txNext + 1, replies := t.dev.fw.replies, overflow := 0
            sinceReply := 0 } })) ∧
      (s.dev.witnessReady = true → s.dev.replyReady = false → exec .replyFrame s = .next s) ∧
      (s.dev.witnessReady = false → s.dev.replyReady = false → Next .replyFrame s (fun t => SameStore s t ∧ t.dev.fw.txFrame.take 1 = [0] ∧
        slice t.dev.fw.txFrame 6 2 = [BitVec.ofNat 8 s.dev.fw.limit0, BitVec.ofNat 8 s.dev.fw.limit1] ∧
        t.dev = { s.dev with
          link := s.dev.link.sendFrame t.dev.fw.txFrame
          fw := { s.dev.fw with
            txFrame := t.dev.fw.txFrame, sinceReply := Nat.min 32 (s.dev.fw.sinceReply + 1) } })) ∧
      (s.dev.link.txSet = 3 → s.dev.mayNumber = true → s.dev.witnessWaits = true →
        ∀ bb, Next (.witnessFrame bb) s (fun t => SameStore s t ∧ t.dev.fw.txFrame.take 1 = [5] ∧
          t.dev.link = s.dev.link.sendFrame t.dev.fw.txFrame ∧
          t.dev.fw = { s.dev.fw with
            txFrame := t.dev.fw.txFrame, txNext := s.dev.fw.txNext + 1, sinceReply := Nat.min 32 (s.dev.fw.sinceReply + 1) } ∧
          (∀ k bs rest, s.dev.wit.late = (k, bs) :: rest →
            slice t.dev.fw.txFrame 8 6 = toBe 4 s.dev.wit.stats.tick ++ toBe 2 k ∧
            t.dev.wit = { s.dev.wit with frames := Nat.min 0xFFFFFFFF (s.dev.wit.frames + 1), late := rest }) ∧
          (s.dev.wit.late = [] → s.dev.wit.statsDue = true →
            slice t.dev.fw.txFrame 8 6 = toBe 4 s.dev.wit.stats.tick ++ toBe 2 1056 ∧
            t.dev = { s.dev with fw := t.dev.fw, link := t.dev.link, wit := { s.dev.wit with
              frames := Nat.min 0xFFFFFFFF (s.dev.wit.frames + 1), statsDue := false, lastTick := s.dev.wit.stats.tick } }) ∧
          (s.dev.wit.late = [] → s.dev.wit.statsDue = false →
            slice t.dev.fw.txFrame 8 6 = toBe 4 ((s.dev.comp.tick + 1) % 2 ^ 32) ++ toBe 2 s.dev.wit.next ∧
            t.dev.wit = { s.dev.wit with
              frames := Nat.min 0xFFFFFFFF (s.dev.wit.frames + 1), next := s.dev.wit.next + 1 } ∧
            (∀ e ∈ bb, e.bad = true → e.p / 1024 = s.dev.wit.next → SMap.get 0 t.dev.eng.bbuf e.p = 0)) ∧
          (bb = [] → t.dev = { s.dev with fw := t.dev.fw, link := t.dev.link, wit := t.dev.wit }))))

namespace Sys2Proof.Claims

/-- The handshake has failed with a reason and the session is as it was (R363, R372). -/
def HandshakeFailed (s t : State) (reason : Nat) : Prop :=
  t.dev.ses.hs = none ∧ t.dev.ses.fails = Nat.min 65535 (s.dev.ses.fails + 1) ∧ t.dev.ses.keys = s.dev.ses.keys ∧
  t.dev.ses.mode = s.dev.ses.mode ∧ Pends t 116 ∧ Sends s t [mkMsg 0xC8 0x34 0 reason]

/-- Where the link transmits, in START too, a SESSION frame with MSG `msg` has gone out (R359, R360, R395). -/
def Answers (s t : State) (msg : Nat) : Prop :=
  s.dev.link.txSet ≠ 0 → t.dev.fw.txFrame.take 1 = [3] ∧ slice t.dev.fw.txFrame 8 1 = [BitVec.ofNat 8 msg]

/-- The handshake has failed, and ABORT has gone out with its reason, where the link transmits (R360, R363, R395). -/
def Aborted (s t : State) (reason : Nat) : Prop :=
  HandshakeFailed s t reason ∧ Answers s t 6 ∧
  (s.dev.link.txSet ≠ 0 → slice t.dev.fw.txFrame 16 1 = [BitVec.ofNat 8 reason])

end Sys2Proof.Claims

/-- A session: HELLO_H without a unit key or section 14 fails with reason 5, from a certificate that is not accepted with
1, for a mode below MIN_MODE or above 2 with 3, each answered by ABORT, in START too, and is otherwise answered by HELLO_D and a
handshake of its attempt; FINISH_H under the host's
signature brings the session up with its keys, number 0 in both directions and event 115, and under another fails with
reason 2; ABORT fails with the host's reason and a timeout with 6; REKEY goes out once numbers run out, and again until a
handshake begins (R216, R359, R360, R362, R363, R364, R372, R395). Where it rests on the model's own reading or choice: log 31
and 57. -/
def Obligations.SessionEventsComplete : Prop :=
  (∀ (s : State) (f p q : Bytes), s.dev.rxOn = true → s.dev.checkFrame f = .good p → fType f = 3 → q = p.take (fLen f) →
    (fField f 8 1 = 1 → Next (.helloH f) s (fun t => SameStore s t ∧
      (s.dev.sec.keyOk = false ∨ s.dev.has 14 = false → Aborted s t 5) ∧
      (s.dev.sec.keyOk = true → s.dev.has 14 = true →
        (Config.certInfo (helloCert q) = none → Aborted s t 1) ∧
        (∀ c, Config.certInfo (helloCert q) = some c →
          (s.dev.certOk c = false → Aborted s t 1) ∧
          (s.dev.certOk c = true → helloMode q < s.dev.minMode ∨ 2 < helloMode q → Aborted s t 3) ∧
          (s.dev.certOk c = true → s.dev.minMode ≤ helloMode q → helloMode q ≤ 2 →
            Answers s t 2 ∧ t.dev.ses.keys = s.dev.ses.keys ∧ t.dev.sec = { s.dev.sec with draws := s.dev.sec.draws + 3 } ∧
            ∃ h, t.dev.ses.hs = some h ∧ h.helloH = q ∧ h.attempt = fAttempt f ∧ h.hostPub = c.pub ∧
              h.mode = helloMode q ∧ h.at_ = s.dev.now))))) ∧
    (∀ h, fField f 8 1 = 3 → s.dev.ses.hs = some h → fAttempt f = h.attempt → Next (.finishH f) s (fun t => SameStore s t ∧
      (Config.ecdsaVerify h.hostPub (Config.sha256 (h.helloH ++ h.helloD)) (q.take 64) = false → Aborted s t 2) ∧
      (Config.ecdsaVerify h.hostPub (Config.sha256 (h.helloH ++ h.helloD)) (q.take 64) = true →
        Answers s t 4 ∧ t.dev.ses.keys = some (h.keys q) ∧ t.dev.ses.mode = h.mode ∧ t.dev.ses.oldKeys = s.dev.ses.keys ∧ t.dev.ses.hs = none ∧
        t.dev.fw.rxNext = 0 ∧ t.dev.fw.txNext = 0 ∧ t.dev.fw.rxNextOld = s.dev.fw.rxNext ∧ Pends t 115 ∧
        (s.dev.ses.keys.isSome = true → Pends t 117) ∧ t.dev.ses.handshakes = Nat.min 65535 (s.dev.ses.handshakes + 1)))) ∧
    (∀ h, fField f 8 1 = 6 → s.dev.ses.hs = some h → fAttempt f = h.attempt →
      Next (.abort f) s (fun t => SameStore s t ∧ HandshakeFailed s t (beNat (q.take 1))))) ∧
  (∀ s : State,
    (s.dev.ses.hs.isSome = true → s.dev.pwr.mainOn = true → Next .handshakeTimeout s (fun t => SameStore s t ∧ HandshakeFailed s t 6 ∧ Raises s t [116] ∧
      t.dev = { s.dev with ses := t.dev.ses, evt := t.dev.evt, keep := t.dev.keep })) ∧
    (s.dev.txOn = true → s.dev.ses.up = true → s.dev.fw.runsOut = true → s.dev.ses.rekeySent = false → s.dev.ses.hs = none →
      Next .rekey s (fun t => SameStore s t ∧ t.dev.fw.txFrame.take 1 = [3] ∧ slice t.dev.fw.txFrame 8 1 = [5] ∧
        t.dev = { s.dev with
          ses := { s.dev.ses with rekeySent := true }, fw := { s.dev.fw with txFrame := t.dev.fw.txFrame }
          link := s.dev.link.sendFrame t.dev.fw.txFrame })) ∧
    (s.dev.txOn = true → s.dev.ses.rekeySent = true →
      Next .rekeyRepeat s (fun t => SameStore s t ∧ t.dev.fw.txFrame.take 1 = [3] ∧ slice t.dev.fw.txFrame 8 1 = [5] ∧
        t.dev = { s.dev with
          fw := { s.dev.fw with txFrame := t.dev.fw.txFrame }, link := s.dev.link.sendFrame t.dev.fw.txFrame })))

/-- The Keeper, while its domain is on and its clock runs: a message joins its source's FIFO, or is dropped and counted with event 14 when that holds four; a take
empties the FIFO and logs the message with its severity and the next sequence number, classified by the built-in defaults
before the table is loaded, and one with ATTN raises the event of its severity, one with SAFE sets the latch, with event 11 once;
the Keeper's own messages set SAFE with cause 3 or 4; a consequential message is logged and has
no reaction; a parity error and a clock that resumes send their message on the direct path; the loss of the KEEP clock
sets SAFE with cause 0, which its return makes 4, and the time it stood still is not counted; work that has waited for the clock acts
then, and after it the transactions that have waited, in their order. Outside every consequence window and SAFE the reactions act: ISOLATE_PIXEL isolates the pixel of a tile's message with its tie
partner, TIE_PAIR ties a pair of GOOD pixels, TILE_DARK makes the tile dark and excludes it, GIVE_UP makes the active instance give up
to its standby with cause 0x10, and DIP and STANDALONE are held at the severity with events 17 and 18 (R300, R302, R305, R306,
R307, R310, R316 to R318, R322, R325, R448). Where it rests on the model's own reading or choice: log 13, 14, 23, 137 and 152. -/
def Obligations.KeeperHandlesMessages : Prop :=
  ∀ s : State,
    (s.dev.keeperRuns = false → exec .keeperMessage s = .next s ∧ exec .keeperTake s = .next s ∧
      exec .consequenceWindowClose s = .next s ∧ exec .keeperRegisterCheck s = .next s ∧
      ∀ a, exec (.keeperParity a) s = .next s) ∧
    (∀ m rest, s.dev.keeperRuns = true → s.dev.keep.transit = m :: rest →
      ((s.dev.keep.fifos.filter (fun x => x.source == m.source)).length < 4 → Next .keeperMessage s (fun t => SameStore s t ∧
        t.dev = { s.dev with keep := { s.dev.keep with transit := rest, fifos := s.dev.keep.fifos ++ [m] } })) ∧
      (4 ≤ (s.dev.keep.fifos.filter (fun x => x.source == m.source)).length → Next .keeperMessage s (fun t => SameStore s t ∧
        Raises s t [14] ∧ t.dev = { s.dev with
          keep := { s.dev.keep with transit := rest, dropped := Nat.min 255 (s.dev.keep.dropped + 1) }, evt := t.dev.evt }))) ∧
    (∀ m, s.dev.keeperRuns = true → s.dev.keep.fifos = [m] → s.dev.keep.direct = [] →
      Next .keeperTake s (fun t => t.mem = s.mem ∧ t.otp = s.otp ∧ t.cells = s.cells ∧ t.dev.keep.fifos = [] ∧
        (∃ h rest, t.dev.keep.hist = h :: rest ∧ h.msg = m ∧ h.sev = BitVec.ofNat 2 (s.dev.classify m).sev ∧
          h.seq = BitVec.ofNat 16 (s.dev.keep.received + 1)) ∧
        t.dev.keep.received = (s.dev.keep.received + 1) % 2 ^ 32 ∧
        (s.dev.keep.windows = [] → bit (s.dev.classify m).react 1 = true → (s.dev.classify m).sev < 3 →
          Pends t (8 + (s.dev.classify m).sev)) ∧
        (s.dev.keep.windows = [] → bit (s.dev.classify m).react 9 = true → s.lat.safe = false →
          t.lat = { s.lat with safe := true, safeCause := BitVec.ofNat 3 (s.dev.classify m).cause } ∧ Pends t 11) ∧
        (s.lat.safe = true ∨ bit (s.dev.classify m).react 9 = false → t.lat = s.lat ∧ (Pends t 11 ↔ Pends s 11)) ∧
        (∀ w ∈ s.dev.keep.windows, w.covers m = true → (s.dev.classify m).sev ≠ 3 → (s.dev.classify m).hardwired = false →
          t.lat = s.lat ∧ t.dev.tiles = s.dev.tiles ∧ t.dev.chg = s.dev.chg ∧ t.dev.keep.first = s.dev.keep.first ∧
          t.dev.keep.sevCnt = s.dev.keep.sevCnt ∧ t.dev.keep.conseq = Nat.min 65535 (s.dev.keep.conseq + 1)))) ∧
    (∀ m, s.dev.keeperRuns = true → s.dev.keep.fifos = [m] → s.dev.keep.direct = [] → s.dev.keep.windows = [] → s.lat.safe = false →
      Next .keeperTake s (fun t =>
        (bit (s.dev.classify m).react 3 = true → ∀ p, p = bits m.addr.toNat 0 21 → p < nPixels → tileOf p = m.source.toNat →
          srcTile m.source.toNat = true → m.kind = 0x09 ∨ m.kind = 0x0A ∨ m.kind = 0x0C → (s.dev.pix p).isolated = false →
          (t.dev.pix p).isolated = true ∧ (t.dev.pix p).cls = (if m.kind = 0x09 then 1 else 2) ∧
          (∀ q, s.dev.partner p = some q → (t.dev.pix q).isolated = true)) ∧
        (bit (s.dev.classify m).react 4 = true → m.kind = 0x0B → ∀ p q v, pairOf m.addr.toNat = some (p, q, v) →
          tileOf p = m.source.toNat → (s.dev.pix p).cls = 0 → (s.dev.pix q).cls = 0 → s.dev.diag.ties.length < 4096 →
          (t.dev.pix p).cls = 3 ∧ (t.dev.pix q).cls = 3 ∧ t.dev.diag.ties = s.dev.diag.ties ++ [(p, v)] ∧ Pends t 82 ∧
          .pixels [p, q] [tileOf p, tileOf q] ∈ t.dev.keep.windows) ∧
        (bit (s.dev.classify m).react 5 = true → srcTile m.source.toNat = true → s.dev.isDark m.source.toNat = false →
          (t.dev.tile m.source.toNat).dark = true ∧ (t.dev.tile m.source.toNat).excluded = true ∧ Pends t 79 ∧
          .tile m.source.toNat ∈ t.dev.keep.windows) ∧
        (bit (s.dev.classify m).react 6 = true → ∀ u, s.dev.giveUpTarget m = some u → s.dev.chg.is u .active = true →
          s.dev.chg.is (unitPartner u) .standby = true → (s.dev.chg.pair u).third (unitB u) s.dev.lampMs = false →
          t.dev.chg.is u .selftest = true ∧ t.dev.chg.is (unitPartner u) .active = true ∧ t.dev.chg.lastCause = 0x10 ∧
          t.dev.chg.lastSource = unitSource u ∧ Pends t 96) ∧
        (bit (s.dev.classify m).react 7 = true →
          t.dev.keep.dip = s.dev.keep.dip ||| (1#4 <<< (s.dev.classify m).sev) ∧ (s.dev.keep.dipHeld = false → Pends t 17)) ∧
        (bit (s.dev.classify m).react 8 = true →
          t.dev.keep.standalone = s.dev.keep.standalone ||| (1#4 <<< (s.dev.classify m).sev) ∧
          (s.dev.keep.standaloneHeld = false → Pends t 18)))) ∧
    (∀ m, s.dev.keep.tableLoaded = false → m.source ≠ 0xFF → m.kind ≠ 0x11 →
      (s.dev.classify m).sev = m.sev.toNat ∧
      (s.dev.classify m).react = (if m.sev = 0 then 0x001 else if m.sev = 3 then 0x207 else 0x007)) ∧
    (∀ m, s.dev.keeperRuns = true → s.dev.keep.fifos = [] → s.dev.keep.direct = [m] → m.source = 0xFF →
      s.lat.safe = false → Next .keeperTake s (fun t => t.mem = s.mem ∧ t.otp = s.otp ∧ t.cells = s.cells ∧
        t.lat = { s.lat with safe := true, safeCause := if m.kind = 0x3D then 4 else 3 } ∧ Pends t 11)) ∧
    (s.dev.keeperRuns = true → Next .consequenceWindowClose s (fun t => SameStore s t ∧
      t.dev = { s.dev with keep := { s.dev.keep with windows := s.dev.keep.windows.drop 1 } })) ∧
    (∀ a, s.dev.keeperRuns = true → Next (.keeperParity a) s (fun t => SameStore s t ∧ SendsDirect s t [mkMsg 0xFF 0x3C 3 a] ∧
      t.dev = { s.dev with keep := t.dev.keep })) ∧
    (s.dev.pwr.keepDomain = true → s.dev.keep.clockLost = false → s.lat.safe = false → Next .keepClockLoss s (fun t =>
      t.mem = s.mem ∧ t.otp = s.otp ∧ t.cells = s.cells ∧ t.lat = { s.lat with safe := true, safeCause := 0 } ∧ Pends t 11 ∧
      t.dev.keep.clockLost = true ∧ t.dev.keep.lostAt = s.dev.now)) ∧
    (∀ (i : BitVec 4) crc, s.dev.pwr.keepDomain = true → s.dev.keep.clockLost = true → s.dev.test.later = [] →
      s.dev.mgmt.waiting = [.write 0x0814 (i.setWidth 32) crc] → crc = s.dev.mgmt.writeCrc 0x0814 (i.setWidth 32) →
      s.judge 0x0814 true (i.setWidth 32) = 0 → Next .keepClockResume s (fun t => t.dev.mgmt.waiting = [] ∧
        t.dev.mgmt.lastWAddr = 0x0814 ∧ t.dev.mgmt.lastWStatus = 0 ∧
        t.dev.keep.histSel = i.toNat ∧ t.dev.keep.histView = s.dev.keep.hist[i.toNat]?)) ∧
    (∀ g, s.dev.pwr.keepDomain = true → s.dev.keep.clockLost = true → s.dev.test.later = [g] → s.dev.mgmt.waiting = [] →
      Next .keepClockResume s (fun t => t.dev.test.later = [] ∧
        (∀ x, g = .exclude x → (t.dev.tile x).excluded = true ∧ ((s.dev.tile x).excluded = false → Pends t 16)) ∧
        (g = .tableLoaded → t.dev.keep.tableLoaded = true) ∧
        (g = .tableAbandoned → t.dev.keep.tableLoaded = false ∧ t.dev.keep.windows = [] ∧ t.dev.keep.dip = 0 ∧
          t.dev.keep.standalone = 0 ∧ t.dev.keep.hist = s.dev.keep.hist))) ∧
    (s.dev.pwr.keepDomain = true → s.dev.keep.clockLost = true → s.dev.test.later = [] → Next .keepClockResume s (fun t =>
      ∃ u : State, t = s.dev.mgmt.waiting.foldl State.portDo u ∧
      u.mem = s.mem ∧ u.otp = s.otp ∧ u.cells = s.cells ∧ u.lat.safe = s.lat.safe ∧
      u.lat = { s.lat with safeCause := u.lat.safeCause } ∧
      u.lat.safeCause = (if s.lat.safe = true ∧ s.lat.safeCause = 0 then 4 else s.lat.safeCause) ∧
      u.dev.keepSince = s.dev.keepSince ∧
      u.dev = { s.dev with
        mgmt := { s.dev.mgmt with waiting := [] }
        keep := { s.dev.keep with
          clockLost := false, stood := u.dev.keep.stood, direct := s.dev.keep.direct ++ [mkMsg 0xFF 0x3D 3 0] } })) ∧
    (s.dev.keeperRuns = true → Next .keeperRegisterCheck s (fun t => SameStore s t ∧
      t.dev = { s.dev with keep := { s.dev.keep with unchecked := false } }))

/-- The lamp changer: an active instance that gives up, for one of the causes of its unit and while it checks itself, leaves service for SELFTEST, or at its third time within 3,600 s for good,
and a standby partner takes over; without one TAKEOVER_FAIL is sent, of severity 1 for a tile reference and 3 for an engine or a
timebase. While SAFE is asserted the give-up of an engine or a timebase is logged and nothing more, and a tile reference is taken over or,
without a standby, its tile made dark. A standby's parity fault takes it out of service without a takeover. A self-test that passes leads to RESYNC, and at the
resynchronisation point, its own, to STANDBY; one that fails retires the instance. A unit that is not active does not give up; one
whose give-up of this KEEP cycle was the Keeper's is recorded under its own cause instead, and nothing gives up twice. Without the
KEEP clock the lamp changer does nothing (R16, R318, R326, R327, R328, R332, R333, R334, R337). That a KEEP cycle is a cycle of the
model's clock is the model's choice: log 133. -/
def Obligations.LampChangerTakesOver : Prop :=
  ∀ (s : State) (u : UnitRef), unitExists u = true →
    (∀ cause, s.dev.selfChecks u = false ∨ cause ∉ UnitRef.causes u → exec (.giveUp u cause) s = .next s) ∧
    (s.dev.keeperRuns = false → (∀ cause, exec (.giveUp u cause) s = .next s) ∧ exec (.standbyParityFault u) s = .next s ∧
      exec (.selftestPass u) s = .next s ∧ (∀ test, exec (.selftestFail u test) s = .next s) ∧ exec (.resync u) s = .next s) ∧
    (∀ cause, s.dev.chg.is u .active = false → s.dev.gaveUpNow u = none → exec (.giveUp u cause) s = .next s) ∧
    (∀ cause g, s.dev.selfChecks u = true → cause ∈ UnitRef.causes u → s.dev.chg.is u .active = false → s.dev.gaveUpNow u = some g →
      g.b = unitB u → g.cause = 0x10 → s.dev.chg.lastSource = unitSource u → s.dev.chg.lastB = unitB u →
      Next (.giveUp u cause) s (fun t => SameStore s t ∧ t.dev.chg.lastCause = cause ∧
        (∀ v st, t.dev.chg.is v st = s.dev.chg.is v st) ∧
        t.dev.keep = { s.dev.keep with direct := s.dev.keep.direct.map (fun m =>
          if m = mkMsg (unitSource u) 0x10 2 0x10 then mkMsg (unitSource u) 0x10 2 cause else m) } ∧
        t.dev = { s.dev with chg := t.dev.chg, keep := t.dev.keep })) ∧
    (∀ cause, s.dev.selfChecks u = true → cause ∈ UnitRef.causes u → s.lat.safe = false → s.dev.chg.is u .active = true → Next (.giveUp u cause) s (fun t => SameStore s t ∧
      mkMsg (unitSource u) 0x10 2 cause ∈ t.dev.keep.direct ∧ t.dev.chg.lastCause = cause ∧ t.dev.chg.lastSource = unitSource u ∧
      ((s.dev.chg.pair u).third (unitB u) s.dev.lampMs = false → t.dev.chg.is u .selftest = true) ∧
      ((s.dev.chg.pair u).third (unitB u) s.dev.lampMs = true → t.dev.chg.is u .retired = true ∧ Pends t 101 ∧
        mkMsg (unitSource u) 0x13 1 0 ∈ t.dev.keep.direct) ∧
      (s.dev.chg.is (unitPartner u) .standby = true → t.dev.chg.is (unitPartner u) .active = true ∧ Pends t 96) ∧
      (∀ st, st ≠ .standby → s.dev.chg.is (unitPartner u) st = true → t.dev.chg.is (unitPartner u) st = true ∧ Pends t 97 ∧
        mkMsg (unitSource u) 0x11 (if unitCentral u then 3 else 1) 0 ∈ t.dev.keep.direct))) ∧
    (∀ cause, s.dev.selfChecks u = true → cause ∈ UnitRef.causes u → s.lat.safe = true → s.dev.chg.is u .active = true →
      (unitCentral u = true → Next (.giveUp u cause) s (fun t => SameStore s t ∧ SendsDirect s t [mkMsg (unitSource u) 0x10 2 cause] ∧
        t.dev = { s.dev with
          keep := t.dev.keep
          chg := { s.dev.chg with
            lastSource := unitSource u, lastCause := cause, lastB := unitB u, lastFailed := false, lastTick := s.dev.frm.tick } })) ∧
      (∀ x b, u = .tileRef x b → Next (.giveUp u cause) s (fun t => SameStore s t ∧ mkMsg (unitSource u) 0x10 2 cause ∈ t.dev.keep.direct ∧
        (s.dev.chg.is (unitPartner u) .standby = true → t.dev.chg.is (unitPartner u) .active = true ∧ Pends t 96) ∧
        (s.dev.chg.is (unitPartner u) .standby = false → (t.dev.tile x).dark = true ∧ Pends t 97 ∧
          mkMsg (unitSource u) 0x11 1 0 ∈ t.dev.keep.direct)))) ∧
    (s.dev.selfChecks u = true → s.dev.chg.is u .standby = true → (s.dev.chg.pair u).third (unitB u) s.dev.lampMs = false →
      Next (.standbyParityFault u) s (fun t => SameStore s t ∧ t.dev.chg.is u .selftest = true ∧ t.dev.chg.lastCause = 2 ∧
        SendsDirect s t [mkMsg (unitSource u) 0x10 2 2] ∧ (∀ st, t.dev.chg.is (unitPartner u) st = s.dev.chg.is (unitPartner u) st) ∧
        t.dev = { s.dev with chg := t.dev.chg, keep := t.dev.keep })) ∧
    (s.dev.keeperRuns = true → s.dev.chg.is u .selftest = true →
      Next (.selftestPass u) s (fun t => SameStore s t ∧ t.dev.chg.is u .resync = true ∧ Raises s t [98] ∧
        (∀ st, t.dev.chg.is (unitPartner u) st = s.dev.chg.is (unitPartner u) st) ∧
        t.dev = { s.dev with chg := t.dev.chg, evt := t.dev.evt }) ∧
      (∀ test, Next (.selftestFail u test) s (fun t => SameStore s t ∧ t.dev.chg.is u .retired = true ∧ Raises s t [99, 101] ∧
        SendsDirect s t [mkMsg (unitSource u) 0x12 1 test] ∧ t.dev.chg.runFails = Nat.min 65535 (s.dev.chg.runFails + 1) ∧
        (∀ st, t.dev.chg.is (unitPartner u) st = s.dev.chg.is (unitPartner u) st) ∧
        t.dev = { s.dev with chg := t.dev.chg, evt := t.dev.evt, keep := t.dev.keep }))) ∧
    (s.dev.keeperRuns = true → s.dev.chg.is u .resync = true → (s.dev.chg.pair u).met (unitB u) = true →
      Next (.resync u) s (fun t => SameStore s t ∧ t.dev.chg.is u .standby = true ∧ Raises s t [100] ∧
        (t.dev.chg.pair u).met (!unitB u) = (s.dev.chg.pair u).met (!unitB u) ∧
        (∀ st, t.dev.chg.is (unitPartner u) st = s.dev.chg.is (unitPartner u) st) ∧
        t.dev = { s.dev with chg := t.dev.chg, evt := t.dev.evt }))

namespace Sys2Proof.Claims

/-- Request `r` at the head of the queue of bank `b` has been served: it has left that queue, which goes on with `rest` and with what the
write queue has passed to it since, and its port alone has its credit back (R248, R249). -/
def Served (s t : State) (ch b : Nat) (r : Req) (rest : List Req) : Prop :=
  (∃ more, t.dev.bankQueue ch b = rest ++ more) ∧
  ((s.dev.memc.chan ch).writeQ = [] → t.dev.bankQueue ch b = rest) ∧
  t.dev.memc.credit r.port = s.dev.memc.credit r.port + 1 ∧ ∀ p, p ≠ r.port → t.dev.memc.credit p = s.dev.memc.credit p

end Sys2Proof.Claims

/-- Layer memory: a request to no granule faults (the model's own stop); one that its port does not serve is none, and one
without a credit is held; a read with a credit joins the queue of its bank, or takes the youngest older write to its granule; a
write with a credit waits for its bank; VC1 data beyond the rate bound waits. While a refresh or retraining occupies a channel
nothing is transferred on it, and while it retrains the levels are compared with the watermarks all the same. The transfer of the request that R249 picks writes its bytes at its address and nowhere else, or reads
the granule; the request leaves the queue of its bank, and its port has its credit back. A refresh that cannot be deferred is forced; the end of a window of 1,048,576 granule reads, and nothing before it, starts a new count;
the fallback copy
is taken whole, its reads answered from queued writes counted as forwarded and its corrected errors as corrected. With MEM off
nothing is served (R17, R243, R246 to R252, R255, R256, R259). Where it rests on the model's own reading or choice: log
5, 52, 56, 90, 150, 159 and 160. -/
def Obligations.LayerMemoryServesRequests : Prop :=
  ∀ s : State, (∀ x ∈ s.dev.memc.late, s.dev.now < x.due) → s.dev.memc.held = [] →
    (∀ p a, granule a = false → exec (.memRequest (.read p a)) s = .fault (.noGranule a) ∧
      ∀ data, exec (.memRequest (.write p a data)) s = .fault (.noGranule a)) ∧
    (∀ p a, granule a = true → s.dev.dramOn = true → s.dev.requests p false a = false → exec (.memRequest (.read p a)) s = .next s) ∧
    (∀ p a, granule a = true → s.dev.dramOn = true → s.dev.requests p false a = true → s.dev.memc.credit p = 0 →
      Next (.memRequest (.read p a)) s (fun t => SameStore s t ∧ t.dev = { s.dev with memc := { s.dev.memc with
        held := [{ port := p, addr := a, write := false, data := [] }] } })) ∧
    (∀ p a, granule a = true → s.dev.dramOn = true → s.dev.memc.credit p ≠ 0 → s.dev.requests p false a = true →
      s.dev.memc.chans.length = 2 →
      (∀ w, (s.dev.memc.chan (chOf a)).forward a = some w → Next (.memRequest (.read p a)) s (fun t => SameStore s t ∧
        t.dev = { s.dev with memc := { s.dev.memc with
          forwarded := Nat.min 65535 (s.dev.memc.forwarded + 1), readData := w.data, readPoison := false } })) ∧
      ((s.dev.memc.chan (chOf a)).forward a = none → (s.dev.bankQueue (chOf a) (s.dev.bankOf a)).length < 16 →
        Next (.memRequest (.read p a)) s (fun t => SameStore s t ∧ t.dev.memc.credit p + 1 = s.dev.memc.credit p ∧
          (t.dev.memc.chan (chOf a)).queue = (s.dev.memc.chan (chOf a)).queue ++ [{ port := p, addr := a, write := false, data := [] }] ∧
          t.dev = { s.dev with memc := t.dev.memc }))) ∧
    (∀ p a data, granule a = true → s.dev.dramOn = true → s.dev.memc.credit p ≠ 0 → s.dev.requests p true a = true → p ≠ .fww →
      s.dev.memc.chans.length = 2 → (s.dev.memc.chan (chOf a)).writeQ = [] →
      (s.dev.bankQueue (chOf a) (s.dev.bankOf a)).length < 16 →
      Next (.memRequest (.write p a data)) s (fun t => SameStore s t ∧ t.dev.memc.credit p + 1 = s.dev.memc.credit p ∧
        (t.dev.memc.chan (chOf a)).writeQ = [] ∧
        (t.dev.memc.chan (chOf a)).queue = (s.dev.memc.chan (chOf a)).queue ++
          [{ port := p, addr := a, write := true, data := padTo 32 data }] ∧
        t.dev = { s.dev with memc := t.dev.memc })) ∧
    (s.dev.pwr.mainOn = false → exec (.memRequest .fww) s = .next s ∧
      ∀ p a data, granule a = true → exec (.memRequest (.read p a)) s = .next s ∧ exec (.memRequest (.write p a data)) s = .next s) ∧
    (∀ w ∈ s.dev.fw.writes, w.data ≠ [] → s.dev.fairwayOn = true → s.dev.linkRate * 64 < s.dev.fw.vc1Bytes + 32 →
      Next (.memRequest .fww) s (fun t => SameStore s t ∧ t.dev = { s.dev with fw := { s.dev.fw with throttled := true } })) ∧
    (∀ ch ready ecc level, s.dev.chanOpen ch = false → Next (.memTransferDone ch ready ecc level) s (fun t => t = s)) ∧
    (∀ ch ready ecc level, s.dev.dramOn = true → s.dev.chanOpen ch = true → s.dev.chanFree ch = false →
      Next (.memTransferDone ch ready ecc level) s (fun t => SameStore s t ∧ t.dev = { s.dev with
          memc := { s.dev.memc with panic := t.dev.memc.panic, panics := t.dev.memc.panics }, evt := t.dev.evt } ∧
        ∀ p ∈ [Port.comp, .gain, .ledg],
          (level[portIdx p]? = none → t.dev.memc.inPanic p = s.dev.memc.inPanic p) ∧
          ∀ l, level[portIdx p]? = some l →
            t.dev.memc.inPanic p = decide (l < (if s.dev.memc.inPanic p then 2 else 1) * s.dev.watermark p) ∧
            (s.dev.memc.inPanic p = false → l < s.dev.watermark p → Pends t 43))) ∧
    (∀ ch ready ecc level b r rest, s.dev.dramOn = true → s.dev.chanFree ch = true → s.dev.pickBank ch ready = some b → s.dev.bankQueue ch b = r :: rest →
      s.dev.memc.credits.length = 5 →
      (r.write = true → Next (.memTransferDone ch ready ecc level) s (fun t => Served s t ch b r rest ∧ t.otp = s.otp ∧ t.cells = s.cells ∧ t.lat = s.lat ∧
        (∀ a, a < r.addr ∨ r.addr + r.data.length ≤ a → t.mem.read a = s.mem.read a) ∧
        (∀ k, k < r.data.length → r.addr + k < memTop → t.mem.read (r.addr + k) = r.data[k]?))) ∧
      (r.write = false → s.dev.test.compDelay = 0 → s.dev.test.gainDelay = 0 →
        Next (.memTransferDone ch ready ecc level) s (fun t => SameStore s t ∧ Served s t ch b r rest ∧
          t.dev.memc.readData = s.mem.bytes s.dev.memc.draws r.addr 32 ∧ t.dev.memc.readPoison = eccPoisons ecc ∧
          t.dev.memc.reads = s.dev.memc.reads + 1))) ∧
    (∀ ch, ch < 2 → s.dev.dramOn = true → s.dev.memc.chans.length = 2 →
      (8 ≤ (s.dev.memc.chan ch).debt → Next (.refreshDue ch) s (fun t => SameStore s t ∧ Raises s t [42] ∧
        Sends s t [mkMsg 0xC4 0x19 0 ch] ∧ (t.dev.memc.chan ch).debt = (s.dev.memc.chan ch).debt ∧
        (t.dev.memc.chan ch).refreshUntil = Nat.max s.dev.now (s.dev.memc.chan ch).refreshUntil + 36 ∧
        (∀ c, c ≠ ch → t.dev.memc.chan c = s.dev.memc.chan c) ∧ t.dev = { s.dev with
          memc := { s.dev.memc with forced := Nat.min 65535 (s.dev.memc.forced + 1), chans := t.dev.memc.chans }
          evt := t.dev.evt, keep := t.dev.keep })) ∧
      ((s.dev.memc.chan ch).debt < 8 → s.inBase = true → Next (.refreshDue ch) s (fun t => SameStore s t ∧
        (t.dev.memc.chan ch).debt = (s.dev.memc.chan ch).debt + 1 ∧
        t.dev.memc.maxDebt = Nat.max s.dev.memc.maxDebt ((s.dev.memc.chan ch).debt + 1) ∧ t.dev = { s.dev with memc := t.dev.memc }))) ∧
    (s.dev.pwr.mainOn = true → 1048576 ≤ s.dev.memc.reads → Next .eccWindow s (fun t => SameStore s t ∧
      t.dev = { s.dev with memc := { s.dev.memc with window := 0, windowOver := false, reads := s.dev.memc.reads - 1048576 } })) ∧
    (s.dev.memc.reads < 1048576 → exec .eccWindow s = .next s) ∧
    (∀ po co, s.dev.memc.copying = true → s.dev.dramOn = true → Next (.fallbackCopyDone po co) s (fun t => SameStore s t ∧
      t.dev.memc.copying = false ∧ t.dev.memc.copied = true ∧
      t.dev.memc.half0 = s.fallbackHalf 0 (s.dev.memc.fromDram po) ∧ t.dev.memc.half1 = s.fallbackHalf 1 (s.dev.memc.fromDram po) ∧
      (s.dev.memc.fromDram co ≠ [] →
        t.dev.memc.corrected = Nat.min 1048575 (s.dev.memc.corrected + (s.dev.memc.fromDram co).length)) ∧
      t.dev.memc.reads = s.dev.memc.reads + (s.dev.copyReads - s.dev.copyForwards) ∧
      (s.dev.copyForwards ≠ 0 → t.dev.memc.forwarded = Nat.min 65535 (s.dev.memc.forwarded + s.dev.copyForwards))))
end

