-- ==== Sys2Proof/Laws/State.lean ====
section
/-! SUPPORT. What each named change of the state leaves alone and what it changes, field by field, each by unfolding once. -/

namespace Sys2Proof.Machine

/-! ## Changes of the blocks and of the latches -/

@[simp] theorem State.onDev_pending (s : State) (f : Dev → Dev) : (s.onDev f).pending = s.pending := rfl
@[simp] theorem State.onDev_otp (s : State) (f : Dev → Dev) : (s.onDev f).otp = s.otp := rfl
@[simp] theorem State.onDev_mem (s : State) (f : Dev → Dev) : (s.onDev f).mem = s.mem := rfl
@[simp] theorem State.onDev_cells (s : State) (f : Dev → Dev) : (s.onDev f).cells = s.cells := rfl
@[simp] theorem State.onDev_lat (s : State) (f : Dev → Dev) : (s.onDev f).lat = s.lat := rfl
@[simp] theorem State.onDev_dev (s : State) (f : Dev → Dev) : (s.onDev f).dev = f s.dev := rfl
@[simp] theorem State.onDev_onDev (s : State) (f g : Dev → Dev) : (s.onDev f).onDev g = s.onDev (fun d => g (f d)) := rfl
@[simp] theorem State.onDev_id (s : State) : s.onDev (fun d => d) = s := rfl
@[simp] theorem State.onDev_cell (s : State) (f : Dev → Dev) (p : Nat) : (s.onDev f).cell p = s.cell p := rfl
@[simp] theorem State.onLat_pending (s : State) (f : Latches → Latches) : (s.onLat f).pending = s.pending := rfl
@[simp] theorem State.onLat_otp (s : State) (f : Latches → Latches) : (s.onLat f).otp = s.otp := rfl
@[simp] theorem State.onLat_mem (s : State) (f : Latches → Latches) : (s.onLat f).mem = s.mem := rfl
@[simp] theorem State.onLat_cells (s : State) (f : Latches → Latches) : (s.onLat f).cells = s.cells := rfl
@[simp] theorem State.onLat_lat (s : State) (f : Latches → Latches) : (s.onLat f).lat = f s.lat := rfl
@[simp] theorem State.onLat_dev (s : State) (f : Latches → Latches) : (s.onLat f).dev = s.dev := rfl

/-! ## `evt` -/

@[simp] theorem Dev.onEvt_now (d : Dev) (f : Evt → Evt) : (d.onEvt f).now = d.now := rfl
@[simp] theorem Dev.onEvt_timeZero (d : Dev) (f : Evt → Evt) : (d.onEvt f).timeZero = d.timeZero := rfl
@[simp] theorem Dev.onEvt_lb (d : Dev) (f : Evt → Evt) : (d.onEvt f).lb = d.lb := rfl
@[simp] theorem Dev.onEvt_hb (d : Dev) (f : Evt → Evt) : (d.onEvt f).hb = d.hb := rfl
@[simp] theorem Dev.onEvt_evt (d : Dev) (f : Evt → Evt) : (d.onEvt f).evt = f d.evt := rfl
@[simp] theorem Dev.onEvt_mgmt (d : Dev) (f : Evt → Evt) : (d.onEvt f).mgmt = d.mgmt := rfl
@[simp] theorem Dev.onEvt_pwr (d : Dev) (f : Evt → Evt) : (d.onEvt f).pwr = d.pwr := rfl
@[simp] theorem Dev.onEvt_keep (d : Dev) (f : Evt → Evt) : (d.onEvt f).keep = d.keep := rfl
@[simp] theorem Dev.onEvt_tiles (d : Dev) (f : Evt → Evt) : (d.onEvt f).tiles = d.tiles := rfl
@[simp] theorem Dev.onEvt_arr (d : Dev) (f : Evt → Evt) : (d.onEvt f).arr = d.arr := rfl
@[simp] theorem Dev.onEvt_frm (d : Dev) (f : Evt → Evt) : (d.onEvt f).frm = d.frm := rfl
@[simp] theorem Dev.onEvt_eng (d : Dev) (f : Evt → Evt) : (d.onEvt f).eng = d.eng := rfl
@[simp] theorem Dev.onEvt_comp (d : Dev) (f : Evt → Evt) : (d.onEvt f).comp = d.comp := rfl
@[simp] theorem Dev.onEvt_link (d : Dev) (f : Evt → Evt) : (d.onEvt f).link = d.link := rfl
@[simp] theorem Dev.onEvt_fw (d : Dev) (f : Evt → Evt) : (d.onEvt f).fw = d.fw := rfl
@[simp] theorem Dev.onEvt_wit (d : Dev) (f : Evt → Evt) : (d.onEvt f).wit = d.wit := rfl
@[simp] theorem Dev.onEvt_memc (d : Dev) (f : Evt → Evt) : (d.onEvt f).memc = d.memc := rfl
@[simp] theorem Dev.onEvt_cal (d : Dev) (f : Evt → Evt) : (d.onEvt f).cal = d.cal := rfl
@[simp] theorem Dev.onEvt_diag (d : Dev) (f : Evt → Evt) : (d.onEvt f).diag = d.diag := rfl
@[simp] theorem Dev.onEvt_chg (d : Dev) (f : Evt → Evt) : (d.onEvt f).chg = d.chg := rfl
@[simp] theorem Dev.onEvt_chk (d : Dev) (f : Evt → Evt) : (d.onEvt f).chk = d.chk := rfl
@[simp] theorem Dev.onEvt_sec (d : Dev) (f : Evt → Evt) : (d.onEvt f).sec = d.sec := rfl
@[simp] theorem Dev.onEvt_ses (d : Dev) (f : Evt → Evt) : (d.onEvt f).ses = d.ses := rfl
@[simp] theorem Dev.onEvt_ledg (d : Dev) (f : Evt → Evt) : (d.onEvt f).ledg = d.ledg := rfl
@[simp] theorem Dev.onEvt_cfg (d : Dev) (f : Evt → Evt) : (d.onEvt f).cfg = d.cfg := rfl
@[simp] theorem Dev.onEvt_test (d : Dev) (f : Evt → Evt) : (d.onEvt f).test = d.test := rfl

/-! ## `mgmt` -/

@[simp] theorem Dev.onMgmt_now (d : Dev) (f : Mgmt → Mgmt) : (d.onMgmt f).now = d.now := rfl
@[simp] theorem Dev.onMgmt_timeZero (d : Dev) (f : Mgmt → Mgmt) : (d.onMgmt f).timeZero = d.timeZero := rfl
@[simp] theorem Dev.onMgmt_lb (d : Dev) (f : Mgmt → Mgmt) : (d.onMgmt f).lb = d.lb := rfl
@[simp] theorem Dev.onMgmt_hb (d : Dev) (f : Mgmt → Mgmt) : (d.onMgmt f).hb = d.hb := rfl
@[simp] theorem Dev.onMgmt_evt (d : Dev) (f : Mgmt → Mgmt) : (d.onMgmt f).evt = d.evt := rfl
@[simp] theorem Dev.onMgmt_mgmt (d : Dev) (f : Mgmt → Mgmt) : (d.onMgmt f).mgmt = f d.mgmt := rfl
@[simp] theorem Dev.onMgmt_pwr (d : Dev) (f : Mgmt → Mgmt) : (d.onMgmt f).pwr = d.pwr := rfl
@[simp] theorem Dev.onMgmt_keep (d : Dev) (f : Mgmt → Mgmt) : (d.onMgmt f).keep = d.keep := rfl
@[simp] theorem Dev.onMgmt_tiles (d : Dev) (f : Mgmt → Mgmt) : (d.onMgmt f).tiles = d.tiles := rfl
@[simp] theorem Dev.onMgmt_arr (d : Dev) (f : Mgmt → Mgmt) : (d.onMgmt f).arr = d.arr := rfl
@[simp] theorem Dev.onMgmt_frm (d : Dev) (f : Mgmt → Mgmt) : (d.onMgmt f).frm = d.frm := rfl
@[simp] theorem Dev.onMgmt_eng (d : Dev) (f : Mgmt → Mgmt) : (d.onMgmt f).eng = d.eng := rfl
@[simp] theorem Dev.onMgmt_comp (d : Dev) (f : Mgmt → Mgmt) : (d.onMgmt f).comp = d.comp := rfl
@[simp] theorem Dev.onMgmt_link (d : Dev) (f : Mgmt → Mgmt) : (d.onMgmt f).link = d.link := rfl
@[simp] theorem Dev.onMgmt_fw (d : Dev) (f : Mgmt → Mgmt) : (d.onMgmt f).fw = d.fw := rfl
@[simp] theorem Dev.onMgmt_wit (d : Dev) (f : Mgmt → Mgmt) : (d.onMgmt f).wit = d.wit := rfl
@[simp] theorem Dev.onMgmt_memc (d : Dev) (f : Mgmt → Mgmt) : (d.onMgmt f).memc = d.memc := rfl
@[simp] theorem Dev.onMgmt_cal (d : Dev) (f : Mgmt → Mgmt) : (d.onMgmt f).cal = d.cal := rfl
@[simp] theorem Dev.onMgmt_diag (d : Dev) (f : Mgmt → Mgmt) : (d.onMgmt f).diag = d.diag := rfl
@[simp] theorem Dev.onMgmt_chg (d : Dev) (f : Mgmt → Mgmt) : (d.onMgmt f).chg = d.chg := rfl
@[simp] theorem Dev.onMgmt_chk (d : Dev) (f : Mgmt → Mgmt) : (d.onMgmt f).chk = d.chk := rfl
@[simp] theorem Dev.onMgmt_sec (d : Dev) (f : Mgmt → Mgmt) : (d.onMgmt f).sec = d.sec := rfl
@[simp] theorem Dev.onMgmt_ses (d : Dev) (f : Mgmt → Mgmt) : (d.onMgmt f).ses = d.ses := rfl
@[simp] theorem Dev.onMgmt_ledg (d : Dev) (f : Mgmt → Mgmt) : (d.onMgmt f).ledg = d.ledg := rfl
@[simp] theorem Dev.onMgmt_cfg (d : Dev) (f : Mgmt → Mgmt) : (d.onMgmt f).cfg = d.cfg := rfl
@[simp] theorem Dev.onMgmt_test (d : Dev) (f : Mgmt → Mgmt) : (d.onMgmt f).test = d.test := rfl

/-! ## `pwr` -/

@[simp] theorem Dev.onPwr_now (d : Dev) (f : Pwr → Pwr) : (d.onPwr f).now = d.now := rfl
@[simp] theorem Dev.onPwr_timeZero (d : Dev) (f : Pwr → Pwr) : (d.onPwr f).timeZero = d.timeZero := rfl
@[simp] theorem Dev.onPwr_lb (d : Dev) (f : Pwr → Pwr) : (d.onPwr f).lb = d.lb := rfl
@[simp] theorem Dev.onPwr_hb (d : Dev) (f : Pwr → Pwr) : (d.onPwr f).hb = d.hb := rfl
@[simp] theorem Dev.onPwr_evt (d : Dev) (f : Pwr → Pwr) : (d.onPwr f).evt = d.evt := rfl
@[simp] theorem Dev.onPwr_mgmt (d : Dev) (f : Pwr → Pwr) : (d.onPwr f).mgmt = d.mgmt := rfl
@[simp] theorem Dev.onPwr_pwr (d : Dev) (f : Pwr → Pwr) : (d.onPwr f).pwr = f d.pwr := rfl
@[simp] theorem Dev.onPwr_keep (d : Dev) (f : Pwr → Pwr) : (d.onPwr f).keep = d.keep := rfl
@[simp] theorem Dev.onPwr_tiles (d : Dev) (f : Pwr → Pwr) : (d.onPwr f).tiles = d.tiles := rfl
@[simp] theorem Dev.onPwr_arr (d : Dev) (f : Pwr → Pwr) : (d.onPwr f).arr = d.arr := rfl
@[simp] theorem Dev.onPwr_frm (d : Dev) (f : Pwr → Pwr) : (d.onPwr f).frm = d.frm := rfl
@[simp] theorem Dev.onPwr_eng (d : Dev) (f : Pwr → Pwr) : (d.onPwr f).eng = d.eng := rfl
@[simp] theorem Dev.onPwr_comp (d : Dev) (f : Pwr → Pwr) : (d.onPwr f).comp = d.comp := rfl
@[simp] theorem Dev.onPwr_link (d : Dev) (f : Pwr → Pwr) : (d.onPwr f).link = d.link := rfl
@[simp] theorem Dev.onPwr_fw (d : Dev) (f : Pwr → Pwr) : (d.onPwr f).fw = d.fw := rfl
@[simp] theorem Dev.onPwr_wit (d : Dev) (f : Pwr → Pwr) : (d.onPwr f).wit = d.wit := rfl
@[simp] theorem Dev.onPwr_memc (d : Dev) (f : Pwr → Pwr) : (d.onPwr f).memc = d.memc := rfl
@[simp] theorem Dev.onPwr_cal (d : Dev) (f : Pwr → Pwr) : (d.onPwr f).cal = d.cal := rfl
@[simp] theorem Dev.onPwr_diag (d : Dev) (f : Pwr → Pwr) : (d.onPwr f).diag = d.diag := rfl
@[simp] theorem Dev.onPwr_chg (d : Dev) (f : Pwr → Pwr) : (d.onPwr f).chg = d.chg := rfl
@[simp] theorem Dev.onPwr_chk (d : Dev) (f : Pwr → Pwr) : (d.onPwr f).chk = d.chk := rfl
@[simp] theorem Dev.onPwr_sec (d : Dev) (f : Pwr → Pwr) : (d.onPwr f).sec = d.sec := rfl
@[simp] theorem Dev.onPwr_ses (d : Dev) (f : Pwr → Pwr) : (d.onPwr f).ses = d.ses := rfl
@[simp] theorem Dev.onPwr_ledg (d : Dev) (f : Pwr → Pwr) : (d.onPwr f).ledg = d.ledg := rfl
@[simp] theorem Dev.onPwr_cfg (d : Dev) (f : Pwr → Pwr) : (d.onPwr f).cfg = d.cfg := rfl
@[simp] theorem Dev.onPwr_test (d : Dev) (f : Pwr → Pwr) : (d.onPwr f).test = d.test := rfl

/-! ## `keep` -/

@[simp] theorem Dev.onKeep_now (d : Dev) (f : Keep → Keep) : (d.onKeep f).now = d.now := rfl
@[simp] theorem Dev.onKeep_timeZero (d : Dev) (f : Keep → Keep) : (d.onKeep f).timeZero = d.timeZero := rfl
@[simp] theorem Dev.onKeep_lb (d : Dev) (f : Keep → Keep) : (d.onKeep f).lb = d.lb := rfl
@[simp] theorem Dev.onKeep_hb (d : Dev) (f : Keep → Keep) : (d.onKeep f).hb = d.hb := rfl
@[simp] theorem Dev.onKeep_evt (d : Dev) (f : Keep → Keep) : (d.onKeep f).evt = d.evt := rfl
@[simp] theorem Dev.onKeep_mgmt (d : Dev) (f : Keep → Keep) : (d.onKeep f).mgmt = d.mgmt := rfl
@[simp] theorem Dev.onKeep_pwr (d : Dev) (f : Keep → Keep) : (d.onKeep f).pwr = d.pwr := rfl
@[simp] theorem Dev.onKeep_keep (d : Dev) (f : Keep → Keep) : (d.onKeep f).keep = f d.keep := rfl
@[simp] theorem Dev.onKeep_tiles (d : Dev) (f : Keep → Keep) : (d.onKeep f).tiles = d.tiles := rfl
@[simp] theorem Dev.onKeep_arr (d : Dev) (f : Keep → Keep) : (d.onKeep f).arr = d.arr := rfl
@[simp] theorem Dev.onKeep_frm (d : Dev) (f : Keep → Keep) : (d.onKeep f).frm = d.frm := rfl
@[simp] theorem Dev.onKeep_eng (d : Dev) (f : Keep → Keep) : (d.onKeep f).eng = d.eng := rfl
@[simp] theorem Dev.onKeep_comp (d : Dev) (f : Keep → Keep) : (d.onKeep f).comp = d.comp := rfl
@[simp] theorem Dev.onKeep_link (d : Dev) (f : Keep → Keep) : (d.onKeep f).link = d.link := rfl
@[simp] theorem Dev.onKeep_fw (d : Dev) (f : Keep → Keep) : (d.onKeep f).fw = d.fw := rfl
@[simp] theorem Dev.onKeep_wit (d : Dev) (f : Keep → Keep) : (d.onKeep f).wit = d.wit := rfl
@[simp] theorem Dev.onKeep_memc (d : Dev) (f : Keep → Keep) : (d.onKeep f).memc = d.memc := rfl
@[simp] theorem Dev.onKeep_cal (d : Dev) (f : Keep → Keep) : (d.onKeep f).cal = d.cal := rfl
@[simp] theorem Dev.onKeep_diag (d : Dev) (f : Keep → Keep) : (d.onKeep f).diag = d.diag := rfl
@[simp] theorem Dev.onKeep_chg (d : Dev) (f : Keep → Keep) : (d.onKeep f).chg = d.chg := rfl
@[simp] theorem Dev.onKeep_chk (d : Dev) (f : Keep → Keep) : (d.onKeep f).chk = d.chk := rfl
@[simp] theorem Dev.onKeep_sec (d : Dev) (f : Keep → Keep) : (d.onKeep f).sec = d.sec := rfl
@[simp] theorem Dev.onKeep_ses (d : Dev) (f : Keep → Keep) : (d.onKeep f).ses = d.ses := rfl
@[simp] theorem Dev.onKeep_ledg (d : Dev) (f : Keep → Keep) : (d.onKeep f).ledg = d.ledg := rfl
@[simp] theorem Dev.onKeep_cfg (d : Dev) (f : Keep → Keep) : (d.onKeep f).cfg = d.cfg := rfl
@[simp] theorem Dev.onKeep_test (d : Dev) (f : Keep → Keep) : (d.onKeep f).test = d.test := rfl

/-! ## `frm` -/

@[simp] theorem Dev.onFrm_now (d : Dev) (f : Frm → Frm) : (d.onFrm f).now = d.now := rfl
@[simp] theorem Dev.onFrm_timeZero (d : Dev) (f : Frm → Frm) : (d.onFrm f).timeZero = d.timeZero := rfl
@[simp] theorem Dev.onFrm_lb (d : Dev) (f : Frm → Frm) : (d.onFrm f).lb = d.lb := rfl
@[simp] theorem Dev.onFrm_hb (d : Dev) (f : Frm → Frm) : (d.onFrm f).hb = d.hb := rfl
@[simp] theorem Dev.onFrm_evt (d : Dev) (f : Frm → Frm) : (d.onFrm f).evt = d.evt := rfl
@[simp] theorem Dev.onFrm_mgmt (d : Dev) (f : Frm → Frm) : (d.onFrm f).mgmt = d.mgmt := rfl
@[simp] theorem Dev.onFrm_pwr (d : Dev) (f : Frm → Frm) : (d.onFrm f).pwr = d.pwr := rfl
@[simp] theorem Dev.onFrm_keep (d : Dev) (f : Frm → Frm) : (d.onFrm f).keep = d.keep := rfl
@[simp] theorem Dev.onFrm_tiles (d : Dev) (f : Frm → Frm) : (d.onFrm f).tiles = d.tiles := rfl
@[simp] theorem Dev.onFrm_arr (d : Dev) (f : Frm → Frm) : (d.onFrm f).arr = d.arr := rfl
@[simp] theorem Dev.onFrm_frm (d : Dev) (f : Frm → Frm) : (d.onFrm f).frm = f d.frm := rfl
@[simp] theorem Dev.onFrm_eng (d : Dev) (f : Frm → Frm) : (d.onFrm f).eng = d.eng := rfl
@[simp] theorem Dev.onFrm_comp (d : Dev) (f : Frm → Frm) : (d.onFrm f).comp = d.comp := rfl
@[simp] theorem Dev.onFrm_link (d : Dev) (f : Frm → Frm) : (d.onFrm f).link = d.link := rfl
@[simp] theorem Dev.onFrm_fw (d : Dev) (f : Frm → Frm) : (d.onFrm f).fw = d.fw := rfl
@[simp] theorem Dev.onFrm_wit (d : Dev) (f : Frm → Frm) : (d.onFrm f).wit = d.wit := rfl
@[simp] theorem Dev.onFrm_memc (d : Dev) (f : Frm → Frm) : (d.onFrm f).memc = d.memc := rfl
@[simp] theorem Dev.onFrm_cal (d : Dev) (f : Frm → Frm) : (d.onFrm f).cal = d.cal := rfl
@[simp] theorem Dev.onFrm_diag (d : Dev) (f : Frm → Frm) : (d.onFrm f).diag = d.diag := rfl
@[simp] theorem Dev.onFrm_chg (d : Dev) (f : Frm → Frm) : (d.onFrm f).chg = d.chg := rfl
@[simp] theorem Dev.onFrm_chk (d : Dev) (f : Frm → Frm) : (d.onFrm f).chk = d.chk := rfl
@[simp] theorem Dev.onFrm_sec (d : Dev) (f : Frm → Frm) : (d.onFrm f).sec = d.sec := rfl
@[simp] theorem Dev.onFrm_ses (d : Dev) (f : Frm → Frm) : (d.onFrm f).ses = d.ses := rfl
@[simp] theorem Dev.onFrm_ledg (d : Dev) (f : Frm → Frm) : (d.onFrm f).ledg = d.ledg := rfl
@[simp] theorem Dev.onFrm_cfg (d : Dev) (f : Frm → Frm) : (d.onFrm f).cfg = d.cfg := rfl
@[simp] theorem Dev.onFrm_test (d : Dev) (f : Frm → Frm) : (d.onFrm f).test = d.test := rfl

/-! ## `eng` -/

@[simp] theorem Dev.onEng_now (d : Dev) (f : Eng → Eng) : (d.onEng f).now = d.now := rfl
@[simp] theorem Dev.onEng_timeZero (d : Dev) (f : Eng → Eng) : (d.onEng f).timeZero = d.timeZero := rfl
@[simp] theorem Dev.onEng_lb (d : Dev) (f : Eng → Eng) : (d.onEng f).lb = d.lb := rfl
@[simp] theorem Dev.onEng_hb (d : Dev) (f : Eng → Eng) : (d.onEng f).hb = d.hb := rfl
@[simp] theorem Dev.onEng_evt (d : Dev) (f : Eng → Eng) : (d.onEng f).evt = d.evt := rfl
@[simp] theorem Dev.onEng_mgmt (d : Dev) (f : Eng → Eng) : (d.onEng f).mgmt = d.mgmt := rfl
@[simp] theorem Dev.onEng_pwr (d : Dev) (f : Eng → Eng) : (d.onEng f).pwr = d.pwr := rfl
@[simp] theorem Dev.onEng_keep (d : Dev) (f : Eng → Eng) : (d.onEng f).keep = d.keep := rfl
@[simp] theorem Dev.onEng_tiles (d : Dev) (f : Eng → Eng) : (d.onEng f).tiles = d.tiles := rfl
@[simp] theorem Dev.onEng_arr (d : Dev) (f : Eng → Eng) : (d.onEng f).arr = d.arr := rfl
@[simp] theorem Dev.onEng_frm (d : Dev) (f : Eng → Eng) : (d.onEng f).frm = d.frm := rfl
@[simp] theorem Dev.onEng_eng (d : Dev) (f : Eng → Eng) : (d.onEng f).eng = f d.eng := rfl
@[simp] theorem Dev.onEng_comp (d : Dev) (f : Eng → Eng) : (d.onEng f).comp = d.comp := rfl
@[simp] theorem Dev.onEng_link (d : Dev) (f : Eng → Eng) : (d.onEng f).link = d.link := rfl
@[simp] theorem Dev.onEng_fw (d : Dev) (f : Eng → Eng) : (d.onEng f).fw = d.fw := rfl
@[simp] theorem Dev.onEng_wit (d : Dev) (f : Eng → Eng) : (d.onEng f).wit = d.wit := rfl
@[simp] theorem Dev.onEng_memc (d : Dev) (f : Eng → Eng) : (d.onEng f).memc = d.memc := rfl
@[simp] theorem Dev.onEng_cal (d : Dev) (f : Eng → Eng) : (d.onEng f).cal = d.cal := rfl
@[simp] theorem Dev.onEng_diag (d : Dev) (f : Eng → Eng) : (d.onEng f).diag = d.diag := rfl
@[simp] theorem Dev.onEng_chg (d : Dev) (f : Eng → Eng) : (d.onEng f).chg = d.chg := rfl
@[simp] theorem Dev.onEng_chk (d : Dev) (f : Eng → Eng) : (d.onEng f).chk = d.chk := rfl
@[simp] theorem Dev.onEng_sec (d : Dev) (f : Eng → Eng) : (d.onEng f).sec = d.sec := rfl
@[simp] theorem Dev.onEng_ses (d : Dev) (f : Eng → Eng) : (d.onEng f).ses = d.ses := rfl
@[simp] theorem Dev.onEng_ledg (d : Dev) (f : Eng → Eng) : (d.onEng f).ledg = d.ledg := rfl
@[simp] theorem Dev.onEng_cfg (d : Dev) (f : Eng → Eng) : (d.onEng f).cfg = d.cfg := rfl
@[simp] theorem Dev.onEng_test (d : Dev) (f : Eng → Eng) : (d.onEng f).test = d.test := rfl

/-! ## `comp` -/

@[simp] theorem Dev.onComp_now (d : Dev) (f : Comp → Comp) : (d.onComp f).now = d.now := rfl
@[simp] theorem Dev.onComp_timeZero (d : Dev) (f : Comp → Comp) : (d.onComp f).timeZero = d.timeZero := rfl
@[simp] theorem Dev.onComp_lb (d : Dev) (f : Comp → Comp) : (d.onComp f).lb = d.lb := rfl
@[simp] theorem Dev.onComp_hb (d : Dev) (f : Comp → Comp) : (d.onComp f).hb = d.hb := rfl
@[simp] theorem Dev.onComp_evt (d : Dev) (f : Comp → Comp) : (d.onComp f).evt = d.evt := rfl
@[simp] theorem Dev.onComp_mgmt (d : Dev) (f : Comp → Comp) : (d.onComp f).mgmt = d.mgmt := rfl
@[simp] theorem Dev.onComp_pwr (d : Dev) (f : Comp → Comp) : (d.onComp f).pwr = d.pwr := rfl
@[simp] theorem Dev.onComp_keep (d : Dev) (f : Comp → Comp) : (d.onComp f).keep = d.keep := rfl
@[simp] theorem Dev.onComp_tiles (d : Dev) (f : Comp → Comp) : (d.onComp f).tiles = d.tiles := rfl
@[simp] theorem Dev.onComp_arr (d : Dev) (f : Comp → Comp) : (d.onComp f).arr = d.arr := rfl
@[simp] theorem Dev.onComp_frm (d : Dev) (f : Comp → Comp) : (d.onComp f).frm = d.frm := rfl
@[simp] theorem Dev.onComp_eng (d : Dev) (f : Comp → Comp) : (d.onComp f).eng = d.eng := rfl
@[simp] theorem Dev.onComp_comp (d : Dev) (f : Comp → Comp) : (d.onComp f).comp = f d.comp := rfl
@[simp] theorem Dev.onComp_link (d : Dev) (f : Comp → Comp) : (d.onComp f).link = d.link := rfl
@[simp] theorem Dev.onComp_fw (d : Dev) (f : Comp → Comp) : (d.onComp f).fw = d.fw := rfl
@[simp] theorem Dev.onComp_wit (d : Dev) (f : Comp → Comp) : (d.onComp f).wit = d.wit := rfl
@[simp] theorem Dev.onComp_memc (d : Dev) (f : Comp → Comp) : (d.onComp f).memc = d.memc := rfl
@[simp] theorem Dev.onComp_cal (d : Dev) (f : Comp → Comp) : (d.onComp f).cal = d.cal := rfl
@[simp] theorem Dev.onComp_diag (d : Dev) (f : Comp → Comp) : (d.onComp f).diag = d.diag := rfl
@[simp] theorem Dev.onComp_chg (d : Dev) (f : Comp → Comp) : (d.onComp f).chg = d.chg := rfl
@[simp] theorem Dev.onComp_chk (d : Dev) (f : Comp → Comp) : (d.onComp f).chk = d.chk := rfl
@[simp] theorem Dev.onComp_sec (d : Dev) (f : Comp → Comp) : (d.onComp f).sec = d.sec := rfl
@[simp] theorem Dev.onComp_ses (d : Dev) (f : Comp → Comp) : (d.onComp f).ses = d.ses := rfl
@[simp] theorem Dev.onComp_ledg (d : Dev) (f : Comp → Comp) : (d.onComp f).ledg = d.ledg := rfl
@[simp] theorem Dev.onComp_cfg (d : Dev) (f : Comp → Comp) : (d.onComp f).cfg = d.cfg := rfl
@[simp] theorem Dev.onComp_test (d : Dev) (f : Comp → Comp) : (d.onComp f).test = d.test := rfl

/-! ## `link` -/

@[simp] theorem Dev.onLink_now (d : Dev) (f : Link → Link) : (d.onLink f).now = d.now := rfl
@[simp] theorem Dev.onLink_timeZero (d : Dev) (f : Link → Link) : (d.onLink f).timeZero = d.timeZero := rfl
@[simp] theorem Dev.onLink_lb (d : Dev) (f : Link → Link) : (d.onLink f).lb = d.lb := rfl
@[simp] theorem Dev.onLink_hb (d : Dev) (f : Link → Link) : (d.onLink f).hb = d.hb := rfl
@[simp] theorem Dev.onLink_evt (d : Dev) (f : Link → Link) : (d.onLink f).evt = d.evt := rfl
@[simp] theorem Dev.onLink_mgmt (d : Dev) (f : Link → Link) : (d.onLink f).mgmt = d.mgmt := rfl
@[simp] theorem Dev.onLink_pwr (d : Dev) (f : Link → Link) : (d.onLink f).pwr = d.pwr := rfl
@[simp] theorem Dev.onLink_keep (d : Dev) (f : Link → Link) : (d.onLink f).keep = d.keep := rfl
@[simp] theorem Dev.onLink_tiles (d : Dev) (f : Link → Link) : (d.onLink f).tiles = d.tiles := rfl
@[simp] theorem Dev.onLink_arr (d : Dev) (f : Link → Link) : (d.onLink f).arr = d.arr := rfl
@[simp] theorem Dev.onLink_frm (d : Dev) (f : Link → Link) : (d.onLink f).frm = d.frm := rfl
@[simp] theorem Dev.onLink_eng (d : Dev) (f : Link → Link) : (d.onLink f).eng = d.eng := rfl
@[simp] theorem Dev.onLink_comp (d : Dev) (f : Link → Link) : (d.onLink f).comp = d.comp := rfl
@[simp] theorem Dev.onLink_link (d : Dev) (f : Link → Link) : (d.onLink f).link = f d.link := rfl
@[simp] theorem Dev.onLink_fw (d : Dev) (f : Link → Link) : (d.onLink f).fw = d.fw := rfl
@[simp] theorem Dev.onLink_wit (d : Dev) (f : Link → Link) : (d.onLink f).wit = d.wit := rfl
@[simp] theorem Dev.onLink_memc (d : Dev) (f : Link → Link) : (d.onLink f).memc = d.memc := rfl
@[simp] theorem Dev.onLink_cal (d : Dev) (f : Link → Link) : (d.onLink f).cal = d.cal := rfl
@[simp] theorem Dev.onLink_diag (d : Dev) (f : Link → Link) : (d.onLink f).diag = d.diag := rfl
@[simp] theorem Dev.onLink_chg (d : Dev) (f : Link → Link) : (d.onLink f).chg = d.chg := rfl
@[simp] theorem Dev.onLink_chk (d : Dev) (f : Link → Link) : (d.onLink f).chk = d.chk := rfl
@[simp] theorem Dev.onLink_sec (d : Dev) (f : Link → Link) : (d.onLink f).sec = d.sec := rfl
@[simp] theorem Dev.onLink_ses (d : Dev) (f : Link → Link) : (d.onLink f).ses = d.ses := rfl
@[simp] theorem Dev.onLink_ledg (d : Dev) (f : Link → Link) : (d.onLink f).ledg = d.ledg := rfl
@[simp] theorem Dev.onLink_cfg (d : Dev) (f : Link → Link) : (d.onLink f).cfg = d.cfg := rfl
@[simp] theorem Dev.onLink_test (d : Dev) (f : Link → Link) : (d.onLink f).test = d.test := rfl

/-! ## `fw` -/

@[simp] theorem Dev.onFw_now (d : Dev) (f : Fw → Fw) : (d.onFw f).now = d.now := rfl
@[simp] theorem Dev.onFw_timeZero (d : Dev) (f : Fw → Fw) : (d.onFw f).timeZero = d.timeZero := rfl
@[simp] theorem Dev.onFw_lb (d : Dev) (f : Fw → Fw) : (d.onFw f).lb = d.lb := rfl
@[simp] theorem Dev.onFw_hb (d : Dev) (f : Fw → Fw) : (d.onFw f).hb = d.hb := rfl
@[simp] theorem Dev.onFw_evt (d : Dev) (f : Fw → Fw) : (d.onFw f).evt = d.evt := rfl
@[simp] theorem Dev.onFw_mgmt (d : Dev) (f : Fw → Fw) : (d.onFw f).mgmt = d.mgmt := rfl
@[simp] theorem Dev.onFw_pwr (d : Dev) (f : Fw → Fw) : (d.onFw f).pwr = d.pwr := rfl
@[simp] theorem Dev.onFw_keep (d : Dev) (f : Fw → Fw) : (d.onFw f).keep = d.keep := rfl
@[simp] theorem Dev.onFw_tiles (d : Dev) (f : Fw → Fw) : (d.onFw f).tiles = d.tiles := rfl
@[simp] theorem Dev.onFw_arr (d : Dev) (f : Fw → Fw) : (d.onFw f).arr = d.arr := rfl
@[simp] theorem Dev.onFw_frm (d : Dev) (f : Fw → Fw) : (d.onFw f).frm = d.frm := rfl
@[simp] theorem Dev.onFw_eng (d : Dev) (f : Fw → Fw) : (d.onFw f).eng = d.eng := rfl
@[simp] theorem Dev.onFw_comp (d : Dev) (f : Fw → Fw) : (d.onFw f).comp = d.comp := rfl
@[simp] theorem Dev.onFw_link (d : Dev) (f : Fw → Fw) : (d.onFw f).link = d.link := rfl
@[simp] theorem Dev.onFw_fw (d : Dev) (f : Fw → Fw) : (d.onFw f).fw = f d.fw := rfl
@[simp] theorem Dev.onFw_wit (d : Dev) (f : Fw → Fw) : (d.onFw f).wit = d.wit := rfl
@[simp] theorem Dev.onFw_memc (d : Dev) (f : Fw → Fw) : (d.onFw f).memc = d.memc := rfl
@[simp] theorem Dev.onFw_cal (d : Dev) (f : Fw → Fw) : (d.onFw f).cal = d.cal := rfl
@[simp] theorem Dev.onFw_diag (d : Dev) (f : Fw → Fw) : (d.onFw f).diag = d.diag := rfl
@[simp] theorem Dev.onFw_chg (d : Dev) (f : Fw → Fw) : (d.onFw f).chg = d.chg := rfl
@[simp] theorem Dev.onFw_chk (d : Dev) (f : Fw → Fw) : (d.onFw f).chk = d.chk := rfl
@[simp] theorem Dev.onFw_sec (d : Dev) (f : Fw → Fw) : (d.onFw f).sec = d.sec := rfl
@[simp] theorem Dev.onFw_ses (d : Dev) (f : Fw → Fw) : (d.onFw f).ses = d.ses := rfl
@[simp] theorem Dev.onFw_ledg (d : Dev) (f : Fw → Fw) : (d.onFw f).ledg = d.ledg := rfl
@[simp] theorem Dev.onFw_cfg (d : Dev) (f : Fw → Fw) : (d.onFw f).cfg = d.cfg := rfl
@[simp] theorem Dev.onFw_test (d : Dev) (f : Fw → Fw) : (d.onFw f).test = d.test := rfl

/-! ## `wit` -/

@[simp] theorem Dev.onWit_now (d : Dev) (f : Wit → Wit) : (d.onWit f).now = d.now := rfl
@[simp] theorem Dev.onWit_timeZero (d : Dev) (f : Wit → Wit) : (d.onWit f).timeZero = d.timeZero := rfl
@[simp] theorem Dev.onWit_lb (d : Dev) (f : Wit → Wit) : (d.onWit f).lb = d.lb := rfl
@[simp] theorem Dev.onWit_hb (d : Dev) (f : Wit → Wit) : (d.onWit f).hb = d.hb := rfl
@[simp] theorem Dev.onWit_evt (d : Dev) (f : Wit → Wit) : (d.onWit f).evt = d.evt := rfl
@[simp] theorem Dev.onWit_mgmt (d : Dev) (f : Wit → Wit) : (d.onWit f).mgmt = d.mgmt := rfl
@[simp] theorem Dev.onWit_pwr (d : Dev) (f : Wit → Wit) : (d.onWit f).pwr = d.pwr := rfl
@[simp] theorem Dev.onWit_keep (d : Dev) (f : Wit → Wit) : (d.onWit f).keep = d.keep := rfl
@[simp] theorem Dev.onWit_tiles (d : Dev) (f : Wit → Wit) : (d.onWit f).tiles = d.tiles := rfl
@[simp] theorem Dev.onWit_arr (d : Dev) (f : Wit → Wit) : (d.onWit f).arr = d.arr := rfl
@[simp] theorem Dev.onWit_frm (d : Dev) (f : Wit → Wit) : (d.onWit f).frm = d.frm := rfl
@[simp] theorem Dev.onWit_eng (d : Dev) (f : Wit → Wit) : (d.onWit f).eng = d.eng := rfl
@[simp] theorem Dev.onWit_comp (d : Dev) (f : Wit → Wit) : (d.onWit f).comp = d.comp := rfl
@[simp] theorem Dev.onWit_link (d : Dev) (f : Wit → Wit) : (d.onWit f).link = d.link := rfl
@[simp] theorem Dev.onWit_fw (d : Dev) (f : Wit → Wit) : (d.onWit f).fw = d.fw := rfl
@[simp] theorem Dev.onWit_wit (d : Dev) (f : Wit → Wit) : (d.onWit f).wit = f d.wit := rfl
@[simp] theorem Dev.onWit_memc (d : Dev) (f : Wit → Wit) : (d.onWit f).memc = d.memc := rfl
@[simp] theorem Dev.onWit_cal (d : Dev) (f : Wit → Wit) : (d.onWit f).cal = d.cal := rfl
@[simp] theorem Dev.onWit_diag (d : Dev) (f : Wit → Wit) : (d.onWit f).diag = d.diag := rfl
@[simp] theorem Dev.onWit_chg (d : Dev) (f : Wit → Wit) : (d.onWit f).chg = d.chg := rfl
@[simp] theorem Dev.onWit_chk (d : Dev) (f : Wit → Wit) : (d.onWit f).chk = d.chk := rfl
@[simp] theorem Dev.onWit_sec (d : Dev) (f : Wit → Wit) : (d.onWit f).sec = d.sec := rfl
@[simp] theorem Dev.onWit_ses (d : Dev) (f : Wit → Wit) : (d.onWit f).ses = d.ses := rfl
@[simp] theorem Dev.onWit_ledg (d : Dev) (f : Wit → Wit) : (d.onWit f).ledg = d.ledg := rfl
@[simp] theorem Dev.onWit_cfg (d : Dev) (f : Wit → Wit) : (d.onWit f).cfg = d.cfg := rfl
@[simp] theorem Dev.onWit_test (d : Dev) (f : Wit → Wit) : (d.onWit f).test = d.test := rfl

/-! ## `memc` -/

@[simp] theorem Dev.onMemc_now (d : Dev) (f : Memc → Memc) : (d.onMemc f).now = d.now := rfl
@[simp] theorem Dev.onMemc_timeZero (d : Dev) (f : Memc → Memc) : (d.onMemc f).timeZero = d.timeZero := rfl
@[simp] theorem Dev.onMemc_lb (d : Dev) (f : Memc → Memc) : (d.onMemc f).lb = d.lb := rfl
@[simp] theorem Dev.onMemc_hb (d : Dev) (f : Memc → Memc) : (d.onMemc f).hb = d.hb := rfl
@[simp] theorem Dev.onMemc_evt (d : Dev) (f : Memc → Memc) : (d.onMemc f).evt = d.evt := rfl
@[simp] theorem Dev.onMemc_mgmt (d : Dev) (f : Memc → Memc) : (d.onMemc f).mgmt = d.mgmt := rfl
@[simp] theorem Dev.onMemc_pwr (d : Dev) (f : Memc → Memc) : (d.onMemc f).pwr = d.pwr := rfl
@[simp] theorem Dev.onMemc_keep (d : Dev) (f : Memc → Memc) : (d.onMemc f).keep = d.keep := rfl
@[simp] theorem Dev.onMemc_tiles (d : Dev) (f : Memc → Memc) : (d.onMemc f).tiles = d.tiles := rfl
@[simp] theorem Dev.onMemc_arr (d : Dev) (f : Memc → Memc) : (d.onMemc f).arr = d.arr := rfl
@[simp] theorem Dev.onMemc_frm (d : Dev) (f : Memc → Memc) : (d.onMemc f).frm = d.frm := rfl
@[simp] theorem Dev.onMemc_eng (d : Dev) (f : Memc → Memc) : (d.onMemc f).eng = d.eng := rfl
@[simp] theorem Dev.onMemc_comp (d : Dev) (f : Memc → Memc) : (d.onMemc f).comp = d.comp := rfl
@[simp] theorem Dev.onMemc_link (d : Dev) (f : Memc → Memc) : (d.onMemc f).link = d.link := rfl
@[simp] theorem Dev.onMemc_fw (d : Dev) (f : Memc → Memc) : (d.onMemc f).fw = d.fw := rfl
@[simp] theorem Dev.onMemc_wit (d : Dev) (f : Memc → Memc) : (d.onMemc f).wit = d.wit := rfl
@[simp] theorem Dev.onMemc_memc (d : Dev) (f : Memc → Memc) : (d.onMemc f).memc = f d.memc := rfl
@[simp] theorem Dev.onMemc_cal (d : Dev) (f : Memc → Memc) : (d.onMemc f).cal = d.cal := rfl
@[simp] theorem Dev.onMemc_diag (d : Dev) (f : Memc → Memc) : (d.onMemc f).diag = d.diag := rfl
@[simp] theorem Dev.onMemc_chg (d : Dev) (f : Memc → Memc) : (d.onMemc f).chg = d.chg := rfl
@[simp] theorem Dev.onMemc_chk (d : Dev) (f : Memc → Memc) : (d.onMemc f).chk = d.chk := rfl
@[simp] theorem Dev.onMemc_sec (d : Dev) (f : Memc → Memc) : (d.onMemc f).sec = d.sec := rfl
@[simp] theorem Dev.onMemc_ses (d : Dev) (f : Memc → Memc) : (d.onMemc f).ses = d.ses := rfl
@[simp] theorem Dev.onMemc_ledg (d : Dev) (f : Memc → Memc) : (d.onMemc f).ledg = d.ledg := rfl
@[simp] theorem Dev.onMemc_cfg (d : Dev) (f : Memc → Memc) : (d.onMemc f).cfg = d.cfg := rfl
@[simp] theorem Dev.onMemc_test (d : Dev) (f : Memc → Memc) : (d.onMemc f).test = d.test := rfl

/-! ## `cal` -/

@[simp] theorem Dev.onCal_now (d : Dev) (f : Cal → Cal) : (d.onCal f).now = d.now := rfl
@[simp] theorem Dev.onCal_timeZero (d : Dev) (f : Cal → Cal) : (d.onCal f).timeZero = d.timeZero := rfl
@[simp] theorem Dev.onCal_lb (d : Dev) (f : Cal → Cal) : (d.onCal f).lb = d.lb := rfl
@[simp] theorem Dev.onCal_hb (d : Dev) (f : Cal → Cal) : (d.onCal f).hb = d.hb := rfl
@[simp] theorem Dev.onCal_evt (d : Dev) (f : Cal → Cal) : (d.onCal f).evt = d.evt := rfl
@[simp] theorem Dev.onCal_mgmt (d : Dev) (f : Cal → Cal) : (d.onCal f).mgmt = d.mgmt := rfl
@[simp] theorem Dev.onCal_pwr (d : Dev) (f : Cal → Cal) : (d.onCal f).pwr = d.pwr := rfl
@[simp] theorem Dev.onCal_keep (d : Dev) (f : Cal → Cal) : (d.onCal f).keep = d.keep := rfl
@[simp] theorem Dev.onCal_tiles (d : Dev) (f : Cal → Cal) : (d.onCal f).tiles = d.tiles := rfl
@[simp] theorem Dev.onCal_arr (d : Dev) (f : Cal → Cal) : (d.onCal f).arr = d.arr := rfl
@[simp] theorem Dev.onCal_frm (d : Dev) (f : Cal → Cal) : (d.onCal f).frm = d.frm := rfl
@[simp] theorem Dev.onCal_eng (d : Dev) (f : Cal → Cal) : (d.onCal f).eng = d.eng := rfl
@[simp] theorem Dev.onCal_comp (d : Dev) (f : Cal → Cal) : (d.onCal f).comp = d.comp := rfl
@[simp] theorem Dev.onCal_link (d : Dev) (f : Cal → Cal) : (d.onCal f).link = d.link := rfl
@[simp] theorem Dev.onCal_fw (d : Dev) (f : Cal → Cal) : (d.onCal f).fw = d.fw := rfl
@[simp] theorem Dev.onCal_wit (d : Dev) (f : Cal → Cal) : (d.onCal f).wit = d.wit := rfl
@[simp] theorem Dev.onCal_memc (d : Dev) (f : Cal → Cal) : (d.onCal f).memc = d.memc := rfl
@[simp] theorem Dev.onCal_cal (d : Dev) (f : Cal → Cal) : (d.onCal f).cal = f d.cal := rfl
@[simp] theorem Dev.onCal_diag (d : Dev) (f : Cal → Cal) : (d.onCal f).diag = d.diag := rfl
@[simp] theorem Dev.onCal_chg (d : Dev) (f : Cal → Cal) : (d.onCal f).chg = d.chg := rfl
@[simp] theorem Dev.onCal_chk (d : Dev) (f : Cal → Cal) : (d.onCal f).chk = d.chk := rfl
@[simp] theorem Dev.onCal_sec (d : Dev) (f : Cal → Cal) : (d.onCal f).sec = d.sec := rfl
@[simp] theorem Dev.onCal_ses (d : Dev) (f : Cal → Cal) : (d.onCal f).ses = d.ses := rfl
@[simp] theorem Dev.onCal_ledg (d : Dev) (f : Cal → Cal) : (d.onCal f).ledg = d.ledg := rfl
@[simp] theorem Dev.onCal_cfg (d : Dev) (f : Cal → Cal) : (d.onCal f).cfg = d.cfg := rfl
@[simp] theorem Dev.onCal_test (d : Dev) (f : Cal → Cal) : (d.onCal f).test = d.test := rfl

/-! ## `chg` -/

@[simp] theorem Dev.onChg_now (d : Dev) (f : Chg → Chg) : (d.onChg f).now = d.now := rfl
@[simp] theorem Dev.onChg_timeZero (d : Dev) (f : Chg → Chg) : (d.onChg f).timeZero = d.timeZero := rfl
@[simp] theorem Dev.onChg_lb (d : Dev) (f : Chg → Chg) : (d.onChg f).lb = d.lb := rfl
@[simp] theorem Dev.onChg_hb (d : Dev) (f : Chg → Chg) : (d.onChg f).hb = d.hb := rfl
@[simp] theorem Dev.onChg_evt (d : Dev) (f : Chg → Chg) : (d.onChg f).evt = d.evt := rfl
@[simp] theorem Dev.onChg_mgmt (d : Dev) (f : Chg → Chg) : (d.onChg f).mgmt = d.mgmt := rfl
@[simp] theorem Dev.onChg_pwr (d : Dev) (f : Chg → Chg) : (d.onChg f).pwr = d.pwr := rfl
@[simp] theorem Dev.onChg_keep (d : Dev) (f : Chg → Chg) : (d.onChg f).keep = d.keep := rfl
@[simp] theorem Dev.onChg_tiles (d : Dev) (f : Chg → Chg) : (d.onChg f).tiles = d.tiles := rfl
@[simp] theorem Dev.onChg_arr (d : Dev) (f : Chg → Chg) : (d.onChg f).arr = d.arr := rfl
@[simp] theorem Dev.onChg_frm (d : Dev) (f : Chg → Chg) : (d.onChg f).frm = d.frm := rfl
@[simp] theorem Dev.onChg_eng (d : Dev) (f : Chg → Chg) : (d.onChg f).eng = d.eng := rfl
@[simp] theorem Dev.onChg_comp (d : Dev) (f : Chg → Chg) : (d.onChg f).comp = d.comp := rfl
@[simp] theorem Dev.onChg_link (d : Dev) (f : Chg → Chg) : (d.onChg f).link = d.link := rfl
@[simp] theorem Dev.onChg_fw (d : Dev) (f : Chg → Chg) : (d.onChg f).fw = d.fw := rfl
@[simp] theorem Dev.onChg_wit (d : Dev) (f : Chg → Chg) : (d.onChg f).wit = d.wit := rfl
@[simp] theorem Dev.onChg_memc (d : Dev) (f : Chg → Chg) : (d.onChg f).memc = d.memc := rfl
@[simp] theorem Dev.onChg_cal (d : Dev) (f : Chg → Chg) : (d.onChg f).cal = d.cal := rfl
@[simp] theorem Dev.onChg_diag (d : Dev) (f : Chg → Chg) : (d.onChg f).diag = d.diag := rfl
@[simp] theorem Dev.onChg_chg (d : Dev) (f : Chg → Chg) : (d.onChg f).chg = f d.chg := rfl
@[simp] theorem Dev.onChg_chk (d : Dev) (f : Chg → Chg) : (d.onChg f).chk = d.chk := rfl
@[simp] theorem Dev.onChg_sec (d : Dev) (f : Chg → Chg) : (d.onChg f).sec = d.sec := rfl
@[simp] theorem Dev.onChg_ses (d : Dev) (f : Chg → Chg) : (d.onChg f).ses = d.ses := rfl
@[simp] theorem Dev.onChg_ledg (d : Dev) (f : Chg → Chg) : (d.onChg f).ledg = d.ledg := rfl
@[simp] theorem Dev.onChg_cfg (d : Dev) (f : Chg → Chg) : (d.onChg f).cfg = d.cfg := rfl
@[simp] theorem Dev.onChg_test (d : Dev) (f : Chg → Chg) : (d.onChg f).test = d.test := rfl

/-! ## `chk` -/

@[simp] theorem Dev.onChk_now (d : Dev) (f : Chk → Chk) : (d.onChk f).now = d.now := rfl
@[simp] theorem Dev.onChk_timeZero (d : Dev) (f : Chk → Chk) : (d.onChk f).timeZero = d.timeZero := rfl
@[simp] theorem Dev.onChk_lb (d : Dev) (f : Chk → Chk) : (d.onChk f).lb = d.lb := rfl
@[simp] theorem Dev.onChk_hb (d : Dev) (f : Chk → Chk) : (d.onChk f).hb = d.hb := rfl
@[simp] theorem Dev.onChk_evt (d : Dev) (f : Chk → Chk) : (d.onChk f).evt = d.evt := rfl
@[simp] theorem Dev.onChk_mgmt (d : Dev) (f : Chk → Chk) : (d.onChk f).mgmt = d.mgmt := rfl
@[simp] theorem Dev.onChk_pwr (d : Dev) (f : Chk → Chk) : (d.onChk f).pwr = d.pwr := rfl
@[simp] theorem Dev.onChk_keep (d : Dev) (f : Chk → Chk) : (d.onChk f).keep = d.keep := rfl
@[simp] theorem Dev.onChk_tiles (d : Dev) (f : Chk → Chk) : (d.onChk f).tiles = d.tiles := rfl
@[simp] theorem Dev.onChk_arr (d : Dev) (f : Chk → Chk) : (d.onChk f).arr = d.arr := rfl
@[simp] theorem Dev.onChk_frm (d : Dev) (f : Chk → Chk) : (d.onChk f).frm = d.frm := rfl
@[simp] theorem Dev.onChk_eng (d : Dev) (f : Chk → Chk) : (d.onChk f).eng = d.eng := rfl
@[simp] theorem Dev.onChk_comp (d : Dev) (f : Chk → Chk) : (d.onChk f).comp = d.comp := rfl
@[simp] theorem Dev.onChk_link (d : Dev) (f : Chk → Chk) : (d.onChk f).link = d.link := rfl
@[simp] theorem Dev.onChk_fw (d : Dev) (f : Chk → Chk) : (d.onChk f).fw = d.fw := rfl
@[simp] theorem Dev.onChk_wit (d : Dev) (f : Chk → Chk) : (d.onChk f).wit = d.wit := rfl
@[simp] theorem Dev.onChk_memc (d : Dev) (f : Chk → Chk) : (d.onChk f).memc = d.memc := rfl
@[simp] theorem Dev.onChk_cal (d : Dev) (f : Chk → Chk) : (d.onChk f).cal = d.cal := rfl
@[simp] theorem Dev.onChk_diag (d : Dev) (f : Chk → Chk) : (d.onChk f).diag = d.diag := rfl
@[simp] theorem Dev.onChk_chg (d : Dev) (f : Chk → Chk) : (d.onChk f).chg = d.chg := rfl
@[simp] theorem Dev.onChk_chk (d : Dev) (f : Chk → Chk) : (d.onChk f).chk = f d.chk := rfl
@[simp] theorem Dev.onChk_sec (d : Dev) (f : Chk → Chk) : (d.onChk f).sec = d.sec := rfl
@[simp] theorem Dev.onChk_ses (d : Dev) (f : Chk → Chk) : (d.onChk f).ses = d.ses := rfl
@[simp] theorem Dev.onChk_ledg (d : Dev) (f : Chk → Chk) : (d.onChk f).ledg = d.ledg := rfl
@[simp] theorem Dev.onChk_cfg (d : Dev) (f : Chk → Chk) : (d.onChk f).cfg = d.cfg := rfl
@[simp] theorem Dev.onChk_test (d : Dev) (f : Chk → Chk) : (d.onChk f).test = d.test := rfl

/-! ## `sec` -/

@[simp] theorem Dev.onSec_now (d : Dev) (f : Sec → Sec) : (d.onSec f).now = d.now := rfl
@[simp] theorem Dev.onSec_timeZero (d : Dev) (f : Sec → Sec) : (d.onSec f).timeZero = d.timeZero := rfl
@[simp] theorem Dev.onSec_lb (d : Dev) (f : Sec → Sec) : (d.onSec f).lb = d.lb := rfl
@[simp] theorem Dev.onSec_hb (d : Dev) (f : Sec → Sec) : (d.onSec f).hb = d.hb := rfl
@[simp] theorem Dev.onSec_evt (d : Dev) (f : Sec → Sec) : (d.onSec f).evt = d.evt := rfl
@[simp] theorem Dev.onSec_mgmt (d : Dev) (f : Sec → Sec) : (d.onSec f).mgmt = d.mgmt := rfl
@[simp] theorem Dev.onSec_pwr (d : Dev) (f : Sec → Sec) : (d.onSec f).pwr = d.pwr := rfl
@[simp] theorem Dev.onSec_keep (d : Dev) (f : Sec → Sec) : (d.onSec f).keep = d.keep := rfl
@[simp] theorem Dev.onSec_tiles (d : Dev) (f : Sec → Sec) : (d.onSec f).tiles = d.tiles := rfl
@[simp] theorem Dev.onSec_arr (d : Dev) (f : Sec → Sec) : (d.onSec f).arr = d.arr := rfl
@[simp] theorem Dev.onSec_frm (d : Dev) (f : Sec → Sec) : (d.onSec f).frm = d.frm := rfl
@[simp] theorem Dev.onSec_eng (d : Dev) (f : Sec → Sec) : (d.onSec f).eng = d.eng := rfl
@[simp] theorem Dev.onSec_comp (d : Dev) (f : Sec → Sec) : (d.onSec f).comp = d.comp := rfl
@[simp] theorem Dev.onSec_link (d : Dev) (f : Sec → Sec) : (d.onSec f).link = d.link := rfl
@[simp] theorem Dev.onSec_fw (d : Dev) (f : Sec → Sec) : (d.onSec f).fw = d.fw := rfl
@[simp] theorem Dev.onSec_wit (d : Dev) (f : Sec → Sec) : (d.onSec f).wit = d.wit := rfl
@[simp] theorem Dev.onSec_memc (d : Dev) (f : Sec → Sec) : (d.onSec f).memc = d.memc := rfl
@[simp] theorem Dev.onSec_cal (d : Dev) (f : Sec → Sec) : (d.onSec f).cal = d.cal := rfl
@[simp] theorem Dev.onSec_diag (d : Dev) (f : Sec → Sec) : (d.onSec f).diag = d.diag := rfl
@[simp] theorem Dev.onSec_chg (d : Dev) (f : Sec → Sec) : (d.onSec f).chg = d.chg := rfl
@[simp] theorem Dev.onSec_chk (d : Dev) (f : Sec → Sec) : (d.onSec f).chk = d.chk := rfl
@[simp] theorem Dev.onSec_sec (d : Dev) (f : Sec → Sec) : (d.onSec f).sec = f d.sec := rfl
@[simp] theorem Dev.onSec_ses (d : Dev) (f : Sec → Sec) : (d.onSec f).ses = d.ses := rfl
@[simp] theorem Dev.onSec_ledg (d : Dev) (f : Sec → Sec) : (d.onSec f).ledg = d.ledg := rfl
@[simp] theorem Dev.onSec_cfg (d : Dev) (f : Sec → Sec) : (d.onSec f).cfg = d.cfg := rfl
@[simp] theorem Dev.onSec_test (d : Dev) (f : Sec → Sec) : (d.onSec f).test = d.test := rfl

/-! ## `ses` -/

@[simp] theorem Dev.onSes_now (d : Dev) (f : Ses → Ses) : (d.onSes f).now = d.now := rfl
@[simp] theorem Dev.onSes_timeZero (d : Dev) (f : Ses → Ses) : (d.onSes f).timeZero = d.timeZero := rfl
@[simp] theorem Dev.onSes_lb (d : Dev) (f : Ses → Ses) : (d.onSes f).lb = d.lb := rfl
@[simp] theorem Dev.onSes_hb (d : Dev) (f : Ses → Ses) : (d.onSes f).hb = d.hb := rfl
@[simp] theorem Dev.onSes_evt (d : Dev) (f : Ses → Ses) : (d.onSes f).evt = d.evt := rfl
@[simp] theorem Dev.onSes_mgmt (d : Dev) (f : Ses → Ses) : (d.onSes f).mgmt = d.mgmt := rfl
@[simp] theorem Dev.onSes_pwr (d : Dev) (f : Ses → Ses) : (d.onSes f).pwr = d.pwr := rfl
@[simp] theorem Dev.onSes_keep (d : Dev) (f : Ses → Ses) : (d.onSes f).keep = d.keep := rfl
@[simp] theorem Dev.onSes_tiles (d : Dev) (f : Ses → Ses) : (d.onSes f).tiles = d.tiles := rfl
@[simp] theorem Dev.onSes_arr (d : Dev) (f : Ses → Ses) : (d.onSes f).arr = d.arr := rfl
@[simp] theorem Dev.onSes_frm (d : Dev) (f : Ses → Ses) : (d.onSes f).frm = d.frm := rfl
@[simp] theorem Dev.onSes_eng (d : Dev) (f : Ses → Ses) : (d.onSes f).eng = d.eng := rfl
@[simp] theorem Dev.onSes_comp (d : Dev) (f : Ses → Ses) : (d.onSes f).comp = d.comp := rfl
@[simp] theorem Dev.onSes_link (d : Dev) (f : Ses → Ses) : (d.onSes f).link = d.link := rfl
@[simp] theorem Dev.onSes_fw (d : Dev) (f : Ses → Ses) : (d.onSes f).fw = d.fw := rfl
@[simp] theorem Dev.onSes_wit (d : Dev) (f : Ses → Ses) : (d.onSes f).wit = d.wit := rfl
@[simp] theorem Dev.onSes_memc (d : Dev) (f : Ses → Ses) : (d.onSes f).memc = d.memc := rfl
@[simp] theorem Dev.onSes_cal (d : Dev) (f : Ses → Ses) : (d.onSes f).cal = d.cal := rfl
@[simp] theorem Dev.onSes_diag (d : Dev) (f : Ses → Ses) : (d.onSes f).diag = d.diag := rfl
@[simp] theorem Dev.onSes_chg (d : Dev) (f : Ses → Ses) : (d.onSes f).chg = d.chg := rfl
@[simp] theorem Dev.onSes_chk (d : Dev) (f : Ses → Ses) : (d.onSes f).chk = d.chk := rfl
@[simp] theorem Dev.onSes_sec (d : Dev) (f : Ses → Ses) : (d.onSes f).sec = d.sec := rfl
@[simp] theorem Dev.onSes_ses (d : Dev) (f : Ses → Ses) : (d.onSes f).ses = f d.ses := rfl
@[simp] theorem Dev.onSes_ledg (d : Dev) (f : Ses → Ses) : (d.onSes f).ledg = d.ledg := rfl
@[simp] theorem Dev.onSes_cfg (d : Dev) (f : Ses → Ses) : (d.onSes f).cfg = d.cfg := rfl
@[simp] theorem Dev.onSes_test (d : Dev) (f : Ses → Ses) : (d.onSes f).test = d.test := rfl

/-! ## `ledg` -/

@[simp] theorem Dev.onLedg_now (d : Dev) (f : Ledg → Ledg) : (d.onLedg f).now = d.now := rfl
@[simp] theorem Dev.onLedg_timeZero (d : Dev) (f : Ledg → Ledg) : (d.onLedg f).timeZero = d.timeZero := rfl
@[simp] theorem Dev.onLedg_lb (d : Dev) (f : Ledg → Ledg) : (d.onLedg f).lb = d.lb := rfl
@[simp] theorem Dev.onLedg_hb (d : Dev) (f : Ledg → Ledg) : (d.onLedg f).hb = d.hb := rfl
@[simp] theorem Dev.onLedg_evt (d : Dev) (f : Ledg → Ledg) : (d.onLedg f).evt = d.evt := rfl
@[simp] theorem Dev.onLedg_mgmt (d : Dev) (f : Ledg → Ledg) : (d.onLedg f).mgmt = d.mgmt := rfl
@[simp] theorem Dev.onLedg_pwr (d : Dev) (f : Ledg → Ledg) : (d.onLedg f).pwr = d.pwr := rfl
@[simp] theorem Dev.onLedg_keep (d : Dev) (f : Ledg → Ledg) : (d.onLedg f).keep = d.keep := rfl
@[simp] theorem Dev.onLedg_tiles (d : Dev) (f : Ledg → Ledg) : (d.onLedg f).tiles = d.tiles := rfl
@[simp] theorem Dev.onLedg_arr (d : Dev) (f : Ledg → Ledg) : (d.onLedg f).arr = d.arr := rfl
@[simp] theorem Dev.onLedg_frm (d : Dev) (f : Ledg → Ledg) : (d.onLedg f).frm = d.frm := rfl
@[simp] theorem Dev.onLedg_eng (d : Dev) (f : Ledg → Ledg) : (d.onLedg f).eng = d.eng := rfl
@[simp] theorem Dev.onLedg_comp (d : Dev) (f : Ledg → Ledg) : (d.onLedg f).comp = d.comp := rfl
@[simp] theorem Dev.onLedg_link (d : Dev) (f : Ledg → Ledg) : (d.onLedg f).link = d.link := rfl
@[simp] theorem Dev.onLedg_fw (d : Dev) (f : Ledg → Ledg) : (d.onLedg f).fw = d.fw := rfl
@[simp] theorem Dev.onLedg_wit (d : Dev) (f : Ledg → Ledg) : (d.onLedg f).wit = d.wit := rfl
@[simp] theorem Dev.onLedg_memc (d : Dev) (f : Ledg → Ledg) : (d.onLedg f).memc = d.memc := rfl
@[simp] theorem Dev.onLedg_cal (d : Dev) (f : Ledg → Ledg) : (d.onLedg f).cal = d.cal := rfl
@[simp] theorem Dev.onLedg_diag (d : Dev) (f : Ledg → Ledg) : (d.onLedg f).diag = d.diag := rfl
@[simp] theorem Dev.onLedg_chg (d : Dev) (f : Ledg → Ledg) : (d.onLedg f).chg = d.chg := rfl
@[simp] theorem Dev.onLedg_chk (d : Dev) (f : Ledg → Ledg) : (d.onLedg f).chk = d.chk := rfl
@[simp] theorem Dev.onLedg_sec (d : Dev) (f : Ledg → Ledg) : (d.onLedg f).sec = d.sec := rfl
@[simp] theorem Dev.onLedg_ses (d : Dev) (f : Ledg → Ledg) : (d.onLedg f).ses = d.ses := rfl
@[simp] theorem Dev.onLedg_ledg (d : Dev) (f : Ledg → Ledg) : (d.onLedg f).ledg = f d.ledg := rfl
@[simp] theorem Dev.onLedg_cfg (d : Dev) (f : Ledg → Ledg) : (d.onLedg f).cfg = d.cfg := rfl
@[simp] theorem Dev.onLedg_test (d : Dev) (f : Ledg → Ledg) : (d.onLedg f).test = d.test := rfl

/-! ## `cfg` -/

@[simp] theorem Dev.onCfg_now (d : Dev) (f : Cfg → Cfg) : (d.onCfg f).now = d.now := rfl
@[simp] theorem Dev.onCfg_timeZero (d : Dev) (f : Cfg → Cfg) : (d.onCfg f).timeZero = d.timeZero := rfl
@[simp] theorem Dev.onCfg_lb (d : Dev) (f : Cfg → Cfg) : (d.onCfg f).lb = d.lb := rfl
@[simp] theorem Dev.onCfg_hb (d : Dev) (f : Cfg → Cfg) : (d.onCfg f).hb = d.hb := rfl
@[simp] theorem Dev.onCfg_evt (d : Dev) (f : Cfg → Cfg) : (d.onCfg f).evt = d.evt := rfl
@[simp] theorem Dev.onCfg_mgmt (d : Dev) (f : Cfg → Cfg) : (d.onCfg f).mgmt = d.mgmt := rfl
@[simp] theorem Dev.onCfg_pwr (d : Dev) (f : Cfg → Cfg) : (d.onCfg f).pwr = d.pwr := rfl
@[simp] theorem Dev.onCfg_keep (d : Dev) (f : Cfg → Cfg) : (d.onCfg f).keep = d.keep := rfl
@[simp] theorem Dev.onCfg_tiles (d : Dev) (f : Cfg → Cfg) : (d.onCfg f).tiles = d.tiles := rfl
@[simp] theorem Dev.onCfg_arr (d : Dev) (f : Cfg → Cfg) : (d.onCfg f).arr = d.arr := rfl
@[simp] theorem Dev.onCfg_frm (d : Dev) (f : Cfg → Cfg) : (d.onCfg f).frm = d.frm := rfl
@[simp] theorem Dev.onCfg_eng (d : Dev) (f : Cfg → Cfg) : (d.onCfg f).eng = d.eng := rfl
@[simp] theorem Dev.onCfg_comp (d : Dev) (f : Cfg → Cfg) : (d.onCfg f).comp = d.comp := rfl
@[simp] theorem Dev.onCfg_link (d : Dev) (f : Cfg → Cfg) : (d.onCfg f).link = d.link := rfl
@[simp] theorem Dev.onCfg_fw (d : Dev) (f : Cfg → Cfg) : (d.onCfg f).fw = d.fw := rfl
@[simp] theorem Dev.onCfg_wit (d : Dev) (f : Cfg → Cfg) : (d.onCfg f).wit = d.wit := rfl
@[simp] theorem Dev.onCfg_memc (d : Dev) (f : Cfg → Cfg) : (d.onCfg f).memc = d.memc := rfl
@[simp] theorem Dev.onCfg_cal (d : Dev) (f : Cfg → Cfg) : (d.onCfg f).cal = d.cal := rfl
@[simp] theorem Dev.onCfg_diag (d : Dev) (f : Cfg → Cfg) : (d.onCfg f).diag = d.diag := rfl
@[simp] theorem Dev.onCfg_chg (d : Dev) (f : Cfg → Cfg) : (d.onCfg f).chg = d.chg := rfl
@[simp] theorem Dev.onCfg_chk (d : Dev) (f : Cfg → Cfg) : (d.onCfg f).chk = d.chk := rfl
@[simp] theorem Dev.onCfg_sec (d : Dev) (f : Cfg → Cfg) : (d.onCfg f).sec = d.sec := rfl
@[simp] theorem Dev.onCfg_ses (d : Dev) (f : Cfg → Cfg) : (d.onCfg f).ses = d.ses := rfl
@[simp] theorem Dev.onCfg_ledg (d : Dev) (f : Cfg → Cfg) : (d.onCfg f).ledg = d.ledg := rfl
@[simp] theorem Dev.onCfg_cfg (d : Dev) (f : Cfg → Cfg) : (d.onCfg f).cfg = f d.cfg := rfl
@[simp] theorem Dev.onCfg_test (d : Dev) (f : Cfg → Cfg) : (d.onCfg f).test = d.test := rfl

/-! ## `test` -/

@[simp] theorem Dev.onTest_now (d : Dev) (f : Test → Test) : (d.onTest f).now = d.now := rfl
@[simp] theorem Dev.onTest_timeZero (d : Dev) (f : Test → Test) : (d.onTest f).timeZero = d.timeZero := rfl
@[simp] theorem Dev.onTest_lb (d : Dev) (f : Test → Test) : (d.onTest f).lb = d.lb := rfl
@[simp] theorem Dev.onTest_hb (d : Dev) (f : Test → Test) : (d.onTest f).hb = d.hb := rfl
@[simp] theorem Dev.onTest_evt (d : Dev) (f : Test → Test) : (d.onTest f).evt = d.evt := rfl
@[simp] theorem Dev.onTest_mgmt (d : Dev) (f : Test → Test) : (d.onTest f).mgmt = d.mgmt := rfl
@[simp] theorem Dev.onTest_pwr (d : Dev) (f : Test → Test) : (d.onTest f).pwr = d.pwr := rfl
@[simp] theorem Dev.onTest_keep (d : Dev) (f : Test → Test) : (d.onTest f).keep = d.keep := rfl
@[simp] theorem Dev.onTest_tiles (d : Dev) (f : Test → Test) : (d.onTest f).tiles = d.tiles := rfl
@[simp] theorem Dev.onTest_arr (d : Dev) (f : Test → Test) : (d.onTest f).arr = d.arr := rfl
@[simp] theorem Dev.onTest_frm (d : Dev) (f : Test → Test) : (d.onTest f).frm = d.frm := rfl
@[simp] theorem Dev.onTest_eng (d : Dev) (f : Test → Test) : (d.onTest f).eng = d.eng := rfl
@[simp] theorem Dev.onTest_comp (d : Dev) (f : Test → Test) : (d.onTest f).comp = d.comp := rfl
@[simp] theorem Dev.onTest_link (d : Dev) (f : Test → Test) : (d.onTest f).link = d.link := rfl
@[simp] theorem Dev.onTest_fw (d : Dev) (f : Test → Test) : (d.onTest f).fw = d.fw := rfl
@[simp] theorem Dev.onTest_wit (d : Dev) (f : Test → Test) : (d.onTest f).wit = d.wit := rfl
@[simp] theorem Dev.onTest_memc (d : Dev) (f : Test → Test) : (d.onTest f).memc = d.memc := rfl
@[simp] theorem Dev.onTest_cal (d : Dev) (f : Test → Test) : (d.onTest f).cal = d.cal := rfl
@[simp] theorem Dev.onTest_diag (d : Dev) (f : Test → Test) : (d.onTest f).diag = d.diag := rfl
@[simp] theorem Dev.onTest_chg (d : Dev) (f : Test → Test) : (d.onTest f).chg = d.chg := rfl
@[simp] theorem Dev.onTest_chk (d : Dev) (f : Test → Test) : (d.onTest f).chk = d.chk := rfl
@[simp] theorem Dev.onTest_sec (d : Dev) (f : Test → Test) : (d.onTest f).sec = d.sec := rfl
@[simp] theorem Dev.onTest_ses (d : Dev) (f : Test → Test) : (d.onTest f).ses = d.ses := rfl
@[simp] theorem Dev.onTest_ledg (d : Dev) (f : Test → Test) : (d.onTest f).ledg = d.ledg := rfl
@[simp] theorem Dev.onTest_cfg (d : Dev) (f : Test → Test) : (d.onTest f).cfg = d.cfg := rfl
@[simp] theorem Dev.onTest_test (d : Dev) (f : Test → Test) : (d.onTest f).test = f d.test := rfl

/-! ## `arr` -/

@[simp] theorem Dev.onArr_now (d : Dev) (f : Arr → Arr) : (d.onArr f).now = d.now := rfl
@[simp] theorem Dev.onArr_timeZero (d : Dev) (f : Arr → Arr) : (d.onArr f).timeZero = d.timeZero := rfl
@[simp] theorem Dev.onArr_lb (d : Dev) (f : Arr → Arr) : (d.onArr f).lb = d.lb := rfl
@[simp] theorem Dev.onArr_hb (d : Dev) (f : Arr → Arr) : (d.onArr f).hb = d.hb := rfl
@[simp] theorem Dev.onArr_evt (d : Dev) (f : Arr → Arr) : (d.onArr f).evt = d.evt := rfl
@[simp] theorem Dev.onArr_mgmt (d : Dev) (f : Arr → Arr) : (d.onArr f).mgmt = d.mgmt := rfl
@[simp] theorem Dev.onArr_pwr (d : Dev) (f : Arr → Arr) : (d.onArr f).pwr = d.pwr := rfl
@[simp] theorem Dev.onArr_keep (d : Dev) (f : Arr → Arr) : (d.onArr f).keep = d.keep := rfl
@[simp] theorem Dev.onArr_tiles (d : Dev) (f : Arr → Arr) : (d.onArr f).tiles = d.tiles := rfl
@[simp] theorem Dev.onArr_arr (d : Dev) (f : Arr → Arr) : (d.onArr f).arr = f d.arr := rfl
@[simp] theorem Dev.onArr_frm (d : Dev) (f : Arr → Arr) : (d.onArr f).frm = d.frm := rfl
@[simp] theorem Dev.onArr_eng (d : Dev) (f : Arr → Arr) : (d.onArr f).eng = d.eng := rfl
@[simp] theorem Dev.onArr_comp (d : Dev) (f : Arr → Arr) : (d.onArr f).comp = d.comp := rfl
@[simp] theorem Dev.onArr_link (d : Dev) (f : Arr → Arr) : (d.onArr f).link = d.link := rfl
@[simp] theorem Dev.onArr_fw (d : Dev) (f : Arr → Arr) : (d.onArr f).fw = d.fw := rfl
@[simp] theorem Dev.onArr_wit (d : Dev) (f : Arr → Arr) : (d.onArr f).wit = d.wit := rfl
@[simp] theorem Dev.onArr_memc (d : Dev) (f : Arr → Arr) : (d.onArr f).memc = d.memc := rfl
@[simp] theorem Dev.onArr_cal (d : Dev) (f : Arr → Arr) : (d.onArr f).cal = d.cal := rfl
@[simp] theorem Dev.onArr_diag (d : Dev) (f : Arr → Arr) : (d.onArr f).diag = d.diag := rfl
@[simp] theorem Dev.onArr_chg (d : Dev) (f : Arr → Arr) : (d.onArr f).chg = d.chg := rfl
@[simp] theorem Dev.onArr_chk (d : Dev) (f : Arr → Arr) : (d.onArr f).chk = d.chk := rfl
@[simp] theorem Dev.onArr_sec (d : Dev) (f : Arr → Arr) : (d.onArr f).sec = d.sec := rfl
@[simp] theorem Dev.onArr_ses (d : Dev) (f : Arr → Arr) : (d.onArr f).ses = d.ses := rfl
@[simp] theorem Dev.onArr_ledg (d : Dev) (f : Arr → Arr) : (d.onArr f).ledg = d.ledg := rfl
@[simp] theorem Dev.onArr_cfg (d : Dev) (f : Arr → Arr) : (d.onArr f).cfg = d.cfg := rfl
@[simp] theorem Dev.onArr_test (d : Dev) (f : Arr → Arr) : (d.onArr f).test = d.test := rfl

/-! ## `diag` -/

@[simp] theorem Dev.onDiag_now (d : Dev) (f : Diag → Diag) : (d.onDiag f).now = d.now := rfl
@[simp] theorem Dev.onDiag_timeZero (d : Dev) (f : Diag → Diag) : (d.onDiag f).timeZero = d.timeZero := rfl
@[simp] theorem Dev.onDiag_lb (d : Dev) (f : Diag → Diag) : (d.onDiag f).lb = d.lb := rfl
@[simp] theorem Dev.onDiag_hb (d : Dev) (f : Diag → Diag) : (d.onDiag f).hb = d.hb := rfl
@[simp] theorem Dev.onDiag_evt (d : Dev) (f : Diag → Diag) : (d.onDiag f).evt = d.evt := rfl
@[simp] theorem Dev.onDiag_mgmt (d : Dev) (f : Diag → Diag) : (d.onDiag f).mgmt = d.mgmt := rfl
@[simp] theorem Dev.onDiag_pwr (d : Dev) (f : Diag → Diag) : (d.onDiag f).pwr = d.pwr := rfl
@[simp] theorem Dev.onDiag_keep (d : Dev) (f : Diag → Diag) : (d.onDiag f).keep = d.keep := rfl
@[simp] theorem Dev.onDiag_tiles (d : Dev) (f : Diag → Diag) : (d.onDiag f).tiles = d.tiles := rfl
@[simp] theorem Dev.onDiag_arr (d : Dev) (f : Diag → Diag) : (d.onDiag f).arr = d.arr := rfl
@[simp] theorem Dev.onDiag_frm (d : Dev) (f : Diag → Diag) : (d.onDiag f).frm = d.frm := rfl
@[simp] theorem Dev.onDiag_eng (d : Dev) (f : Diag → Diag) : (d.onDiag f).eng = d.eng := rfl
@[simp] theorem Dev.onDiag_comp (d : Dev) (f : Diag → Diag) : (d.onDiag f).comp = d.comp := rfl
@[simp] theorem Dev.onDiag_link (d : Dev) (f : Diag → Diag) : (d.onDiag f).link = d.link := rfl
@[simp] theorem Dev.onDiag_fw (d : Dev) (f : Diag → Diag) : (d.onDiag f).fw = d.fw := rfl
@[simp] theorem Dev.onDiag_wit (d : Dev) (f : Diag → Diag) : (d.onDiag f).wit = d.wit := rfl
@[simp] theorem Dev.onDiag_memc (d : Dev) (f : Diag → Diag) : (d.onDiag f).memc = d.memc := rfl
@[simp] theorem Dev.onDiag_cal (d : Dev) (f : Diag → Diag) : (d.onDiag f).cal = d.cal := rfl
@[simp] theorem Dev.onDiag_diag (d : Dev) (f : Diag → Diag) : (d.onDiag f).diag = f d.diag := rfl
@[simp] theorem Dev.onDiag_chg (d : Dev) (f : Diag → Diag) : (d.onDiag f).chg = d.chg := rfl
@[simp] theorem Dev.onDiag_chk (d : Dev) (f : Diag → Diag) : (d.onDiag f).chk = d.chk := rfl
@[simp] theorem Dev.onDiag_sec (d : Dev) (f : Diag → Diag) : (d.onDiag f).sec = d.sec := rfl
@[simp] theorem Dev.onDiag_ses (d : Dev) (f : Diag → Diag) : (d.onDiag f).ses = d.ses := rfl
@[simp] theorem Dev.onDiag_ledg (d : Dev) (f : Diag → Diag) : (d.onDiag f).ledg = d.ledg := rfl
@[simp] theorem Dev.onDiag_cfg (d : Dev) (f : Diag → Diag) : (d.onDiag f).cfg = d.cfg := rfl
@[simp] theorem Dev.onDiag_test (d : Dev) (f : Diag → Diag) : (d.onDiag f).test = d.test := rfl

/-! ## Events and messages -/

@[simp] theorem Dev.raise_now (d : Dev) (n : Nat) : (d.raise n).now = d.now := rfl
@[simp] theorem Dev.raise_timeZero (d : Dev) (n : Nat) : (d.raise n).timeZero = d.timeZero := rfl
@[simp] theorem Dev.raise_lb (d : Dev) (n : Nat) : (d.raise n).lb = d.lb := rfl
@[simp] theorem Dev.raise_hb (d : Dev) (n : Nat) : (d.raise n).hb = d.hb := rfl
@[simp] theorem Dev.raise_mgmt (d : Dev) (n : Nat) : (d.raise n).mgmt = d.mgmt := rfl
@[simp] theorem Dev.raise_pwr (d : Dev) (n : Nat) : (d.raise n).pwr = d.pwr := rfl
@[simp] theorem Dev.raise_keep (d : Dev) (n : Nat) : (d.raise n).keep = d.keep := rfl
@[simp] theorem Dev.raise_tiles (d : Dev) (n : Nat) : (d.raise n).tiles = d.tiles := rfl
@[simp] theorem Dev.raise_arr (d : Dev) (n : Nat) : (d.raise n).arr = d.arr := rfl
@[simp] theorem Dev.raise_frm (d : Dev) (n : Nat) : (d.raise n).frm = d.frm := rfl
@[simp] theorem Dev.raise_eng (d : Dev) (n : Nat) : (d.raise n).eng = d.eng := rfl
@[simp] theorem Dev.raise_comp (d : Dev) (n : Nat) : (d.raise n).comp = d.comp := rfl
@[simp] theorem Dev.raise_link (d : Dev) (n : Nat) : (d.raise n).link = d.link := rfl
@[simp] theorem Dev.raise_fw (d : Dev) (n : Nat) : (d.raise n).fw = d.fw := rfl
@[simp] theorem Dev.raise_wit (d : Dev) (n : Nat) : (d.raise n).wit = d.wit := rfl
@[simp] theorem Dev.raise_memc (d : Dev) (n : Nat) : (d.raise n).memc = d.memc := rfl
@[simp] theorem Dev.raise_cal (d : Dev) (n : Nat) : (d.raise n).cal = d.cal := rfl
@[simp] theorem Dev.raise_diag (d : Dev) (n : Nat) : (d.raise n).diag = d.diag := rfl
@[simp] theorem Dev.raise_chg (d : Dev) (n : Nat) : (d.raise n).chg = d.chg := rfl
@[simp] theorem Dev.raise_chk (d : Dev) (n : Nat) : (d.raise n).chk = d.chk := rfl
@[simp] theorem Dev.raise_sec (d : Dev) (n : Nat) : (d.raise n).sec = d.sec := rfl
@[simp] theorem Dev.raise_ses (d : Dev) (n : Nat) : (d.raise n).ses = d.ses := rfl
@[simp] theorem Dev.raise_ledg (d : Dev) (n : Nat) : (d.raise n).ledg = d.ledg := rfl
@[simp] theorem Dev.raise_cfg (d : Dev) (n : Nat) : (d.raise n).cfg = d.cfg := rfl
@[simp] theorem Dev.raise_test (d : Dev) (n : Nat) : (d.raise n).test = d.test := rfl
@[simp] theorem Dev.raise_evt (d : Dev) (n : Nat) : (d.raise n).evt = d.evt.raise n := rfl
@[simp] theorem Dev.raiseIf_now (d : Dev) (c : Bool) (n : Nat) : (d.raiseIf c n).now = d.now := by cases c <;> rfl
@[simp] theorem Dev.raiseIf_timeZero (d : Dev) (c : Bool) (n : Nat) : (d.raiseIf c n).timeZero = d.timeZero := by cases c <;> rfl
@[simp] theorem Dev.raiseIf_lb (d : Dev) (c : Bool) (n : Nat) : (d.raiseIf c n).lb = d.lb := by cases c <;> rfl
@[simp] theorem Dev.raiseIf_hb (d : Dev) (c : Bool) (n : Nat) : (d.raiseIf c n).hb = d.hb := by cases c <;> rfl
@[simp] theorem Dev.raiseIf_mgmt (d : Dev) (c : Bool) (n : Nat) : (d.raiseIf c n).mgmt = d.mgmt := by cases c <;> rfl
@[simp] theorem Dev.raiseIf_pwr (d : Dev) (c : Bool) (n : Nat) : (d.raiseIf c n).pwr = d.pwr := by cases c <;> rfl
@[simp] theorem Dev.raiseIf_keep (d : Dev) (c : Bool) (n : Nat) : (d.raiseIf c n).keep = d.keep := by cases c <;> rfl
@[simp] theorem Dev.raiseIf_tiles (d : Dev) (c : Bool) (n : Nat) : (d.raiseIf c n).tiles = d.tiles := by cases c <;> rfl
@[simp] theorem Dev.raiseIf_arr (d : Dev) (c : Bool) (n : Nat) : (d.raiseIf c n).arr = d.arr := by cases c <;> rfl
@[simp] theorem Dev.raiseIf_frm (d : Dev) (c : Bool) (n : Nat) : (d.raiseIf c n).frm = d.frm := by cases c <;> rfl
@[simp] theorem Dev.raiseIf_eng (d : Dev) (c : Bool) (n : Nat) : (d.raiseIf c n).eng = d.eng := by cases c <;> rfl
@[simp] theorem Dev.raiseIf_comp (d : Dev) (c : Bool) (n : Nat) : (d.raiseIf c n).comp = d.comp := by cases c <;> rfl
@[simp] theorem Dev.raiseIf_link (d : Dev) (c : Bool) (n : Nat) : (d.raiseIf c n).link = d.link := by cases c <;> rfl
@[simp] theorem Dev.raiseIf_fw (d : Dev) (c : Bool) (n : Nat) : (d.raiseIf c n).fw = d.fw := by cases c <;> rfl
@[simp] theorem Dev.raiseIf_wit (d : Dev) (c : Bool) (n : Nat) : (d.raiseIf c n).wit = d.wit := by cases c <;> rfl
@[simp] theorem Dev.raiseIf_memc (d : Dev) (c : Bool) (n : Nat) : (d.raiseIf c n).memc = d.memc := by cases c <;> rfl
@[simp] theorem Dev.raiseIf_cal (d : Dev) (c : Bool) (n : Nat) : (d.raiseIf c n).cal = d.cal := by cases c <;> rfl
@[simp] theorem Dev.raiseIf_diag (d : Dev) (c : Bool) (n : Nat) : (d.raiseIf c n).diag = d.diag := by cases c <;> rfl
@[simp] theorem Dev.raiseIf_chg (d : Dev) (c : Bool) (n : Nat) : (d.raiseIf c n).chg = d.chg := by cases c <;> rfl
@[simp] theorem Dev.raiseIf_chk (d : Dev) (c : Bool) (n : Nat) : (d.raiseIf c n).chk = d.chk := by cases c <;> rfl
@[simp] theorem Dev.raiseIf_sec (d : Dev) (c : Bool) (n : Nat) : (d.raiseIf c n).sec = d.sec := by cases c <;> rfl
@[simp] theorem Dev.raiseIf_ses (d : Dev) (c : Bool) (n : Nat) : (d.raiseIf c n).ses = d.ses := by cases c <;> rfl
@[simp] theorem Dev.raiseIf_ledg (d : Dev) (c : Bool) (n : Nat) : (d.raiseIf c n).ledg = d.ledg := by cases c <;> rfl
@[simp] theorem Dev.raiseIf_cfg (d : Dev) (c : Bool) (n : Nat) : (d.raiseIf c n).cfg = d.cfg := by cases c <;> rfl
@[simp] theorem Dev.raiseIf_test (d : Dev) (c : Bool) (n : Nat) : (d.raiseIf c n).test = d.test := by cases c <;> rfl
@[simp] theorem Dev.raiseIf_true (d : Dev) (n : Nat) : d.raiseIf true n = d.raise n := rfl
@[simp] theorem Dev.raiseIf_false (d : Dev) (n : Nat) : d.raiseIf false n = d := rfl
@[simp] theorem Dev.send_now (d : Dev) (a b c e : Nat) : (d.send a b c e).now = d.now := rfl
@[simp] theorem Dev.send_timeZero (d : Dev) (a b c e : Nat) : (d.send a b c e).timeZero = d.timeZero := rfl
@[simp] theorem Dev.send_lb (d : Dev) (a b c e : Nat) : (d.send a b c e).lb = d.lb := rfl
@[simp] theorem Dev.send_hb (d : Dev) (a b c e : Nat) : (d.send a b c e).hb = d.hb := rfl
@[simp] theorem Dev.send_evt (d : Dev) (a b c e : Nat) : (d.send a b c e).evt = d.evt := rfl
@[simp] theorem Dev.send_mgmt (d : Dev) (a b c e : Nat) : (d.send a b c e).mgmt = d.mgmt := rfl
@[simp] theorem Dev.send_pwr (d : Dev) (a b c e : Nat) : (d.send a b c e).pwr = d.pwr := rfl
@[simp] theorem Dev.send_tiles (d : Dev) (a b c e : Nat) : (d.send a b c e).tiles = d.tiles := rfl
@[simp] theorem Dev.send_arr (d : Dev) (a b c e : Nat) : (d.send a b c e).arr = d.arr := rfl
@[simp] theorem Dev.send_frm (d : Dev) (a b c e : Nat) : (d.send a b c e).frm = d.frm := rfl
@[simp] theorem Dev.send_eng (d : Dev) (a b c e : Nat) : (d.send a b c e).eng = d.eng := rfl
@[simp] theorem Dev.send_comp (d : Dev) (a b c e : Nat) : (d.send a b c e).comp = d.comp := rfl
@[simp] theorem Dev.send_link (d : Dev) (a b c e : Nat) : (d.send a b c e).link = d.link := rfl
@[simp] theorem Dev.send_fw (d : Dev) (a b c e : Nat) : (d.send a b c e).fw = d.fw := rfl
@[simp] theorem Dev.send_wit (d : Dev) (a b c e : Nat) : (d.send a b c e).wit = d.wit := rfl
@[simp] theorem Dev.send_memc (d : Dev) (a b c e : Nat) : (d.send a b c e).memc = d.memc := rfl
@[simp] theorem Dev.send_cal (d : Dev) (a b c e : Nat) : (d.send a b c e).cal = d.cal := rfl
@[simp] theorem Dev.send_diag (d : Dev) (a b c e : Nat) : (d.send a b c e).diag = d.diag := rfl
@[simp] theorem Dev.send_chg (d : Dev) (a b c e : Nat) : (d.send a b c e).chg = d.chg := rfl
@[simp] theorem Dev.send_chk (d : Dev) (a b c e : Nat) : (d.send a b c e).chk = d.chk := rfl
@[simp] theorem Dev.send_sec (d : Dev) (a b c e : Nat) : (d.send a b c e).sec = d.sec := rfl
@[simp] theorem Dev.send_ses (d : Dev) (a b c e : Nat) : (d.send a b c e).ses = d.ses := rfl
@[simp] theorem Dev.send_ledg (d : Dev) (a b c e : Nat) : (d.send a b c e).ledg = d.ledg := rfl
@[simp] theorem Dev.send_cfg (d : Dev) (a b c e : Nat) : (d.send a b c e).cfg = d.cfg := rfl
@[simp] theorem Dev.send_test (d : Dev) (a b c e : Nat) : (d.send a b c e).test = d.test := rfl
@[simp] theorem Dev.send_keep (d : Dev) (a b c e : Nat) :
    (d.send a b c e).keep = { d.keep with transit := d.keep.transit ++ [mkMsg a b c e] } := rfl
@[simp] theorem Dev.sendDirect_now (d : Dev) (a b c e : Nat) : (d.sendDirect a b c e).now = d.now := rfl
@[simp] theorem Dev.sendDirect_timeZero (d : Dev) (a b c e : Nat) : (d.sendDirect a b c e).timeZero = d.timeZero := rfl
@[simp] theorem Dev.sendDirect_lb (d : Dev) (a b c e : Nat) : (d.sendDirect a b c e).lb = d.lb := rfl
@[simp] theorem Dev.sendDirect_hb (d : Dev) (a b c e : Nat) : (d.sendDirect a b c e).hb = d.hb := rfl
@[simp] theorem Dev.sendDirect_evt (d : Dev) (a b c e : Nat) : (d.sendDirect a b c e).evt = d.evt := rfl
@[simp] theorem Dev.sendDirect_mgmt (d : Dev) (a b c e : Nat) : (d.sendDirect a b c e).mgmt = d.mgmt := rfl
@[simp] theorem Dev.sendDirect_pwr (d : Dev) (a b c e : Nat) : (d.sendDirect a b c e).pwr = d.pwr := rfl
@[simp] theorem Dev.sendDirect_tiles (d : Dev) (a b c e : Nat) : (d.sendDirect a b c e).tiles = d.tiles := rfl
@[simp] theorem Dev.sendDirect_arr (d : Dev) (a b c e : Nat) : (d.sendDirect a b c e).arr = d.arr := rfl
@[simp] theorem Dev.sendDirect_frm (d : Dev) (a b c e : Nat) : (d.sendDirect a b c e).frm = d.frm := rfl
@[simp] theorem Dev.sendDirect_eng (d : Dev) (a b c e : Nat) : (d.sendDirect a b c e).eng = d.eng := rfl
@[simp] theorem Dev.sendDirect_comp (d : Dev) (a b c e : Nat) : (d.sendDirect a b c e).comp = d.comp := rfl
@[simp] theorem Dev.sendDirect_link (d : Dev) (a b c e : Nat) : (d.sendDirect a b c e).link = d.link := rfl
@[simp] theorem Dev.sendDirect_fw (d : Dev) (a b c e : Nat) : (d.sendDirect a b c e).fw = d.fw := rfl
@[simp] theorem Dev.sendDirect_wit (d : Dev) (a b c e : Nat) : (d.sendDirect a b c e).wit = d.wit := rfl
@[simp] theorem Dev.sendDirect_memc (d : Dev) (a b c e : Nat) : (d.sendDirect a b c e).memc = d.memc := rfl
@[simp] theorem Dev.sendDirect_cal (d : Dev) (a b c e : Nat) : (d.sendDirect a b c e).cal = d.cal := rfl
@[simp] theorem Dev.sendDirect_diag (d : Dev) (a b c e : Nat) : (d.sendDirect a b c e).diag = d.diag := rfl
@[simp] theorem Dev.sendDirect_chg (d : Dev) (a b c e : Nat) : (d.sendDirect a b c e).chg = d.chg := rfl
@[simp] theorem Dev.sendDirect_chk (d : Dev) (a b c e : Nat) : (d.sendDirect a b c e).chk = d.chk := rfl
@[simp] theorem Dev.sendDirect_sec (d : Dev) (a b c e : Nat) : (d.sendDirect a b c e).sec = d.sec := rfl
@[simp] theorem Dev.sendDirect_ses (d : Dev) (a b c e : Nat) : (d.sendDirect a b c e).ses = d.ses := rfl
@[simp] theorem Dev.sendDirect_ledg (d : Dev) (a b c e : Nat) : (d.sendDirect a b c e).ledg = d.ledg := rfl
@[simp] theorem Dev.sendDirect_cfg (d : Dev) (a b c e : Nat) : (d.sendDirect a b c e).cfg = d.cfg := rfl
@[simp] theorem Dev.sendDirect_test (d : Dev) (a b c e : Nat) : (d.sendDirect a b c e).test = d.test := rfl
@[simp] theorem Dev.sendDirect_keep (d : Dev) (a b c e : Nat) :
    (d.sendDirect a b c e).keep = { d.keep with direct := d.keep.direct ++ [mkMsg a b c e] } := rfl

/-! ## Tiles -/

@[simp] theorem Dev.onTile_now (d : Dev) (t : Nat) (f : Tile → Tile) : (d.onTile t f).now = d.now := rfl
@[simp] theorem Dev.onTiles_now (d : Dev) (f : Nat → Tile → Tile) : (d.onTiles f).now = d.now := rfl
@[simp] theorem Dev.onTile_timeZero (d : Dev) (t : Nat) (f : Tile → Tile) : (d.onTile t f).timeZero = d.timeZero := rfl
@[simp] theorem Dev.onTiles_timeZero (d : Dev) (f : Nat → Tile → Tile) : (d.onTiles f).timeZero = d.timeZero := rfl
@[simp] theorem Dev.onTile_lb (d : Dev) (t : Nat) (f : Tile → Tile) : (d.onTile t f).lb = d.lb := rfl
@[simp] theorem Dev.onTiles_lb (d : Dev) (f : Nat → Tile → Tile) : (d.onTiles f).lb = d.lb := rfl
@[simp] theorem Dev.onTile_hb (d : Dev) (t : Nat) (f : Tile → Tile) : (d.onTile t f).hb = d.hb := rfl
@[simp] theorem Dev.onTiles_hb (d : Dev) (f : Nat → Tile → Tile) : (d.onTiles f).hb = d.hb := rfl
@[simp] theorem Dev.onTile_evt (d : Dev) (t : Nat) (f : Tile → Tile) : (d.onTile t f).evt = d.evt := rfl
@[simp] theorem Dev.onTiles_evt (d : Dev) (f : Nat → Tile → Tile) : (d.onTiles f).evt = d.evt := rfl
@[simp] theorem Dev.onTile_mgmt (d : Dev) (t : Nat) (f : Tile → Tile) : (d.onTile t f).mgmt = d.mgmt := rfl
@[simp] theorem Dev.onTiles_mgmt (d : Dev) (f : Nat → Tile → Tile) : (d.onTiles f).mgmt = d.mgmt := rfl
@[simp] theorem Dev.onTile_pwr (d : Dev) (t : Nat) (f : Tile → Tile) : (d.onTile t f).pwr = d.pwr := rfl
@[simp] theorem Dev.onTiles_pwr (d : Dev) (f : Nat → Tile → Tile) : (d.onTiles f).pwr = d.pwr := rfl
@[simp] theorem Dev.onTile_keep (d : Dev) (t : Nat) (f : Tile → Tile) : (d.onTile t f).keep = d.keep := rfl
@[simp] theorem Dev.onTiles_keep (d : Dev) (f : Nat → Tile → Tile) : (d.onTiles f).keep = d.keep := rfl
@[simp] theorem Dev.onTile_arr (d : Dev) (t : Nat) (f : Tile → Tile) : (d.onTile t f).arr = d.arr := rfl
@[simp] theorem Dev.onTiles_arr (d : Dev) (f : Nat → Tile → Tile) : (d.onTiles f).arr = d.arr := rfl
@[simp] theorem Dev.onTile_frm (d : Dev) (t : Nat) (f : Tile → Tile) : (d.onTile t f).frm = d.frm := rfl
@[simp] theorem Dev.onTiles_frm (d : Dev) (f : Nat → Tile → Tile) : (d.onTiles f).frm = d.frm := rfl
@[simp] theorem Dev.onTile_eng (d : Dev) (t : Nat) (f : Tile → Tile) : (d.onTile t f).eng = d.eng := rfl
@[simp] theorem Dev.onTiles_eng (d : Dev) (f : Nat → Tile → Tile) : (d.onTiles f).eng = d.eng := rfl
@[simp] theorem Dev.onTile_comp (d : Dev) (t : Nat) (f : Tile → Tile) : (d.onTile t f).comp = d.comp := rfl
@[simp] theorem Dev.onTiles_comp (d : Dev) (f : Nat → Tile → Tile) : (d.onTiles f).comp = d.comp := rfl
@[simp] theorem Dev.onTile_link (d : Dev) (t : Nat) (f : Tile → Tile) : (d.onTile t f).link = d.link := rfl
@[simp] theorem Dev.onTiles_link (d : Dev) (f : Nat → Tile → Tile) : (d.onTiles f).link = d.link := rfl
@[simp] theorem Dev.onTile_fw (d : Dev) (t : Nat) (f : Tile → Tile) : (d.onTile t f).fw = d.fw := rfl
@[simp] theorem Dev.onTiles_fw (d : Dev) (f : Nat → Tile → Tile) : (d.onTiles f).fw = d.fw := rfl
@[simp] theorem Dev.onTile_wit (d : Dev) (t : Nat) (f : Tile → Tile) : (d.onTile t f).wit = d.wit := rfl
@[simp] theorem Dev.onTiles_wit (d : Dev) (f : Nat → Tile → Tile) : (d.onTiles f).wit = d.wit := rfl
@[simp] theorem Dev.onTile_memc (d : Dev) (t : Nat) (f : Tile → Tile) : (d.onTile t f).memc = d.memc := rfl
@[simp] theorem Dev.onTiles_memc (d : Dev) (f : Nat → Tile → Tile) : (d.onTiles f).memc = d.memc := rfl
@[simp] theorem Dev.onTile_cal (d : Dev) (t : Nat) (f : Tile → Tile) : (d.onTile t f).cal = d.cal := rfl
@[simp] theorem Dev.onTiles_cal (d : Dev) (f : Nat → Tile → Tile) : (d.onTiles f).cal = d.cal := rfl
@[simp] theorem Dev.onTile_diag (d : Dev) (t : Nat) (f : Tile → Tile) : (d.onTile t f).diag = d.diag := rfl
@[simp] theorem Dev.onTiles_diag (d : Dev) (f : Nat → Tile → Tile) : (d.onTiles f).diag = d.diag := rfl
@[simp] theorem Dev.onTile_chg (d : Dev) (t : Nat) (f : Tile → Tile) : (d.onTile t f).chg = d.chg := rfl
@[simp] theorem Dev.onTiles_chg (d : Dev) (f : Nat → Tile → Tile) : (d.onTiles f).chg = d.chg := rfl
@[simp] theorem Dev.onTile_chk (d : Dev) (t : Nat) (f : Tile → Tile) : (d.onTile t f).chk = d.chk := rfl
@[simp] theorem Dev.onTiles_chk (d : Dev) (f : Nat → Tile → Tile) : (d.onTiles f).chk = d.chk := rfl
@[simp] theorem Dev.onTile_sec (d : Dev) (t : Nat) (f : Tile → Tile) : (d.onTile t f).sec = d.sec := rfl
@[simp] theorem Dev.onTiles_sec (d : Dev) (f : Nat → Tile → Tile) : (d.onTiles f).sec = d.sec := rfl
@[simp] theorem Dev.onTile_ses (d : Dev) (t : Nat) (f : Tile → Tile) : (d.onTile t f).ses = d.ses := rfl
@[simp] theorem Dev.onTiles_ses (d : Dev) (f : Nat → Tile → Tile) : (d.onTiles f).ses = d.ses := rfl
@[simp] theorem Dev.onTile_ledg (d : Dev) (t : Nat) (f : Tile → Tile) : (d.onTile t f).ledg = d.ledg := rfl
@[simp] theorem Dev.onTiles_ledg (d : Dev) (f : Nat → Tile → Tile) : (d.onTiles f).ledg = d.ledg := rfl
@[simp] theorem Dev.onTile_cfg (d : Dev) (t : Nat) (f : Tile → Tile) : (d.onTile t f).cfg = d.cfg := rfl
@[simp] theorem Dev.onTiles_cfg (d : Dev) (f : Nat → Tile → Tile) : (d.onTiles f).cfg = d.cfg := rfl
@[simp] theorem Dev.onTile_test (d : Dev) (t : Nat) (f : Tile → Tile) : (d.onTile t f).test = d.test := rfl
@[simp] theorem Dev.onTiles_test (d : Dev) (f : Nat → Tile → Tile) : (d.onTiles f).test = d.test := rfl

end Sys2Proof.Machine
end

