-- ==== Sys2Proof/Laws/Events.lean ====
section
/-! SUPPORT. What raising events, queueing replies, stopping the witness and leaving a session can do: the fields they
reach, said once, and that a pending event stays pending. -/

namespace Sys2Proof.Machine

/-! ## Events (R450, R451) -/

theorem getLsbD_shl_one (n k : Nat) : ((1#128 : BitVec 128) <<< n).getLsbD k = (decide (k < 128) && decide (k = n)) := by
  rw [BitVec.getLsbD_shiftLeft, BitVec.getLsbD_one]
  by_cases h1 : k < 128 <;> by_cases h2 : k = n
  · subst h2; simp [h1]
  · by_cases h3 : k < n
    · simp [h1, h2, h3]
    · have : ¬ k - n = 0 := by omega
      simp [h1, h2, h3]; omega
  · simp [h1]
  · simp [h1]

/-- Raising event `n` sets its flag and no other, unless it is reserved. -/
theorem Evt.raise_pend (e : Evt) (n k : Nat) :
    (e.raise n).pend.getLsbD k = (e.pend.getLsbD k || (decide (k = n) && !reservedEvent n)) := by
  unfold Evt.raise
  split
  · rename_i h; simp [h]
  · rename_i h
    have hn : n < 128 := by
      rcases Nat.lt_or_ge n 128 with h' | h'
      · exact h'
      · exact absurd (by simp [reservedEvent, h']) h
    simp only [BitVec.getLsbD_or, getLsbD_shl_one, h]
    by_cases hk : k = n
    · subst hk; simp [hn]
    · simp [hk]

@[simp] theorem Evt.raise_en (e : Evt) (n : Nat) : (e.raise n).en = e.en := by unfold Evt.raise; split <;> rfl

/-- An event once pending stays so when another is raised. -/
theorem Evt.raise_keeps (e : Evt) (n k : Nat) (h : e.pend.getLsbD k = true) : (e.raise n).pend.getLsbD k = true := by
  rw [Evt.raise_pend, h]; rfl

/-! ## Replies (R237, R238) -/

/-- Queueing a reply: it joins the queue, or a full queue drops it, counted, with event 37. -/
theorem Dev.queueReply_cases (d : Dev) (p : Bytes) :
    (d.fw.replies.length < 256 ∧ d.queueReply p = d.onFw (fun f => { f with replies := f.replies ++ [p] })) ∨
    (256 ≤ d.fw.replies.length ∧
      d.queueReply p = (d.onFw (fun f => { f with
        replyDropped := satInc 65535 f.replyDropped, overflow := f.overflow + 1 })).raise 37) := by
  unfold Dev.queueReply
  split
  · rename_i h; exact .inl ⟨h, rfl⟩
  · rename_i h; exact .inr ⟨Nat.le_of_not_lt h, rfl⟩

/-- A reply: it is queued while LRX runs, and waits for its clock while it does not. -/
theorem Dev.reply_cases (d : Dev) (ty : Nat) (ws : List Nat) :
    (d.fairwayOn = true ∧ d.reply ty ws = d.queueReply (packet ty (ws.flatMap word32))) ∨
    (d.fairwayOn = false ∧ d.reply ty ws = d.onFw (fun f => { f with crossing := f.crossing ++ [packet ty (ws.flatMap word32)] })) := by
  unfold Dev.reply
  cases h : d.fairwayOn
  · exact .inr ⟨rfl, rfl⟩
  · exact .inl ⟨rfl, rfl⟩

/-- What a run of replies can reach: the reply queue with what waits before it, its two counts and the events. -/
structure OnlyReplies (d d' : Dev) : Prop where
  dev : d' = { d with fw := d'.fw, evt := d'.evt }
  fw : d'.fw = { d.fw with replies := d'.fw.replies, crossing := d'.fw.crossing, replyDropped := d'.fw.replyDropped, overflow := d'.fw.overflow }
  keeps : ∀ k, d.evt.pend.getLsbD k = true → d'.evt.pend.getLsbD k = true

theorem OnlyReplies.refl (d : Dev) : OnlyReplies d d := ⟨rfl, rfl, fun _ h => h⟩

theorem OnlyReplies.trans {a b c : Dev} (h : OnlyReplies a b) (h' : OnlyReplies b c) : OnlyReplies a c := by
  refine ⟨?_, ?_, fun k hk => h'.keeps k (h.keeps k hk)⟩
  · rw [h'.dev, h.dev]
  · rw [h'.fw, h.fw]

theorem OnlyReplies.queueReply (d : Dev) (p : Bytes) : OnlyReplies d (d.queueReply p) := by
  rcases Dev.queueReply_cases d p with ⟨_, h⟩ | ⟨_, h⟩
  · rw [h]; exact ⟨rfl, rfl, fun _ h => h⟩
  · rw [h]; exact ⟨rfl, rfl, fun k hk => Evt.raise_keeps _ _ k hk⟩

theorem OnlyReplies.reply (d : Dev) (ty : Nat) (ws : List Nat) : OnlyReplies d (d.reply ty ws) := by
  rcases Dev.reply_cases d ty ws with ⟨_, h⟩ | ⟨_, h⟩
  · rw [h]; exact OnlyReplies.queueReply ..
  · rw [h]; exact ⟨rfl, rfl, fun _ h => h⟩

theorem OnlyReplies.reject (d : Dev) (ty reason idx : Nat) : OnlyReplies d (d.reject ty reason idx) := OnlyReplies.reply ..

theorem OnlyReplies.commitResult (d : Dev) (isMode : Bool) (sent outcome reason now : Nat) :
    OnlyReplies d (d.commitResult isMode sent outcome reason now) := OnlyReplies.reply ..

theorem OnlyReplies.foldl {α : Type} (f : Dev → α → Dev) (hf : ∀ d x, OnlyReplies d (f d x)) :
    ∀ (xs : List α) (d : Dev), OnlyReplies d (xs.foldl f d)
  | [], d => OnlyReplies.refl d
  | x :: xs, d => (hf d x).trans (OnlyReplies.foldl f hf xs (f d x))

/-- RELEASE replies (R234). -/
theorem OnlyReplies.releases (d was : Dev) : OnlyReplies d (d.releases was) :=
  OnlyReplies.foldl _ (fun d b => OnlyReplies.reply d 0x86 [b]) _ d

/-! ## The witness, the session and the link (R204, R205, R241, R364) -/

/-- Stopping the witness reaches its own block, the events and what is on its way to the Keeper. -/
theorem Dev.witnessStop_frame (d : Dev) :
    d.witnessStop = { d with wit := d.witnessStop.wit, evt := d.witnessStop.evt, keep := d.witnessStop.keep } ∧
    d.witnessStop.wit.running = false ∧ d.witnessStop.wit.waiting = false := by
  unfold Dev.witnessStop
  split
  · exact ⟨rfl, rfl, rfl⟩
  · rename_i h; exact ⟨rfl, by simpa using h, rfl⟩

/-- Ending the session clears its keys and its numbers, and stops the witness. -/
theorem Dev.endSession_frame (d : Dev) :
    d.endSession = { d with
      ses := d.endSession.ses, fw := d.endSession.fw, wit := d.endSession.wit, evt := d.endSession.evt, keep := d.endSession.keep } ∧
    d.endSession.ses = { d.ses with keys := none, oldKeys := none, mode := 0, oldMode := 0, rekeySent := false, hs := none } ∧
    d.endSession.fw = { d.fw with rxNext := 0, rxNextOld := 0, txNext := 0, partPkt := none } := by
  unfold Dev.endSession Dev.witnessStop
  dsimp only
  split <;> exact ⟨rfl, rfl, rfl⟩

/-- Discarding what is pending empties the table and the staged sets, and replies RELEASE. -/
theorem Dev.discardPending_frame (d : Dev) :
    d.discardPending.frm = { d.frm with commits := [], modePend := none, delayed := [] } ∧
    d.discardPending.eng = { d.eng with sectStaged := none, symStaged := none } ∧
    d.discardPending = { d with
      frm := d.discardPending.frm, eng := d.discardPending.eng, fw := d.discardPending.fw, evt := d.discardPending.evt } := by
  have h := OnlyReplies.releases
    ((d.onFrm (fun f => { f with commits := [], modePend := none, delayed := [] })).onEng
      (fun e => { e with sectStaged := none, symStaged := none })) d
  change OnlyReplies _ d.discardPending at h
  have e := h.dev
  refine ⟨by rw [e]; rfl, by rw [e]; rfl, ?_⟩
  rw [e]; rfl

end Sys2Proof.Machine
end

