-- ==== Sys2Proof/Laws/SMap.lean ====
section
/-! SUPPORT. The laws of a sparse map: what a read finds after each operation, and that each keeps the canonical form. -/

namespace Sys2Proof.Machine

variable {α : Type}

/-! ## Reads -/

theorem SMap.get_insert (dflt v : α) (m : SMap α) (k j : Nat) :
    SMap.get dflt (SMap.insert k v m) j = if j = k then v else SMap.get dflt m j := by
  induction m with
  | nil => simp [SMap.insert, SMap.get]
  | cons e m ih =>
    obtain ⟨a, b⟩ := e
    unfold SMap.insert
    split
    · simp [SMap.get]
    · split
      · subst_vars
        simp only [SMap.get]
        split <;> simp_all
      · simp only [SMap.get, ih]
        split <;> split <;> simp_all

theorem SMap.get_erase (dflt : α) (m : SMap α) (k j : Nat) :
    SMap.get dflt (SMap.erase k m) j = if j = k then dflt else SMap.get dflt m j := by
  induction m with
  | nil => simp [SMap.erase, SMap.get]
  | cons e m ih =>
    obtain ⟨a, b⟩ := e
    by_cases h : a = k
    · subst h
      have : SMap.erase a ((a, b) :: m) = SMap.erase a m := by simp [SMap.erase]
      rw [this, ih]
      by_cases hj : j = a <;> simp [SMap.get, hj]
    · have : SMap.erase k ((a, b) :: m) = (a, b) :: SMap.erase k m := by simp [SMap.erase, h]
      rw [this, SMap.get, SMap.get, ih]
      by_cases hj : j = a
      · subst hj; simp [h]
      · simp [hj]

/-- A read after a write: the value written at its key, the old value elsewhere. -/
theorem SMap.get_set [DecidableEq α] (dflt v : α) (m : SMap α) (k j : Nat) :
    SMap.get dflt (SMap.set dflt m k v) j = if j = k then v else SMap.get dflt m j := by
  unfold SMap.set
  split
  · rename_i h; rw [SMap.get_erase, h]
  · exact SMap.get_insert dflt v m k j

theorem SMap.get_upd [DecidableEq α] (dflt : α) (m : SMap α) (k j : Nat) (f : α → α) :
    SMap.get dflt (SMap.upd dflt m k f) j = if j = k then f (SMap.get dflt m k) else SMap.get dflt m j :=
  SMap.get_set dflt _ m k j

/-- A read after every key of a list without repeats was changed. -/
theorem SMap.get_updAll [DecidableEq α] (dflt : α) (f : Nat → α → α) (j : Nat) :
    ∀ (ks : List Nat) (m : SMap α), ks.Nodup →
      SMap.get dflt (SMap.updAll dflt m ks f) j = if j ∈ ks then f j (SMap.get dflt m j) else SMap.get dflt m j
  | [], m, _ => by simp [SMap.updAll]
  | k :: ks, m, h => by
    obtain ⟨hk, hks⟩ := List.nodup_cons.mp h
    have := SMap.get_updAll dflt f j ks (SMap.upd dflt m k (f k)) hks
    simp only [SMap.updAll, List.foldl_cons] at this ⊢
    rw [this, SMap.get_upd]
    by_cases hj : j = k
    · subst hj; simp [hk]
    · simp [hj]

/-! ## The canonical form -/

theorem SMap.sorted_mono : ∀ (m : SMap α) (lo lo' : Nat), lo' ≤ lo → SMap.sorted lo m = true → SMap.sorted lo' m = true
  | [], _, _, _, _ => rfl
  | (k, _) :: m, lo, lo', h, hs => by
    simp only [SMap.sorted, Bool.and_eq_true, decide_eq_true_eq] at hs ⊢
    exact ⟨Nat.le_trans h hs.1, hs.2⟩

theorem SMap.sorted_insert (v : α) : ∀ (m : SMap α) (lo k : Nat), lo ≤ k → SMap.sorted lo m = true →
    SMap.sorted lo (SMap.insert k v m) = true
  | [], lo, k, h, _ => by simp [SMap.insert, SMap.sorted, h]
  | (a, b) :: m, lo, k, h, hs => by
    simp only [SMap.sorted, Bool.and_eq_true, decide_eq_true_eq] at hs
    unfold SMap.insert
    split
    · rename_i hlt
      simp only [SMap.sorted, Bool.and_eq_true, decide_eq_true_eq]
      exact ⟨h, hlt, hs.2⟩
    · split
      · rename_i heq; subst heq
        simp only [SMap.sorted, Bool.and_eq_true, decide_eq_true_eq]
        exact ⟨h, hs.2⟩
      · simp only [SMap.sorted, Bool.and_eq_true, decide_eq_true_eq]
        exact ⟨hs.1, SMap.sorted_insert v m (a + 1) k (by omega) hs.2⟩

theorem SMap.sorted_filter (p : Nat × α → Bool) : ∀ (m : SMap α) (lo : Nat), SMap.sorted lo m = true →
    SMap.sorted lo (m.filter p) = true
  | [], _, _ => rfl
  | (a, b) :: m, lo, hs => by
    simp only [SMap.sorted, Bool.and_eq_true, decide_eq_true_eq] at hs
    rw [List.filter_cons]
    split
    · simp only [SMap.sorted, Bool.and_eq_true, decide_eq_true_eq]
      exact ⟨hs.1, SMap.sorted_filter p m (a + 1) hs.2⟩
    · exact SMap.sorted_mono _ (a + 1) lo (by omega) (SMap.sorted_filter p m (a + 1) hs.2)

theorem SMap.sorted_map (f : Nat → α → α) : ∀ (m : SMap α) (lo : Nat), SMap.sorted lo m = true →
    SMap.sorted lo (m.map (fun e => (e.1, f e.1 e.2))) = true
  | [], _, _ => rfl
  | (a, b) :: m, lo, hs => by
    simp only [SMap.sorted, Bool.and_eq_true, decide_eq_true_eq, List.map_cons] at hs ⊢
    exact ⟨hs.1, SMap.sorted_map f m (a + 1) hs.2⟩

/-- An unlisted key below every listed one reads as the default. -/
theorem SMap.get_below (dflt : α) : ∀ (m : SMap α) (lo k : Nat), SMap.sorted lo m = true → k < lo → SMap.get dflt m k = dflt
  | [], _, _, _, _ => rfl
  | (a, b) :: m, lo, k, hs, h => by
    simp only [SMap.sorted, Bool.and_eq_true, decide_eq_true_eq] at hs
    rw [SMap.get, if_neg (by omega)]
    exact SMap.get_below dflt m (a + 1) k hs.2 (by omega)

theorem SMap.mem_insert {v : α} {k : Nat} {e : Nat × α} : ∀ {m : SMap α}, e ∈ SMap.insert k v m → e = (k, v) ∨ e ∈ m
  | [], h => by simpa [SMap.insert] using h
  | (a, b) :: m, h => by
    unfold SMap.insert at h
    split at h
    · simpa using h
    · split at h
      · rcases List.mem_cons.mp h with h | h
        · exact .inl h
        · exact .inr (List.mem_cons_of_mem _ h)
      · rcases List.mem_cons.mp h with h | h
        · exact .inr (h ▸ List.mem_cons_self ..)
        · rcases SMap.mem_insert h with h | h
          · exact .inl h
          · exact .inr (List.mem_cons_of_mem _ h)

/-- The canonical form, said by its two parts. -/
theorem SMap.wf_iff [DecidableEq α] (dflt : α) (m : SMap α) :
    SMap.wf dflt m = true ↔ SMap.sorted 0 m = true ∧ ∀ e ∈ m, e.2 ≠ dflt := by
  simp [SMap.wf, Bool.and_eq_true, List.all_eq_true]

theorem SMap.wf_set [DecidableEq α] (dflt v : α) (m : SMap α) (k : Nat) (h : SMap.wf dflt m = true) :
    SMap.wf dflt (SMap.set dflt m k v) = true := by
  rw [SMap.wf_iff] at h ⊢
  unfold SMap.set
  split
  · exact ⟨SMap.sorted_filter _ m 0 h.1, fun e he => h.2 e ((List.mem_filter.mp he).1)⟩
  · rename_i hv
    refine ⟨SMap.sorted_insert v m 0 k (Nat.zero_le _) h.1, fun e he => ?_⟩
    rcases SMap.mem_insert he with rfl | he
    · exact hv
    · exact h.2 e he

theorem SMap.wf_upd [DecidableEq α] (dflt : α) (m : SMap α) (k : Nat) (f : α → α) (h : SMap.wf dflt m = true) :
    SMap.wf dflt (SMap.upd dflt m k f) = true :=
  SMap.wf_set dflt _ m k h

theorem SMap.wf_updAll [DecidableEq α] (dflt : α) (f : Nat → α → α) : ∀ (ks : List Nat) (m : SMap α), SMap.wf dflt m = true →
    SMap.wf dflt (SMap.updAll dflt m ks f) = true
  | [], _, h => h
  | k :: ks, m, h => SMap.wf_updAll dflt f ks _ (SMap.wf_upd dflt m k (f k) h)

theorem SMap.wf_mapAll [DecidableEq α] (dflt : α) (f : Nat → α → α) (m : SMap α) (h : SMap.wf dflt m = true) :
    SMap.wf dflt (SMap.mapAll dflt f m) = true := by
  rw [SMap.wf_iff] at h ⊢
  exact ⟨SMap.sorted_filter _ _ 0 (SMap.sorted_map f m 0 h.1), fun e he => by simpa using (List.mem_filter.mp he).2⟩

/-- A read after every listed value was changed, by a change that leaves the default alone. -/
theorem SMap.get_mapAll [DecidableEq α] (dflt : α) (f : Nat → α → α) (hf : ∀ k, f k dflt = dflt) :
    ∀ (m : SMap α) (lo j : Nat), SMap.sorted lo m = true → SMap.get dflt (SMap.mapAll dflt f m) j = f j (SMap.get dflt m j)
  | [], _, j, _ => by simp [SMap.mapAll, SMap.get, hf]
  | (a, b) :: m, lo, j, hs => by
    simp only [SMap.sorted, Bool.and_eq_true, decide_eq_true_eq] at hs
    have ih := SMap.get_mapAll dflt f hf m (a + 1) j hs.2
    simp only [SMap.mapAll, List.map_cons, List.filter_cons, SMap.get] at ih ⊢
    by_cases hj : j = a
    · subst hj
      rw [SMap.get_below dflt m (j + 1) j hs.2 (Nat.lt_succ_self _), hf] at ih
      split
      · simp [SMap.get]
      · rename_i hb
        have hb' : f j b = dflt := by simpa using hb
        rw [ih, if_pos rfl, hb']
    · simp only [if_neg hj]
      split
      · simp only [SMap.get, if_neg hj]; exact ih
      · exact ih

end Sys2Proof.Machine
end

