-- ==== Sys2Proof/Laws/Frames.lean ====
section
/-! SUPPORT. The laws of received frames, of the reply queue and of the queues of layer memory that statements about whole
commands cite. -/

namespace Sys2Proof.Machine

/-! ## Bytes -/

theorem toBe_length : ∀ n x : Nat, (toBe n x).length = n
  | 0, _ => rfl
  | n + 1, x => by rw [toBe, List.length_cons, toBe_length n x]

/-- A word sent most significant byte first reads back. -/
theorem beNat_toBe4 (x : Nat) : beNat (toBe 4 x) = x % 2 ^ 32 := by
  simp only [toBe, beNat, List.foldl_cons, List.foldl_nil, BitVec.toNat_ofNat]
  omega

/-! ## Frames (R212, R215, R218) -/

/-- A frame whose last four bytes are the CRC of the rest under a fold word matches under it. -/
theorem crcMatches_of (body : Bytes) (fold : Nat) (h : body.length = 2072) (hc : frameCrc fold body < 2 ^ 32) :
    crcMatches (body ++ toBe 4 (frameCrc fold body)) fold = true := by
  have ht : (body ++ toBe 4 (frameCrc fold body)).take 2072 = body := by
    rw [← h, List.take_left']; rfl
  have hd : (body ++ toBe 4 (frameCrc fold body)).drop 2072 = toBe 4 (frameCrc fold body) := by
    rw [← h, List.drop_left']; rfl
  unfold crcMatches
  rw [ht, hd, beNat_toBe4, Nat.mod_eq_of_lt hc]
  simp [h, toBe_length]

theorem frameCrc_lt (fold : Nat) (bs : Bytes) : frameCrc fold bs < 2 ^ 32 := Nat.mod_lt _ (by decide)

/-- An unnumbered frame that matches under fold word 0, has a good format and is not marked encrypted passes with its payload
(R214, R218, R361). -/
theorem Dev.checkFrame_plain (d : Dev) (f : Bytes) (hn : numbered (fType f) = false) (hc : crcMatches f 0 = true)
    (hf : badFormat f = false) (he : fEnc f = false) : d.checkFrame f = .good (fPayload f) := by
  unfold Dev.checkFrame
  simp [hn, hc, hf, he]

/-! ## Replies (R237) -/

/-- What goes in a REPLY frame and what waits on are the queue, in order. -/
theorem fitReplies_split : ∀ (ps : List Bytes) (used : Nat), ps = (fitReplies used ps).1 ++ (fitReplies used ps).2
  | [], _ => rfl
  | p :: ps, used => by
    unfold fitReplies
    split
    · simp only [List.cons_append]; rw [← fitReplies_split ps]
    · rfl

/-! ## Queues of layer memory (R248, R469) -/

/-- Without a delayed answer that is due, nothing is answered. -/
theorem Dev.answers_none (d : Dev) (h : ∀ x ∈ d.memc.late, d.now < x.due) : d.answers = d := by
  unfold Dev.answers
  have h1 : d.memc.late.filter (fun a => decide (a.due ≤ d.now)) = [] := by
    rw [List.filter_eq_nil_iff]; intro a ha; have := h a ha; simp; omega
  have h2 : d.memc.late.filter (fun a => decide (d.now < a.due)) = d.memc.late := by
    rw [List.filter_eq_self]; intro a ha; have := h a ha; simp; omega
  simp [h1, h2, Dev.onMemc]

/-- Passing writes on reaches the queues of the channels alone. -/
theorem Dev.drainWrites_frame : ∀ n (d : Dev) c,
    Dev.drainWrites n d c = { d with memc := { d.memc with chans := (Dev.drainWrites n d c).memc.chans } }
  | 0, _, _ => rfl
  | n + 1, d, c => by
    unfold Dev.drainWrites
    split
    · rfl
    · split
      · rw [Dev.drainWrites_frame n]; rfl
      · rfl

/-! ## Pairs of the lamp changer (R326) -/

theorem Chg.pair_onPair (c : Chg) (u : UnitRef) (f : Pair → Pair) : (c.onPair u f).pair u = f (c.pair u) := by
  cases u <;> simp [Chg.onPair, Chg.pair, SMap.get_upd]

theorem Chg.pair_partner (c : Chg) (u : UnitRef) : c.pair (unitPartner u) = c.pair u := by cases u <;> rfl

theorem unitB_partner (u : UnitRef) : unitB (unitPartner u) = !unitB u := by cases u <;> rfl

theorem Pair.inst_setInst (p : Pair) (b : Bool) (st : InstState) : (p.setInst b st).inst b = st := by cases b <;> rfl

theorem Pair.inst_setInst_other (p : Pair) (b : Bool) (st : InstState) : (p.setInst b st).inst (!b) = p.inst (!b) := by
  cases b <;> rfl

end Sys2Proof.Machine
end

