-- ==== Sys2Proof/Laws/Line.lean ====
section
/-! SUPPORT. Line coding (R187 to R190): a receiver reads back from the bits of a block the payload symbols that were sent. -/

namespace Sys2Proof.Machine

/-! ## Bits and symbols -/

@[simp] theorem toBits_length (w n : Nat) : (toBits w n).length = w := by
  induction w with
  | zero => rfl
  | succ w ih => simp [toBits, ih]

/-- Reading bits from the left on top of `a`. -/
theorem foldl_toBits (w n a : Nat) : (toBits w n).foldl (fun a b => 2 * a + b1 b) a = a * 2 ^ w + n % 2 ^ w := by
  induction w generalizing a with
  | zero => simp [toBits, Nat.mod_one]
  | succ w ih =>
    rw [toBits, List.foldl_cons, ih]
    have h : n % 2 ^ (w + 1) = b1 (bit n w) * 2 ^ w + n % 2 ^ w := by
      rw [pow_succ, Nat.mod_mul, Nat.add_comm, Nat.mul_comm]
      congr 2
      unfold b1 bit
      rcases Nat.mod_two_eq_zero_or_one (n / 2 ^ w) with h | h <;> simp [h]
    rw [h, pow_succ]; ring

/-- A byte read back from its bits. -/
theorem ofBits_toBits (b : Byte) : BitVec.ofNat 8 (ofBits (toBits 8 b.toNat)) = b := by
  rw [ofBits, foldl_toBits, Nat.zero_mul, Nat.zero_add, Nat.mod_eq_of_lt b.isLt]; simp

theorem symbolBits_cons (b : Byte) (bs : Bytes) : symbolBits (b :: bs) = toBits 8 b.toNat ++ symbolBits bs := by
  simp [symbolBits]

theorem symbolBits_length (bs : Bytes) : (symbolBits bs).length = 8 * bs.length := by
  induction bs with
  | nil => rfl
  | cons b bs ih => rw [symbolBits_cons, List.length_append, toBits_length, ih, List.length_cons]; ring

/-- Symbols read back from their bits, whatever follows. -/
theorem bitSymbols_symbolBits (bs : Bytes) (z : Line) : ∀ n, n ≤ bs.length → bitSymbols n (symbolBits bs ++ z) = bs.take n := by
  induction bs with
  | nil => intro n h; obtain rfl : n = 0 := by simpa using h
           rfl
  | cons b bs ih =>
    intro n h
    cases n with
    | zero => rfl
    | succ n =>
      rw [symbolBits_cons, List.append_assoc, bitSymbols, List.take_left' (toBits_length 8 _),
        List.drop_left' (toBits_length 8 _), ofBits_toBits, ih n (by simpa using h), List.take_succ_cons]

/-! ## Stuffing and scrambling -/

/-- After an inserted bit the counter is clear, whatever the bit was. -/
theorem unstuff_zero (l l' : Bool) (bs : Line) : unstuff 0 l bs = unstuff 0 l' bs := by
  cases bs with
  | nil => rfl
  | cons b bs => simp [unstuff, runNext]

/-- Removing stuffed bits keeps the first one. -/
theorem unstuff_cons (run : Nat) (last b : Bool) (bs : Line) : ∃ r, (unstuff run last (b :: bs)).1 = b :: r := by
  unfold unstuff; dsimp only; split <;> exact ⟨_, rfl⟩

/-- A stuffed bit in its place is removed. -/
theorem unstuff_six {run : Nat} {last b : Bool} (h : runNext run last b = 6) (x y : Bool) (bs : Line) :
    (unstuff run last (b :: x :: y :: bs)).1 = b :: (unstuff 0 x (y :: bs)).1 := by
  rw [unstuff]; simp only [h]

/-- A bit that does not complete a run of six is followed by data. -/
theorem unstuff_other {run : Nat} {last b : Bool} (h : runNext run last b ≠ 6) (bs : Line) :
    (unstuff run last (b :: bs)).1 = b :: (unstuff (runNext run last b) b bs).1 := by
  rw [unstuff]
  · intro x y rest h6; exact absurd h6 h

/-- A room that is left is filled. -/
theorem stuffed_succ (room s run : Nat) (last : Bool) (ins : Option Bool) (p : Line) :
    ∃ x r, stuffed (room + 1) s run last ins p = x :: r := by
  cases ins <;> exact ⟨_, _, rfl⟩

/-- A bit that completes a run of six is followed by its complement. -/
theorem stuffed_six {r s run : Nat} {last b : Bool} {p : Line} (h : runNext run last (b != scrambleKey s) = 6) :
    stuffed (r + 3) s run last none (b :: p) =
      (b != scrambleKey s) :: (!(b != scrambleKey s)) :: stuffed (r + 1) (scrambleNext s) 0 (b != scrambleKey s) none p := by
  rw [stuffed]
  exact congrArg _ (if_pos ⟨h, by omega⟩)

/-- One that does not, or finds no room for it, is followed by data. -/
theorem stuffed_other {room s run : Nat} {last b : Bool} {p : Line}
    (h : ¬ (runNext run last (b != scrambleKey s) = 6 ∧ 2 ≤ room)) :
    stuffed (room + 1) s run last none (b :: p) = (b != scrambleKey s) ::
      stuffed room (scrambleNext s) (runNext run last (b != scrambleKey s)) (b != scrambleKey s) none p := by
  rw [stuffed]
  exact congrArg _ (if_neg h)

/-- Descrambling undoes scrambling, bit by bit. -/
theorem scramble_back (s : Nat) (b : Bool) (l : Line) :
    scramble s ((b != scrambleKey s) :: l) = b :: scramble (scrambleNext s) l := by
  rw [scramble]; congr 1; cases b <;> cases scrambleKey s <;> rfl

/-- A receiver whose counter and scrambler stand as the sender's recovers the payload, if it and its stuffing have room. -/
theorem recover (room : Nat) : ∀ (s run : Nat) (last : Bool) (p : Line), run < 6 → p.length + (run + p.length) / 6 ≤ room →
    ∃ z, scramble s (unstuff run last (stuffed room s run last none p)).1 = p ++ z := by
  induction room using Nat.strong_induction_on with
  | _ room ih =>
    intro s run last p hr hp
    cases p with
    | nil => exact ⟨_, rfl⟩
    | cons b p =>
      rw [List.length_cons] at hp
      obtain ⟨room, rfl⟩ : ∃ r, room = r + 1 := ⟨room - 1, by omega⟩
      have hn : runNext run last (b != scrambleKey s) ≤ run + 1 := by unfold runNext; split <;> omega
      by_cases h : runNext run last (b != scrambleKey s) = 6
      · by_cases h2 : 2 ≤ room
        · obtain ⟨r, rfl⟩ : ∃ r, room = r + 2 := ⟨room - 2, by omega⟩
          obtain ⟨y, t, ht⟩ := stuffed_succ r (scrambleNext s) 0 (b != scrambleKey s) none p
          obtain ⟨z, hz⟩ := ih (r + 1) (by omega) (scrambleNext s) 0 (b != scrambleKey s) p (by omega) (by omega)
          refine ⟨z, ?_⟩
          rw [ht] at hz
          rw [stuffed_six h, ht, unstuff_six h, scramble_back, unstuff_zero _ (b != scrambleKey s), hz, List.cons_append]
        · obtain rfl : p = [] := List.length_eq_zero_iff.mp (by omega)
          rw [stuffed_other (fun c => h2 c.2)]
          obtain ⟨r, hr⟩ := unstuff_cons run last (b != scrambleKey s) (stuffed room (scrambleNext s)
            (runNext run last (b != scrambleKey s)) (b != scrambleKey s) none [])
          exact ⟨scramble (scrambleNext s) r, by rw [hr, scramble_back, List.cons_append, List.nil_append]⟩
      · rw [stuffed_other (fun c => h c.1), unstuff_other h, scramble_back]
        obtain ⟨z, hz⟩ := ih room (by omega) (scrambleNext s) (runNext run last (b != scrambleKey s)) (b != scrambleKey s) p
          (by omega) (by omega)
        exact ⟨z, by rw [hz, List.cons_append]⟩

/-! ## Blocks -/

theorem comma_length : comma.length = 17 := rfl

/-- Every block as sent begins with its comma. -/
theorem hasComma_blockLine (seed : Nat) (payload : Bytes) : hasComma (blockLine seed payload) = true := by
  rw [hasComma, blockLine, List.take_left' comma_length, beq_self_eq_true]

/-- A receive lane reads back the payload symbols that its partner's lane sent in a block (R187 to R190). -/
theorem blockSymbols_blockLine (lane n : Nat) (payload : Bytes) (hp : payload.length ≤ blockSyms) (hn : n ≤ payload.length) :
    blockSymbols lane n (blockLine (rxSeed lane) payload) = payload.take n := by
  obtain ⟨z, hz⟩ := recover (blockUi - 17) (rxSeed lane) 0 false (symbolBits payload) (by omega) (by
    rw [symbolBits_length]; simp only [blockSyms, blockUi] at *; omega)
  rw [blockSymbols, blockLine, List.drop_left' comma_length, hz, bitSymbols_symbolBits _ _ _ hn]

/-- The ordered set of a block as sent (R196). -/
theorem lineSet_blockLine (lane : Nat) (set : Bytes) (h : set.length = 16) : lineSet lane (blockLine (rxSeed lane) set) = set := by
  rw [lineSet, if_pos (hasComma_blockLine _ _), blockSymbols_blockLine _ _ _ (by simp [h, blockSyms]) (by omega), ← h,
    List.take_length]

end Sys2Proof.Machine
end

