-- ==== Sys2Proof/Laws/Memory.lean ====
section
/-! SUPPORT. The laws of layer memory: what each byte reads as after a write, and that every operation keeps the canonical
form, which the reset memory has. -/

namespace Sys2Proof.Machine

/-- Layer memory after reset is in canonical form. -/
theorem Memory.wf_reset : State.reset.mem.wf = true := rfl

theorem Memory.wf_iff (m : Memory) : m.wf = true ↔ SMap.sorted 0 m = true ∧ ∀ c ∈ m, c.1 < memTop := by
  simp [Memory.wf, Bool.and_eq_true, List.all_eq_true]

/-! ## One byte -/

theorem Memory.read_insert (b : Byte) : ∀ (m : Memory) (a k : Nat),
    Memory.read (SMap.insert a b m) k = if k = a then some b else Memory.read m k
  | [], a, k => by simp [SMap.insert, Memory.read]
  | (a', b') :: m, a, k => by
    have ih := Memory.read_insert b m a k
    unfold SMap.insert
    split
    · simp [Memory.read]
    · split
      · subst_vars; simp only [Memory.read]; split <;> simp_all
      · simp only [Memory.read, ih]; split <;> split <;> simp_all

/-- A byte after one byte was written inside layer memory. -/
theorem Memory.read_write (m : Memory) (a k : Nat) (b : Byte) (h : a < memTop) :
    (m.write a b).read k = if k = a then some b else m.read k := by
  rw [Memory.write, if_pos h]; exact Memory.read_insert b m a k

/-- A write outside layer memory takes nothing. -/
theorem Memory.write_outside (m : Memory) (a : Nat) (b : Byte) (h : memTop ≤ a) : m.write a b = m := by
  rw [Memory.write, if_neg (by omega)]

theorem Memory.wf_write (m : Memory) (a : Nat) (b : Byte) (h : m.wf = true) : (m.write a b).wf = true := by
  unfold Memory.write
  split
  · rename_i ha
    rw [Memory.wf_iff] at h ⊢
    refine ⟨SMap.sorted_insert b m 0 a (Nat.zero_le _) h.1, fun c hc => ?_⟩
    rcases SMap.mem_insert hc with rfl | hc
    · exact ha
    · exact h.2 c hc
  · exact h

/-! ## A run of bytes -/

theorem Memory.read_append (m m' : Memory) (k : Nat) :
    Memory.read (m ++ m') k = match Memory.read m k with | some b => some b | none => Memory.read m' k := by
  induction m with
  | nil => rfl
  | cons e m ih =>
    obtain ⟨a, b⟩ := e
    simp only [List.cons_append, Memory.read]
    split
    · rfl
    · exact ih

/-- A filter on addresses keeps what it lets through. -/
theorem Memory.read_filter (p : Nat → Bool) (m : Memory) (k : Nat) :
    Memory.read (m.filter (fun c => p c.1)) k = if p k = true then Memory.read m k else none := by
  induction m with
  | nil => simp [Memory.read]
  | cons e m ih =>
    obtain ⟨a, b⟩ := e
    by_cases h : p a = true
    · rw [List.filter_cons_of_pos (by simpa using h)]
      simp only [Memory.read, ih]
      by_cases hk : k = a
      · subst hk; simp [h]
      · simp [hk]
    · rw [List.filter_cons_of_neg (by simpa using h)]
      simp only [Memory.read, ih]
      by_cases hk : k = a
      · subst hk; simp [h]
      · simp [hk]

/-- The bytes of a run placed from address `a`. -/
theorem Memory.read_run : ∀ (bs : Bytes) (a k : Nat),
    Memory.read ((bs.zipIdx a).map (fun e => (e.2, e.1))) k = if a ≤ k then bs[k - a]? else none
  | [], a, k => by simp [Memory.read]
  | b :: bs, a, k => by
    rw [List.zipIdx_cons, List.map_cons, Memory.read, Memory.read_run bs (a + 1) k]
    by_cases h : k = a
    · subst h; simp
    · rw [if_neg h]
      by_cases h' : a ≤ k
      · rw [if_pos (by omega), if_pos h', show k - a = (k - (a + 1)) + 1 by omega, List.getElem?_cons_succ]
      · rw [if_neg (by omega), if_neg h']

/-- A byte after a run of bytes was written: the run's byte inside it as far as layer memory reaches, the old one elsewhere. -/
theorem Memory.read_writeAll (m : Memory) (a k : Nat) (bs : Bytes) :
    (m.writeAll a bs).read k = if a ≤ k ∧ k < a + bs.length ∧ k < memTop then bs[k - a]? else m.read k := by
  unfold Memory.writeAll
  simp only [Memory.read_append, Memory.read_run]
  rw [Memory.read_filter (fun x => decide (x < a)),
    Memory.read_filter (fun x => decide (a + (bs.take (memTop - a)).length ≤ x))]
  simp only [decide_eq_true_eq, List.length_take, List.getElem?_take]
  by_cases h1 : k < a
  · rw [if_pos h1, if_neg (by omega), if_neg (by omega), if_neg (by omega)]
    cases m.read k <;> rfl
  · rw [if_neg h1, if_pos (by omega)]
    by_cases h2 : k < a + bs.length ∧ k < memTop
    · have hk : k - a < bs.length := by omega
      have hm : k - a < memTop - a := by omega
      simp [hm, Nat.le_of_not_lt h1, h2, List.getElem?_eq_getElem hk]
    · rw [if_neg (show ¬ (a ≤ k ∧ k < a + bs.length ∧ k < memTop) by omega)]
      have hn : (if k - a < memTop - a then bs[k - a]? else none) = none := by
        split
        · exact List.getElem?_eq_none (by omega)
        · rfl
      rw [hn, if_pos (by omega)]

theorem Memory.sorted_append : ∀ (m m' : Memory) (lo mid : Nat), SMap.sorted lo m = true → (∀ c ∈ m, c.1 < mid) →
    SMap.sorted mid m' = true → lo ≤ mid → SMap.sorted lo (m ++ m') = true
  | [], m', lo, mid, _, _, h, hl => SMap.sorted_mono m' mid lo hl h
  | (a, b) :: m, m', lo, mid, hs, hb, h, _ => by
    simp only [SMap.sorted, Bool.and_eq_true, decide_eq_true_eq, List.cons_append] at hs ⊢
    have ha := hb (a, b) (List.mem_cons_self ..)
    exact ⟨hs.1, Memory.sorted_append m m' (a + 1) mid hs.2 (fun c hc => hb c (List.mem_cons_of_mem _ hc)) h ha⟩

theorem Memory.sorted_run : ∀ (bs : Bytes) (a : Nat), SMap.sorted a ((bs.zipIdx a).map (fun e => (e.2, e.1))) = true
  | [], _ => rfl
  | b :: bs, a => by
    rw [List.zipIdx_cons, List.map_cons]
    simp only [SMap.sorted, Bool.and_eq_true, decide_eq_true_eq]
    exact ⟨Nat.le_refl _, Memory.sorted_run bs (a + 1)⟩

theorem Memory.sorted_of_le : ∀ (m : Memory) (lo lo' : Nat), SMap.sorted lo m = true → (∀ c ∈ m, lo' ≤ c.1) →
    SMap.sorted lo' m = true
  | [], _, _, _, _ => rfl
  | (a, b) :: m, lo, lo', hs, h => by
    simp only [SMap.sorted, Bool.and_eq_true, decide_eq_true_eq] at hs ⊢
    exact ⟨h (a, b) (List.mem_cons_self ..), hs.2⟩

theorem Memory.wf_writeAll (m : Memory) (a : Nat) (bs : Bytes) (h : m.wf = true) : (m.writeAll a bs).wf = true := by
  rw [Memory.wf_iff] at h ⊢
  unfold Memory.writeAll
  have hrun : ∀ c ∈ ((bs.take (memTop - a)).zipIdx a).map (fun e => (e.2, e.1)),
      a ≤ c.1 ∧ c.1 < a + (bs.take (memTop - a)).length := by
    intro c hc
    obtain ⟨e, he, rfl⟩ := List.mem_map.mp hc
    exact ⟨(List.mem_zipIdx he).1, (List.mem_zipIdx he).2.1⟩
  have hlen : (bs.take (memTop - a)).length ≤ memTop - a := by rw [List.length_take]; omega
  constructor
  · simp only [List.append_assoc]
    apply Memory.sorted_append _ _ 0 a (SMap.sorted_filter _ m 0 h.1)
    · intro c hc; simpa using (List.mem_filter.mp hc).2
    · apply Memory.sorted_append _ _ a (a + (bs.take (memTop - a)).length) (Memory.sorted_run _ a)
      · intro c hc; exact (hrun c hc).2
      · apply Memory.sorted_of_le _ 0 _ (SMap.sorted_filter _ m 0 h.1)
        intro c hc; simpa using (List.mem_filter.mp hc).2
      · omega
    · omega
  · intro c hc
    simp only [List.mem_append] at hc
    rcases hc with (hc | hc) | hc
    · exact h.2 c ((List.mem_filter.mp hc).1)
    · have := hrun c hc; omega
    · exact h.2 c ((List.mem_filter.mp hc).1)

/-! ## Writes that wait (R250) -/

theorem Memory.wf_folds (rs : List Req) : ∀ m : Memory, m.wf = true →
    (rs.foldl (fun m r => m.writeAll r.addr r.data) m).wf = true := by
  induction rs with
  | nil => exact fun _ h => h
  | cons r rs ih => exact fun m h => ih _ (Memory.wf_writeAll m r.addr r.data h)

/-- Layer memory as the writes that wait will leave it is in canonical form. -/
theorem State.memNow_wf (s : State) (h : s.mem.wf = true) : s.memNow.wf = true := by
  unfold State.memNow
  suffices H : ∀ (cs : List Chan) (m : Memory), m.wf = true →
      (cs.foldl (fun m c => c.writes.foldl (fun m r => m.writeAll r.addr r.data) m) m).wf = true from H _ _ h
  intro cs
  induction cs with
  | nil => exact fun _ h => h
  | cons c cs ih => exact fun m h => ih _ (Memory.wf_folds c.writes m h)

theorem State.writeMem_wf (s : State) (a : Nat) (bs : Bytes) (h : s.mem.wf = true) : (s.writeMem a bs).mem.wf = true :=
  Memory.wf_writeAll s.mem a bs h

end Sys2Proof.Machine
end

