-- ==== Sys2Proof/Laws/Port.lean ====
section
/-! SUPPORT. What a transaction of the management port can do: judge, record, and carry out or discard. -/

namespace Sys2Proof.Machine

/-- Without VDD_AON the port does nothing (R421, R482). -/
theorem State.portOp_off (s : State) (op : PortOp) (hoff : s.dev.domainOn .aon = false) : s.portOp op = s := by
  rw [State.portOp, if_pos (by simp [hoff])]

/-- A transaction waits behind those that wait, or for the KEEP clock (R448). -/
theorem State.portOp_holds (s : State) (op : PortOp) (hon : s.dev.domainOn .aon = true) (h : s.portHolds op = true) :
    s.portOp op = s.onDev (fun d => d.onMgmt (fun m => { m with waiting := m.waiting ++ [op] })) := by
  rw [State.portOp, if_neg (by simp [hon]), if_pos h]

/-- Any other transaction is carried out (R446, R447). -/
theorem State.portOp_does (s : State) (op : PortOp) (hon : s.dev.domainOn .aon = true) (h : s.portHolds op = false) :
    s.portOp op = s.portDo op := by
  rw [State.portOp, if_neg (by simp [hon]), if_neg (by simp [h])]

/-- While the KEEP clock runs no transaction waits (R448). -/
theorem State.portHolds_clock (s : State) (op : PortOp) (hw : s.dev.mgmt.waiting = []) (hc : s.dev.keep.clockLost = false) :
    s.portHolds op = false := by
  have h : ∀ b : Bool, (!s.dev.mgmt.waiting.isEmpty || (s.dev.keep.clockLost && b)) = false := fun b => by rw [hw, hc]; rfl
  exact h _

/-- A write whose CRC byte is wrong is an error of the port and nothing else (R445). -/
theorem State.portWrite_bad (s : State) (a : BitVec 16) (w : Word) (crc : Byte) (hon : s.dev.domainOn .aon = true)
    (hh : s.portHolds (.write a w crc) = false) (h : crc ≠ s.dev.mgmt.writeCrc a w) :
    s.portWrite a w crc = s.onDev Dev.portError := by
  rw [State.portWrite, State.portOp_does s _ hon hh, State.portDo, State.writeNow, if_neg h]

/-- A write that is carried out: the port records it, and the register takes its effect (R446). -/
theorem State.portWrite_ok (s : State) (a : BitVec 16) (w : Word) (crc : Byte) (hon : s.dev.domainOn .aon = true)
    (hh : s.portHolds (.write a w crc) = false) (h : crc = s.dev.mgmt.writeCrc a w) (h0 : s.judge a.toNat true w = 0) :
    s.portWrite a w crc =
      (s.onDev (fun d => d.onMgmt (fun m => { m with pointer := a, lastWAddr := a, lastWStatus := 0 }))).writeReg a.toNat w := by
  rw [State.portWrite, State.portOp_does s _ hon hh, State.portDo, State.writeNow, if_pos h, State.writeJudged]
  simp only [h0]
  rfl

/-- A write that the access level forbids is recorded with status 2 and event 7, and changes nothing else (R422, R446). -/
theorem State.portWrite_denied (s : State) (a : BitVec 16) (w : Word) (crc : Byte) (hon : s.dev.domainOn .aon = true)
    (hh : s.portHolds (.write a w crc) = false) (h : crc = s.dev.mgmt.writeCrc a w) (h0 : s.judge a.toNat true w = 2) :
    s.portWrite a w crc =
      s.onDev (fun d => (d.onMgmt (fun m => { m with pointer := a, lastWAddr := a, lastWStatus := 2 })).raise 7) := by
  rw [State.portWrite, State.portOp_does s _ hon hh, State.portDo, State.writeNow, if_pos h, State.writeJudged]
  simp only [h0]
  rfl

/-- The judgement of an access is one of four (R422). -/
theorem State.judge_le (s : State) (a : Nat) (write : Bool) (w : Word) : s.judge a write w ≤ 3 := by
  unfold State.judge
  split
  · exact Nat.le_refl 3
  · split
    · exact Nat.le_succ 2
    · split
      · exact Nat.zero_le 3
      · exact Nat.le_of_lt (by decide)

/-- A read while CRC_PENDING is set answers status 4 and data 0 and clears it (R447). -/
theorem State.readNow_pending (s : State) (h : s.dev.mgmt.crcPending = true) :
    s.readNow = s.onDev (fun d => (d.onMgmt (fun m => { m with crcPending := false })).answer 4 0) := by
  rw [State.readNow]; simp only [h, if_true]

end Sys2Proof.Machine
end

