-- ==== Sys2Proof/Laws/Stores.lean ====
section
/-! SUPPORT. What the shared operations that work on the whole state can reach: the queue, the fuses, layer memory and the
cells stay, and the SAFE latch never falls. -/

namespace Sys2Proof.Machine

/-- The queue, the fuses, layer memory and the cells are the same in two states. -/
structure SameStores (s t : State) : Prop where
  pending : t.pending = s.pending
  otp : t.otp = s.otp
  mem : t.mem = s.mem
  cells : t.cells = s.cells

theorem SameStores.refl (s : State) : SameStores s s := ⟨rfl, rfl, rfl, rfl⟩

theorem SameStores.trans {a b c : State} (h : SameStores a b) (h' : SameStores b c) : SameStores a c :=
  ⟨h'.pending.trans h.pending, h'.otp.trans h.otp, h'.mem.trans h.mem, h'.cells.trans h.cells⟩

theorem SameStores.onDev (s : State) (f : Dev → Dev) : SameStores s (s.onDev f) := ⟨rfl, rfl, rfl, rfl⟩

theorem SameStores.onLat (s : State) (f : Latches → Latches) : SameStores s (s.onLat f) := ⟨rfl, rfl, rfl, rfl⟩

theorem SameStores.foldl {α : Type} (f : State → α → State) (hf : ∀ s x, SameStores s (f s x)) :
    ∀ (xs : List α) (s : State), SameStores s (xs.foldl f s)
  | [], s => SameStores.refl s
  | x :: xs, s => (hf s x).trans (SameStores.foldl f hf xs (f s x))

/-! ## The SAFE latch (R321, R322) -/

theorem SameStores.setSafe (s : State) (cause : Nat) : SameStores s (s.setSafe cause) := by
  unfold State.setSafe
  split
  · exact SameStores.refl s
  · exact (SameStores.onLat ..).trans (SameStores.onDev ..)

/-- Setting the latch sets it, whatever the cause. -/
theorem State.setSafe_safe (s : State) (cause : Nat) : (s.setSafe cause).lat.safe = true := by
  unfold State.setSafe
  split
  · assumption
  · rfl

/-- It changes no other latch. -/
theorem State.setSafe_lat (s : State) (cause : Nat) :
    (s.setSafe cause).lat = { s.lat with safe := true, safeCause := (s.setSafe cause).lat.safeCause } := by
  unfold State.setSafe
  split
  · rename_i h
    rw [← h]
  · rfl

/-! ## The Keeper (R300 to R316) -/

theorem SameStores.handle (s : State) (open_ : List Window) (c : Class) : SameStores s (s.handle open_ c) := by
  have hlog : SameStores s (s.onDev (fun d => d.log (s.dev.histOf c (c.sev != 3 && !c.hardwired && open_.any (fun w => w.covers c.msg))))) :=
    SameStores.onDev ..
  unfold State.handle
  dsimp only
  refine hlog.trans ?_
  generalize s.onDev _ = t
  have h1 : ∀ u : State, SameStores u (if c.msg.kind = 0x10 then
      match giveUpWindow c.msg.source.toNat with
      | some w => u.onDev (fun d => d.openWindow w)
      | none => u
    else u) := by
    intro u; split
    · split
      · exact SameStores.onDev ..
      · exact SameStores.refl u
    · exact SameStores.refl u
  refine (h1 t).trans ?_
  generalize (if c.msg.kind = 0x10 then _ else t) = u
  split
  · exact SameStores.refl u
  · split
    · exact SameStores.onDev ..
    · split
      · exact (SameStores.onDev ..).trans ((SameStores.onDev ..).trans ((SameStores.setSafe ..).trans (SameStores.onDev ..)))
      · exact (SameStores.onDev ..).trans (SameStores.onDev ..)

/-- A take of the Keeper reaches the latches and the blocks alone. -/
theorem SameStores.keeperTake (s : State) : SameStores s s.keeperTake := by
  unfold State.keeperTake
  dsimp only
  split
  · exact SameStores.refl s
  · exact (SameStores.onDev ..).trans
      ((SameStores.foldl _ (fun t c => SameStores.handle t _ c) _ _).trans (SameStores.onDev ..))

end Sys2Proof.Machine
end

