-- ==== Sys2Proof/Tests/Slice0.lean ====
section
/-! SUPPORT. Tests. First an ill-formed term for each check of WellFormed, which the check refuses; then worked examples of
the manual, by one step or one function each; then, for every statement with hypotheses, a state and operands that meet them. -/

namespace Sys2Proof.Tests

-- The kernel checks these one after another: at once, they would ask for a thread each.
set_option Elab.async false

open Sys2Proof Sys2Proof.Machine Sys2Proof.Claims

/-! ## Small states -/

/-- The reset state with its blocks changed. -/
def with_ (f : Dev → Dev) : State := { State.reset with dev := f State.reset.dev }

/-- START with the supplies good and the clocks locked. -/
def up (d : Dev) : Dev := { d with pwr := { d.pwr with started := true, locked := true, keepOn := true, pgood := true } }

/-- RUN. -/
def runs (d : Dev) : Dev :=
  { d with
    pwr := { d.pwr with started := true, locked := true, keepOn := true, pgood := true, state := .run }
    frm := { d.frm with ticked := true }, cfg := { d.cfg with load := .done } }

/-- RUN with the link ACTIVE at full width. -/
def linked (d : Dev) : Dev :=
  { runs d with link := { d.link with refclk := true, state := .active, rxSet := 15, txSet := 3 } }

/-- Big-endian words. -/
def bytesOf (ws : List Nat) : Bytes := ws.flatMap (toBe 4)

/-- A SCHEDULE section: mode 0 with 500 ns slots and N_base 8, and one entry of an activity with an operand. -/
def schedule (act operand : Nat) : Bytes :=
  bytesOf ([0, 0x4864, 0x10000, 0, 0] ++ List.replicate 12 0 ++ [act * 2 ^ 24, 100, operand])

/-- RUN with that schedule in force. -/
def sched (act operand : Nat) (d : Dev) : Dev :=
  { runs d with cfg := { d.cfg with load := .done, verified := 4, sects := [(2, schedule act operand)] } }

/-- A frame of 2,076 bytes with a type, a payload length and the first type field, its CRC under fold word 0. -/
def frameBody (ty len b8 : Nat) : Bytes := toBe 1 ty ++ [0] ++ toBe 2 len ++ [0, 0, 0, 0] ++ toBe 1 b8 ++ List.replicate 2063 0
def frame (ty len b8 : Nat) : Bytes := frameBody ty len b8 ++ toBe 4 (frameCrc 0 (frameBody ty len b8))

/-- An ordered set of a type with bytes 1 to 13, its CRC behind. -/
def ordered (ty : Byte) (bs : Bytes) : Bytes := (ty :: bs) ++ toBe 2 (crc16 (ty :: bs))

/-- The block in which the partner sends a set on lane 0, which lane 0 reads back. -/
def onLane0 (set : Bytes) : Line := blockLine (rxSeed 0) set
theorem read0 (set : Bytes) (h : set.length = 16) : set = lineSet 0 (onLane0 set) := (lineSet_blockLine 0 set h).symm

/-! ## WellFormed -/

theorem test_wf_header : wellFormed (.flashHeaderRead (some ⟨[], []⟩) none false 0) = false := by decide
theorem test_wf_header_b : wellFormed (.flashHeaderRead none (some ⟨List.replicate 64 0, []⟩) false 0) = false := by decide
theorem test_wf_clock : wellFormed (.flashHeaderRead none none false 201) = false := by decide
theorem test_wf_signature : wellFormed (.signatureVerified [0]) = false := by decide
theorem test_wf_record : wellFormed (.trimImageRestore [(0, [0])]) = false := by decide
theorem test_wf_record_address : wellFormed (.trimImageRestore [(1, List.replicate 4096 0)]) = false := by decide +kernel
theorem test_wf_unit : wellFormed (.startSelftestDone [(.tileRef 192 false, 0)]) = false := by decide
theorem test_wf_temps_zero : wellFormed (.tickZero 4200 []) = false := by decide
theorem test_wf_temps_tick : wellFormed (.tick []) = false := by decide
theorem test_wf_temps_limit : wellFormed (.limitTick []) = false := by decide
theorem test_wf_group : wellFormed (.pwmPeriodStart 16) = false := by decide
theorem test_wf_pulse_tile : wellFormed (.drivePulseSample 192 4200 500 []) = false := by decide
theorem test_wf_pulse_supply : wellFormed (.drivePulseSample 0 8192 500 []) = false := by decide
theorem test_wf_pulse_cell : wellFormed (.drivePulseSample 0 4200 1024 []) = false := by decide
theorem test_wf_pulse_pixel : wellFormed (.drivePulseSample 0 4200 500 [⟨5632, 0, 0⟩]) = false := by decide
theorem test_wf_conversion_tile : wellFormed (.conversion 192 0 0) = false := by decide
theorem test_wf_conversion_code : wellFormed (.conversion 0 0 65536) = false := by decide
theorem test_wf_probe : wellFormed (.probeWindow 192 []) = false := by decide
theorem test_wf_probe_pixel : wellFormed (.probeWindow 0 [⟨5632, 0, 0⟩]) = false := by decide
theorem test_wf_checker : wellFormed (.checkerWindow 192 []) = false := by decide
theorem test_wf_checker_pixel : wellFormed (.checkerWindow 0 [5632]) = false := by decide
theorem test_wf_pass_chain : wellFormed (.passApply 0 4 ⟨[], 0, [], 0, false, []⟩) = false := by decide
theorem test_wf_pass_clock : wellFormed (.passApply 0 0 ⟨[(1409, 1)], 0, [], 0, false, []⟩) = false := by decide
theorem test_wf_compose_entry : wellFormed (.compose (.entry 4096) 0 []) = false := by decide
theorem test_wf_compose_rebuild : wellFormed (.compose (.rebuild 0 89) 0 []) = false := by decide
theorem test_wf_compose_granule : wellFormed (.compose (.entry 0) 0 [1]) = false := by decide
theorem test_wf_compose_corrected : wellFormed (.compose (.entry 0) 0 [] [1]) = false := by decide
theorem test_wf_compose_fetched : wellFormed (.compose (.entry 0) 0 [] [] [1]) = false := by decide
theorem test_wf_drive_header : wellFormed (.chainDrive (.entry 0) [⟨0, 4, 0⟩] []) = false := by decide
theorem test_wf_drive_pixel : wellFormed (.chainDrive (.entry 0) [] [⟨1081344, false⟩]) = false := by decide
theorem test_wf_aux : wellFormed (.chainAux (.entry 0) [⟨192, 0, 0⟩]) = false := by decide
theorem test_wf_refresh : wellFormed (.refresh 4096 0 0 0) = false := by decide
theorem test_wf_ledger : wellFormed (.ledger 0 0 [33]) = false := by decide
theorem test_wf_scan : wellFormed (.scan 4096 0 [] []) = false := by decide
theorem test_wf_health : wellFormed (.health 0 0 [0x38000000]) = false := by decide
theorem test_wf_ledger_corrected : wellFormed (.ledger 0 0 [] [33]) = false := by decide
theorem test_wf_scan_corrected : wellFormed (.scan 0 0 [] [] [1]) = false := by decide
theorem test_wf_health_corrected : wellFormed (.health 0 0 [] [33]) = false := by decide
theorem test_wf_retrain : wellFormed (.retrain 4096 0 false true) = false := by decide
theorem test_wf_deadline : wellFormed (.entryDeadline 4096) = false := by decide
theorem test_wf_lane : wellFormed (.laneLock 4 true [] (List.replicate 8192 false)) = false := by decide
theorem test_wf_lock_block : wellFormed (.laneLock 0 true [] []) = false := by decide
theorem test_wf_refclk : wellFormed (.refclkPresent [] false) = false := by decide
theorem test_wf_lane_loss : wellFormed (.laneLoss 4 .clockRecovery) = false := by decide
theorem test_wf_loss_block : wellFormed (.laneLoss 0 (.violations [[]])) = false := by decide
theorem test_wf_set : wellFormed (.ftsA 0 [] ⟨0, [0, 0, 0], true⟩) = false := by decide
theorem test_wf_taps (b : Line) : wellFormed (.ftsA 0 b ⟨0, [], true⟩) = false := Bool.and_false _
theorem test_wf_set_b : wellFormed (.ftsB 4 [] [0, 0, 0, 0]) = false := by decide
theorem test_wf_arrivals (b : Line) : wellFormed (.ftsB 0 b []) = false := Bool.and_false _
theorem test_wf_width : wellFormed (.widthSet 0 []) = false := by decide
theorem test_wf_width_ack : wellFormed (.widthAck 0 []) = false := by decide
theorem test_wf_restore : wellFormed (.restoreSet 0 []) = false := by decide
theorem test_wf_release : wellFormed (.releaseSet 0 []) = false := by decide
theorem test_wf_frame_idle : wellFormed (.idleFrame [] []) = false := by decide
theorem test_wf_frame_blocks : wellFormed (.idleFrame (List.replicate 2076 0) [(0, [])]) = false := by decide +kernel
theorem test_wf_witness : wellFormed (.witnessFrame [⟨1081344, true⟩]) = false := by decide
theorem test_wf_frame_vc0 : wellFormed (.vc0Frame []) = false := by decide
theorem test_wf_frame_vc1 : wellFormed (.vc1Frame []) = false := by decide
theorem test_wf_frame_hello : wellFormed (.helloH []) = false := by decide
theorem test_wf_frame_finish : wellFormed (.finishH []) = false := by decide
theorem test_wf_frame_abort : wellFormed (.abort []) = false := by decide
theorem test_wf_buffer : wellFormed (.generationComplete 256) = false := by decide
theorem test_wf_layer : wellFormed (.layer [0]) = false := by decide
theorem test_wf_sectors : wellFormed (.sectorSet [0]) = false := by decide
theorem test_wf_symbols : wellFormed (.symbolSet [0]) = false := by decide
theorem test_wf_commit : wellFormed (.commit [0]) = false := by decide
theorem test_wf_mode : wellFormed (.mode [0]) = false := by decide
theorem test_wf_blend : wellFormed (.blend [0]) = false := by decide
theorem test_wf_time : wellFormed (.time [0]) = false := by decide
theorem test_wf_give_up : wellFormed (.giveUp (.tileRef 192 true) 0) = false := by decide
theorem test_wf_give_up_cause : wellFormed (.giveUp (.engine false) 5) = false := by decide
theorem test_wf_standby : wellFormed (.standbyParityFault (.tileRef 192 true)) = false := by decide
theorem test_wf_selftest_pass : wellFormed (.selftestPass (.tileRef 192 true)) = false := by decide
theorem test_wf_selftest_fail : wellFormed (.selftestFail (.tileRef 192 true) 0) = false := by decide
theorem test_wf_resync : wellFormed (.resync (.tileRef 192 true)) = false := by decide
theorem test_wf_request_read : wellFormed (.memRequest (.read .comp 16)) = false := by decide
theorem test_wf_request_write : wellFormed (.memRequest (.write .gain 0 [1])) = false := by decide
theorem test_wf_transfer : wellFormed (.memTransferDone 2 0 {} [0, 0, 0]) = false := by decide
theorem test_wf_levels : wellFormed (.memTransferDone 0 0 {} []) = false := by decide
theorem test_wf_refresh_due : wellFormed (.refreshDue 2) = false := by decide
theorem test_wf_fallback_corrected : wellFormed (.fallbackCopyDone [] [4]) = false := by decide
theorem test_wf_fallback : wellFormed (.fallbackCopyDone [4]) = false := by decide
/-! ## Worked examples of the manual -/

/-- The pixel example under Coordinates (00_scope) and the pass example of R39 (02_array): p, tile, local, quad, sensor,
chain, position and header. -/
theorem test_geometry : pixelIdx 1000 400 = 615400 ∧ tileOf 615400 = 111 ∧ localOf 615400 = 48 * 64 + 40 ∧
    quadOf 615400 = 154100 ∧ sensorOf 111 = 31 ∧ chainOf 615400 = 2 ∧ pixelOnChain 111 2 776 = 615400 ∧
    isWarm 615400 = true := by decide
theorem test_header : passHeader 1 2 0 0x37 = 0x18037 := by decide

/-- The elements of the pass example. -/
theorem test_element : elemBytes 0x052BC = [0x00, 0x52, 0xBC] ∧ elemBytes 0x14200 = [0x01, 0x42, 0x00] := by decide

/-- The I²C example of 20_management. -/
theorem test_i2c_crc : crc8 [0x90, 0x0C, 0x00, 0x00, 0x00, 0x01, 0x00] = 0xA7 := by decide +kernel

/-- The table of splits of 03_hybrid_drive: words below and at the threshold. -/
theorem test_split : driveWord 1 16 14 = 0x4001 ∧ driveWord 1 16 15 = 0 ∧ driveWord 266304 16 4083 = 0x43FF ∧
    driveWord 266304 16 4084 = 0x43FE ∧ driveWord 266305 16 3375 = 0x47C3 ∧ driveWord 266305 16 3376 = 0x47C2 ∧
    driveWord 524288 16 66 = 0x83F0 ∧ driveWord 524288 16 67 = 0x83EF ∧ driveWord 1048575 16 0 = 0xFFFF := by decide

/-- The two quads of the tint example of 03_hybrid_drive. -/
theorem test_tint : coolWeight 24 232 64 = 64 ∧ tintSplit 64 400000 420000 380000 400000 = [585365, 614635, 194871, 205129] ∧
    coolWeight 24 232 0 = 24 ∧ tintSplit 24 700000 700000 700000 700000 = [1268750, 1268750, 131250, 131250] ∧
    tintLoss [1268750, 1268750, 131250, 131250] = 440350 := by decide

/-- The fold-back example of 03_hybrid_drive: the default curve at h = 1,872. -/
theorem test_foldback : interp (up State.reset.dev).foldback 1872 = 2663 := by decide

/-- The scaling example of 05_composition: 768 samples over 1,536 pixels, bilinear. -/
theorem test_scale : bilinear 768 1536 0 = (0, 1, 0) ∧ bilinear 768 1536 1 = (0, 1, 1024) ∧
    bilinear 768 1536 1535 = (767, 767, 1024) := by decide

/-- The sector example of 06_sectors: a box over four columns of a linear grid. -/
theorem test_sector :
    [842, 844, 845].map (fun x => boxSample (fun i _ => (-5120 + 320 * i : Int)) (fun _ j => (1280 - 176 * j : Int)) x 320
      [512 + 896 * 65536, (65536 - 128) + 128 * 65536, 4 * 65536, 0]) = [1280, 3328, 4096] := by decide

/-- The block of the codec example of 07_frame: M 1,000, E 2, offsets 0 to 15, codes, SUM 66,240. -/
def exampleBlock : Nat :=
  let o := fun j : Nat => 9 * j / 4
  1000 * 2 ^ 244 + 2 * 2 ^ 242 + 66240 * 2 ^ 192 + sumNat ((List.range 8).map (fun j => o j * 2 ^ (238 - 4 * j))) +
    sumNat ((List.range 64).map (fun k => ((9 * (k / 8) + k % 8) / 4 - o (k / 8)) * 2 ^ (189 - 3 * k)))
theorem test_block : (List.range 8).map (fun i => frbDecode exampleBlock i 0) =
    [1002, 1001, 1002, 1001, 1006, 1005, 1006, 1005] := by decide +kernel

/-- The address example of 10_layer_memory: A = 0x01234560 under the default masks. -/
theorem test_bank : chOf 0x01234560 = 1 ∧ State.reset.dev.bankOf 0x01234560 = 7 := by decide

/-- The fold example of 15_check_engines: WIDTH 4, POLY 3, one byte of 0 under fold words 0 and 0x20. -/
theorem test_fold : crcCalc 4 3 0 false false 0 [0, 0, 0, 0, 0] = 0 ∧ crcCalc 4 3 0 false false 0 [0, 0, 0, 0x20, 0] = 4 := by
  decide +kernel

/-! ## States that meet the statements' hypotheses

One theorem for each statement that has hypotheses, with a conjunct for each of its clauses, in order. -/

/-- The command runs and what it leaves meets a test. -/
def ran (c : Instr) (s : State) (p : State → Bool) : Bool := match exec c s with | .next t => p t | _ => false

/-- The CRC byte of a write. -/
def crcOf (s : State) (a : BitVec 16) (w : Word) : Byte := s.dev.mgmt.writeCrc a w

theorem ok {s : State} {a : BitVec 16} {w : Word} (on : s.dev.domainOn .aon = true)
    (hh : s.portHolds (.write a w (crcOf s a w)) = false) (h : s.judge a.toNat true w = 0) :
    WriteOk s a w (crcOf s a w) := ⟨on, hh, rfl, h⟩

/-- RUN at an access level, and RUN with SAFE set. -/
def at_ (l : BitVec 2) (f : Dev → Dev) : State := { with_ f with lat := { level := l } }
def safe (f : Dev → Dev) : State := { with_ f with lat := { safe := true } }

/-- A slot whose header carries a ROLLBACK. -/
def rolled (n : Nat) : SlotHead := ⟨List.replicate 12 0 ++ toBe 1 n ++ List.replicate 51 0, []⟩

/-- A rollback step is due in RUN. -/
def fuseNext : State := with_ (fun d => { runs d with cfg := { (runs d).cfg with headA := some (rolled 2), fuseDue := true } })

theorem w_StepRunsFrontCommand : State.reset.pending = [] := rfl
theorem w_ExecKeepsQueue : ran .pad State.reset (fun t => t == State.reset) = true := by decide +kernel
theorem w_StepKeepsMemoryCanonical : State.reset.mem.wf = true ∧ ran .pad State.reset (fun t => t.mem.wf) = true := by decide +kernel
theorem w_FusesNeverGoBack : ran .rollbackFuse fuseNext (fun t => fuseNext.otp.rollback < t.otp.rollback) = true ∧
    ran .pad { with_ runs with otp := { claimed := true } } (fun t => t.otp.claimed) = true := by decide +kernel
theorem w_LatchesHoldUntilRestart :
    ran .pad { safe runs with lat := { safe := true, perturbed := true } } (fun t => t.lat.safe && t.lat.perturbed) = true ∧
    WriteOk (safe runs) 0x0404 4 (crcOf (safe runs) 0x0404 4) ∧ (safe runs).lat.safe = true :=
  ⟨by decide +kernel, ok rfl (by decide +kernel) (by decide +kernel), rfl⟩

/-- PARK, and the wake with and without its clocks. -/
def inPark : State := with_ (fun d => { runs d with pwr := { (runs d).pwr with state := .park, pgood := false } })
def waking (clocks good : Bool) : State :=
  with_ (fun d => { runs d with pwr := { (runs d).pwr with state := .wake, pgood := good, wakeClocks := clocks } })

/-- PARK without VDD_AON. -/
def unpowered : State := { inPark with dev := { inPark.dev with pwr := { inPark.dev.pwr with aonLost := true } } }

theorem w_RestartGivesResetState : State.reset.dev.pwr.aonLost = false ∧ 10000 ≤ 10000 ∧ 999 < 1000 ∧
    inPark.dev.pwr.state = .park ∧ unpowered.dev.pwr.aonLost = true ∧
    State.reset.dev.pwr.state ≠ .park ∧ inPark.dev.pwr.state = .park ∧ inPark.dev.pwr.aonLost = false ∧
    (waking false false).dev.pwr.state = .wake ∧ (waking false false).dev.seesPgood = false := by decide
/-- START of a claimed unit, with its slot A or a phase of the loader. -/
def claimedUp : State := with_ (fun d => { up d with sec := { d.sec with claimed := true } })
def loads (l : Load) (f : Cfg → Cfg) : State := with_ (fun d => { up d with cfg := f { d.cfg with load := l } })

theorem w_StartReadsPinsAndClaim : State.reset.dev.pwr.started = false ∧ State.reset.dev.pwr.aonLost = false ∧
    (with_ (fun d => { d with pwr := { d.pwr with aonLost := true } })).dev.pwr.started = false ∧
    (with_ (fun d => { d with pwr := { d.pwr with aonLost := true } })).dev.pwr.aonLost = true := by decide
theorem w_StartEventsComplete :
    (let s := with_ (fun d => { d with pwr := { d.pwr with started := true } });
      s.dev.pwr.state = .start ∧ s.dev.pwr.started = true ∧ s.dev.pwr.locked = false ∧
      s.dev.fw.writes = [] ∧ s.dev.fw.replies.length + s.dev.fw.crossing.length ≤ 256) ∧
    (let s := with_ up;
      s.dev.frm.ticked = false ∧ s.dev.pwr.mainOn = true ∧ s.dev.sec.keyChecked = false ∧ s.dev.memc.trainDone = false ∧
      s.dev.cfg.loading ≠ some 12 ∧ s.dev.keeperRuns = true ∧ s.dev.chg.startDone = false ∧ s.dev.chg.eng = {} ∧
      s.dev.chg.tb = {} ∧ s.dev.chg.refs = []) ∧
    (let s := loads (.sections 14) id;
      s.dev.frm.ticked = false ∧ s.dev.pwr.mainOn = true ∧ s.dev.memc.trainDone = false ∧ s.dev.cfg.loading = some 12) := by
  decide

/-- A slot of a VERSION for every unit, its sections laid out one behind the other. -/
def lens : List Nat := [136704, 68, 16, 2884, 4, 2248, 2163456, 0, 240, 20, 0, 0, 574496, 0]
def slotOf (version : Nat) : SlotHead :=
  let off (i : Nat) : Nat := 1280 + sumNat ((lens.take i).map ceil32)
  ⟨toBe 4 0x4D5A4C4C ++ toBe 2 1 ++ toBe 2 0x1080 ++ toBe 4 version ++ toBe 4 0 ++ toBe 4 (off 14) ++ List.replicate 44 0,
    (List.range 14).flatMap (fun i => toBe 1 (i + 1) ++ toBe 3 0 ++ toBe 4 (off i) ++ toBe 4 (nth 0 lens i) ++ List.replicate 36 0)⟩

theorem w_HeadersChooseSlot : claimedUp.dev.frm.ticked = false ∧ claimedUp.dev.pwr.mainOn = true ∧
    claimedUp.dev.cfg.load = .idle ∧ (claimedUp.dev.cfg.whyA = 0 ∧ claimedUp.dev.cfg.whyB = 0 ∧
    claimedUp.dev.cfg.dirFailA = false ∧ claimedUp.dev.cfg.dirFailB = false ∧ claimedUp.dev.sec.claimed = true) ∧
    (Candidate claimedUp (some (slotOf 1)) ∧ Candidate claimedUp (some (slotOf 2)) ∧ directoryOk (slotOf 1) = true ∧
      directoryOk (slotOf 2) = true) ∧ ¬ Candidate claimedUp none ∧ (with_ up).dev.sec.claimed = false :=
  ⟨by decide, by decide, by decide, by decide,
    ⟨⟨_, rfl, by decide +kernel⟩, ⟨_, rfl, by decide +kernel⟩, by decide +kernel, by decide +kernel⟩,
    (fun ⟨_, h, _⟩ => nomatch h), by decide⟩
theorem w_SignatureGatesSections : (loads .signature id).dev.frm.ticked = false ∧ (loads .signature id).dev.pwr.mainOn = true ∧
    (loads .signature id).dev.cfg.load = .signature ∧ (List.replicate 256 (0 : Byte)).length = 256 := by decide +kernel
theorem w_SectionTakesEffectOrIsInvalid :
    let s := loads (.sections 3) (fun c => { c with headA := some (slotOf 1) });
    s.dev.pwr.mainOn = true ∧ s.dev.cfg.loading = some 3 ∧ (3 : Nat) ≠ 0 ∧ ¬ ((3 : Nat) = 12 ∧ s.dev.memc.dramLess = true) ∧
      (List.replicate 16 (0 : Byte)).length = dirLength s.dev.cfg.head 3 ∧
    (let t := loads (.sections 14) id;
      let t : State := { t with dev := { t.dev with memc := { t.dev.memc with dramLess := true } } };
      t.dev.pwr.mainOn = true ∧ t.dev.cfg.loading = some 12 ∧ t.dev.memc.dramLess = true) := by decide +kernel
theorem w_FlashReadsRepeatAndTrimIsRestored :
    (let s := with_ up;
      s.dev.pwr.mainOn = true ∧ s.dev.cfg.load = .idle ∧ s.dev.cfg.tries < 3 ∧ s.dev.cfg.triesB < 3 ∧ s.dev.cfg.triesDir < 3 ∧
      s.dev.cfg.triesDirB < 3 ∧ s.dev.frm.ticked = false ∧ s.dev.cfg.loading ≠ some 0 ∧ s.dev.ledg.recordsRead = false) ∧
    (let s := loads .idle (fun c => { c with tries := 3, triesB := 3, triesDir := 3, triesDirB := 3 });
      s.dev.pwr.mainOn = true ∧ s.dev.cfg.load = .idle ∧ s.dev.cfg.tries = 3 ∧ s.dev.cfg.whyA = 0 ∧ s.dev.cfg.triesB = 3 ∧
      s.dev.cfg.whyB = 0 ∧ s.dev.cfg.triesDir = 3 ∧ s.dev.cfg.triesDirB = 3) ∧
    ((loads .signature id).dev.cfg.load ≠ .idle ∧ (loads .signature id).dev.cfg.tries < 3) ∧
    (let s := loads (.sections 12) id;
      s.dev.frm.ticked = false ∧ s.dev.pwr.mainOn = true ∧ s.dev.cfg.loading = some 0) := by
  decide
theorem w_FirstLightEndsStart :
    (let s := with_ (fun d => { up d with
        arr := { d.arr with startDone := true }, cfg := { d.cfg with verified := 0xEFFF }, cal := { d.cal with restoreDone := true }
        memc := { d.memc with trained := true }, chg := { d.chg with startDone := true } });
      s.dev.frm.ticked = false ∧ s.dev.pwr.mainOn = true ∧ s.dev.has 2 = true ∧ FirstLight s) ∧
    (let s := with_ (fun d => { up d with cfg := { d.cfg with verified := 4 }, test := { d.test with testEn := true } });
      s.dev.frm.ticked = false ∧ s.dev.pwr.mainOn = true ∧ s.dev.has 2 = true ∧ ¬ FirstLight s ∧ s.dev.frm.decision ≠ .tick) ∧
    (let s := with_ (fun d => { up d with frm := { d.frm with decision := .tick } });
      s.dev.frm.ticked = false ∧ s.dev.pwr.mainOn = true ∧ s.lat.safe = false ∧ s.dev.frm.decision = .tick ∧ 3600 ≤ 3600 ∧
      3599 < 3600) ∧
    (∀ te, let s := safe (fun d => { up d with
        arr := { d.arr with startDone := true }, cfg := { d.cfg with verified := 0x0202, signed := true }
        test := { d.test with testEn := te } });
      s.dev.frm.ticked = false ∧ s.dev.pwr.mainOn = true ∧ s.lat.safe = true ∧ s.dev.cfg.signed = true ∧ s.dev.has 1 = true ∧
      s.dev.has 9 = true ∧ s.dev.arr.startDone = true ∧ 3600 ≤ 4200 ∧ s.dev.cfg.startLit = false ∧ s.dev.test.testEn = te) := by
  unfold FirstLight; decide

/-- RUN with a level change in hand at a step, and RUN at a decision. -/
def changing (st : ChangeStep) (sw : Bool) (dec : Decision) : State := with_ (fun d => { runs d with
  pwr := { (runs d).pwr with change := some ⟨2, 3, st, sw⟩, state := .levelChange, pgood := false }
  frm := { (runs d).frm with decision := dec } })

/-- A unit with a timebase instance B in a state, and MIN_PL of mode 0. -/
def refusing (f : Dev → Dev) (b : InstState) (minPl : Nat) : State := with_ (fun d => { f d with
  chg := { d.chg with tb := { a := .active, b := b } }
  cfg := { (f d).cfg with verified := 4, sects := [(2, bytesOf ([0, 0x4864 + minPl, 0x10000] ++ List.replicate 14 0))] } })

/-- The same with PGOOD_CORE there, and `n` cycles after VSEL changed. -/
def seeing (s : State) : State := { s with dev := { s.dev with pwr := { s.dev.pwr with pgood := true } } }
def since (n : Nat) (s : State) : State := { s with dev := { s.dev with now := n, pwr := { s.dev.pwr with vselAt := some 0 } } }

theorem w_LevelRequestsStart :
    (let s := with_ runs;
      WriteOk s 0x0404 ((2 : BitVec 2).setWidth 32) (crcOf s 0x0404 ((2 : BitVec 2).setWidth 32)) ∧ MayChange s 2 ∧
      (2 : BitVec 2) ≠ 0 ∧ (2 : BitVec 2) ≠ s.dev.pwr.level ∧ s.dev.pwr.pend = none ∧ s.dev.pwr.state = .run ∧
      s.dev.pwr.change = none) ∧
    (let s := with_ (fun d => { runs d with pwr := { (runs d).pwr with pend := some 2 } });
      s.dev.pwr.pend = some ((2 : BitVec 2).setWidth 3) ∧ MayChange s 2 ∧ (2 : BitVec 2) ≠ s.dev.pwr.level ∧
      s.dev.pwr.state = .run ∧ s.dev.pwr.change = none) ∧
    (let s := with_ (fun d => { runs d with pwr := { (runs d).pwr with pend := some 2 } });
      WriteOk s 0x0404 ((2 : BitVec 2).setWidth 32) (crcOf s 0x0404 ((2 : BitVec 2).setWidth 32)) ∧ MayChange s 2 ∧
      s.dev.pwr.pend ≠ none) ∧
    (let s := changing .upPgood false .none;
      WriteOk s 0x0404 ((2 : BitVec 2).setWidth 32) (crcOf s 0x0404 ((2 : BitVec 2).setWidth 32)) ∧ MayChange s 2 ∧
      s.dev.pwr.pend = none ∧ s.dev.pwr.change ≠ none) ∧
    (∀ s ∈ [safe runs, refusing runs .selftest 0, refusing up .standby 0, refusing runs .standby 0x40000],
      WriteOk s 0x0404 ((1 : BitVec 2).setWidth 32) (crcOf s 0x0404 ((1 : BitVec 2).setWidth 32))) ∧ (1 : BitVec 2) ≠ 0 ∧
    (safe runs).lat.safe = true ∧
    (let s := refusing runs .selftest 0; s.lat.safe = false ∧ s.dev.chg.busy = true) ∧
    (let s := refusing up .standby 0; s.lat.safe = false ∧ s.dev.chg.busy = false ∧ s.dev.frm.ticked = false) ∧
    (let s := refusing runs .standby 0x20000; s.lat.safe = false ∧ s.dev.chg.busy = false ∧ s.dev.frm.ticked = true ∧
      (1 : BitVec 2).toNat < s.dev.floor) := by
  unfold WriteOk MayChange; decide +kernel

theorem w_LevelChangeProceeds :
    (let s := changing .upPgood false .none; s.dev.pwr.aonLost = false ∧ s.dev.ignoresPgood = false ∧
      s.dev.pwr.change = some ⟨2, 3, .upPgood, false⟩) ∧
    (let s := since 0 (changing .upPgood false .none); s.dev.pwr.aonLost = false ∧ s.dev.ignoresPgood = true ∧
      s.dev.pwr.change = some ⟨2, 3, .upPgood, false⟩) ∧
    (let s := changing .downPgood false .none; s.dev.pwr.aonLost = false ∧ s.dev.ignoresPgood = false ∧
      s.dev.pwr.change = some ⟨2, 3, .downPgood, false⟩) ∧
    (let s := since 4000 (seeing (changing .upPgood false .tick)); s.running = true ∧ s.dev.frm.decision ≠ .none ∧
      s.dev.pwr.change = some ⟨2, 3, .upPgood, false⟩ ∧ s.dev.seesPgood = true) ∧
    (let s := changing .upSwitch false .tick; s.running = true ∧ s.dev.frm.decision ≠ .none ∧
      s.dev.pwr.change = some ⟨2, 3, .upSwitch, false⟩) ∧
    (let s := changing .downSwitch false .limit; s.running = true ∧ s.dev.frm.decision ≠ .none ∧
      s.dev.pwr.change = some ⟨2, 3, .downSwitch, false⟩) ∧
    (let s := changing .upSwitch true .tick; s.running = true ∧ s.dev.frm.decision = .tick ∧ s.dev.pwr.state = .levelChange ∧
      s.dev.pwr.change = some ⟨2, 3, .upSwitch, true⟩) := by decide

theorem w_PgoodFailuresAreReported :
    ((changing .upPgood false .none).dev.pwr.change = some ⟨2, 3, .upPgood, false⟩ ∧
      (changing .upPgood false .none).dev.seesPgood = false ∧ (seeing (changing .upPgood false .none)).dev.seesPgood = true) ∧
    (let s := with_ runs; s.dev.pwr.pgood = true ∧ s.dev.pwr.aonLost = false ∧ s.dev.pwr.change = none ∧
      s.dev.ignoresPgood = false ∧ s.dev.pwr.state ∈ [PwrState.run, .levelChange, .prepare, .entry]) ∧
    (since 3999 (with_ runs)).dev.ignoresPgood = true ∧
    (let s := waking true true; s.dev.pwr.pgood = true ∧ s.dev.pwr.state ∉ [PwrState.run, .levelChange, .prepare, .entry]) := by
  decide

theorem w_ParkIsEntered :
    (let s := with_ runs;
      WriteOk s 0x0404 4 (crcOf s 0x0404 4) ∧ s.lat.safe = false ∧ s.dev.chg.busy = false ∧ s.dev.frm.ticked = true ∧
      s.dev.lb = false ∧ s.dev.hb = false ∧ s.dev.pwr.pend = none ∧ s.dev.pwr.state = .run ∧ s.dev.pwr.change = none ∧
      s.dev.ledg.running = none ∧ s.dev.ledg.waiting = none ∧ s.dev.cfg.load = .done) ∧
    (let s := with_ (fun d => { runs d with pwr := { (runs d).pwr with pend := some 4 } });
      s.dev.pwr.pend = some 4 ∧ s.lat.safe = false ∧ s.dev.chg.busy = false ∧ s.dev.frm.ticked = true ∧ s.dev.lb = false ∧
      s.dev.hb = false ∧ s.dev.pwr.state = .run ∧ s.dev.pwr.change = none ∧ s.dev.ledg.running = none ∧
      s.dev.ledg.waiting = none ∧ s.dev.cfg.load = .done) ∧
    (let s := with_ (fun d => { runs d with lb := true });
      WriteOk s 0x0404 4 (crcOf s 0x0404 4) ∧ s.lat.safe = false ∧ s.dev.chg.busy = false ∧ s.dev.frm.ticked = true ∧
      s.dev.lb = true) ∧
    (∀ x ∈ [(InstState.standby, false), (.standby, true), (.selftest, false)], let s := with_ (fun d => { linked d with
        pwr := { (linked d).pwr with state := .prepare, pend := some 4, parkWritten := true }
        frm := { (linked d).frm with decision := .tick }, chg := { d.chg with tb := { a := .active, b := x.1 } }, lb := x.2 });
      s.running = true ∧ s.dev.frm.decision = .tick ∧ s.dev.pwr.state = .prepare ∧ s.dev.pwr.parkWritten = true ∧
      s.dev.pwr.change = none ∧ s.dev.chg.busy = decide (x.1 = .selftest) ∧ s.dev.lb = x.2 ∧ s.dev.hb = false ∧
      s.dev.link.carries = true) ∧
    (let s := with_ (fun d => { runs d with pwr := { (runs d).pwr with state := .entry } });
      s.dev.pwr.state = .entry ∧ s.dev.pwr.heldWake = 0 ∧ s.dev.pwr.retentionLost = false ∧ s.dev.pwr.aonLost = false) ∧
    (with_ (fun d => { runs d with pwr := { (runs d).pwr with state := .entry, heldWake := 3 } })).dev.pwr.heldWake ≠ 0 ∧
    unpowered.dev.pwr.aonLost = true := by
  unfold WriteOk; decide +kernel

theorem w_WakeResumesFrame :
    (inPark.dev.pwr.state = .park ∧ inPark.dev.pwr.retentionLost = false ∧ inPark.dev.pwr.aonLost = false) ∧
    (let s := with_ (fun d => { runs d with pwr := { (runs d).pwr with state := .entry } });
      s.dev.pwr.state = .entry ∧ s.dev.pwr.heldWake = 0) ∧
    (with_ (fun d => { runs d with pwr := { (runs d).pwr with state := .prepare } })).dev.pwr.state = .prepare ∧
    ((waking false true).dev.pwr.state = .wake ∧ (waking false true).dev.seesPgood = true ∧
      (waking false true).dev.pwr.wakeClocks = false ∧ (waking false true).dev.test.later = [] ∧
      (waking false true).dev.pwr.keepOn = true ∧ (waking false true).dev.keep.clockLost = false ∧
      (waking false true).dev.fw.writes = [] ∧
      (waking false true).dev.fw.replies.length + (waking false true).dev.fw.crossing.length ≤ 256) ∧
    ({ (waking false true).dev.test with later := [.inject 0x1000 0] } : Test).later = [.inject 0x1000 0] ∧
    ((waking true true).dev.pwr.state = .wake ∧ (waking true true).dev.pwr.wakeClocks = true) := by decide

theorem w_AccessIsJudgedInOrder : regBlock 0xFFFC = none ∧ regBlock 0x7C00 = some .test ∧
    (at_ 0 runs).lat.level.toNat < (at_ 0 runs).dev.needLevel 0x7C00 .test false 0 ∧
    (at_ 2 runs).dev.needLevel 0x7C00 .test false 0 ≤ (at_ 2 runs).lat.level.toNat ∧
    [0x1800, 0x6C00, 0x6000, 0x6400, 0x6800, 0x7400].map regBlock =
      [Block.mem, .chk, .cal, .diag, .chg, .ledg].map some ∧
    (at_ 0 runs).lat.level = 0 ∧ (at_ 1 runs).lat.level.toNat < 2 := by decide +kernel

theorem w_PortTransactionsComplete :
    (let z : Byte := 0; z ≠ (with_ runs).dev.mgmt.writeCrc (z ++ z) (z ++ z ++ z ++ z) ∧
      (at_ 0 runs).judge ((0x7C : Byte) ++ z : BitVec 16).toNat true (z ++ z ++ z ++ z) = 2 ∧
      (at_ 0 runs).judge ((0xFF : Byte) ++ (0xFC : Byte) : BitVec 16).toNat true (z ++ z ++ z ++ z) = 3 ∧
      (at_ 1 id).judge ((0x18 : Byte) ++ z : BitVec 16).toNat true (z ++ z ++ z ++ z) = 1) ∧
    ([0] : Bytes).length ≠ 2 ∧ ([0] : Bytes).length ≠ 7 ∧ (with_ runs).dev.pwr.aonLost = false ∧
    unpowered.dev.pwr.aonLost = true ∧ (with_ runs).dev.mgmt.waiting = [] ∧
    (let s := at_ 1 (fun d => { runs d with
        keep := { d.keep with clockLost := true }, mgmt := { d.mgmt with pointer := 0x0814, waiting := [.read] } });
      s.dev.pwr.aonLost = false ∧ s.dev.mgmt.waiting ≠ [] ∧ s.dev.mgmt.crcPending = false ∧ KeepAccess s 0x0814 true 1 ∧
      KeepAccess s s.dev.mgmt.pointer.toNat false 0) := by
  refine ⟨by decide +kernel, by decide, by decide, rfl, rfl, rfl, rfl, by decide, rfl, ?_, ?_⟩ <;>
    exact ⟨rfl, ⟨.keep, by decide +kernel, rfl⟩, by decide +kernel⟩

theorem w_StoredRegisterWrites :
    (∀ a ∈ [0x7814, 0x105C, 0x6010, 0x6810, 0x7160, 0x7C14, 0x641C, 0x7060, 0x70EC, 0x0C10, 0x0C1C],
      (at_ 2 linked).judge a true 0x1FFFFF = 0) ∧ (35 : BitVec 8) < 36 ∧ WriteOk (at_ 2 runs) 0x7C14 1 (crcOf (at_ 2 runs) 0x7C14 1) ∧
    WriteOk (with_ runs) (0x0C00 + 4 * (3 : BitVec 2).setWidth 16) 1
      (crcOf (with_ runs) (0x0C00 + 4 * (3 : BitVec 2).setWidth 16) 1) ∧
    WriteOk (with_ runs) 0x0814 ((15 : BitVec 4).setWidth 32) (crcOf (with_ runs) 0x0814 ((15 : BitVec 4).setWidth 32)) ∧
    WriteOk (with_ runs) 0x7824 0xFFFFFFFF (crcOf (with_ runs) 0x7824 0xFFFFFFFF) := by
  unfold WriteOk; decide +kernel

theorem w_RegisterReadsAnswer :
    (with_ (fun d => { d with mgmt := { d.mgmt with crcPending := true } })).dev.mgmt.crcPending = true ∧
    State.reset.dev.pwr.aonLost = false ∧
    (State.reset.dev.mgmt.crcPending = false ∧ State.reset.judge 0xFFFC false 0 = 3 ∧ (at_ 0 runs).judge 0x7C00 false 0 = 2 ∧
      (at_ 1 id).judge 0x1800 false 0 = 1) ∧
    (let s := with_ runs;
      s.dev.mgmt.crcPending = false ∧ regBlock (0x0000 : BitVec 16).toNat = some .sys ∧ s.judge (0x0000 : BitVec 16).toNat false 0 = 0 ∧
      s.dev.mgmt.waiting = [] ∧ s.dev.keep.clockLost = false ∧ Block.sys.domain ≠ .keep) := by decide +kernel

theorem w_AdvancingReads :
    (let s := at_ 3 (fun d => { runs d with cfg := { (runs d).cfg with imgReady := true } });
      s.dev.mgmt.crcPending = false ∧ s.dev.mgmt.waiting = [] ∧ s.judge 0x7828 false 0 = 0 ∧ s.dev.cfg.imgReady = true ∧ s.dev.pwr.mainOn = true ∧
      s.dev.pwr.aonLost = false ∧ s.dev.cfg.load = .done ∧ s.judge 0x7164 false 0 = 0 ∧ s.judge 0x740C false 0 = 0 ∧
      s.judge 0x6420 false 0 = 0 ∧ s.dev.memc.dramLess = false ∧ s.dev.memc.forwards (0x36000000 + s.dev.diag.mapAddr) = false ∧
      (({ s.dev.memc with chans := [{ queue := [⟨.gain, 0x36000000, true, [], 0⟩] }, {}] } : Memc).forwards
        (0x36000000 + s.dev.diag.mapAddr) = true) ∧ ({ s.dev.memc with dramLess := true } : Memc).dramLess = true) ∧
    (eccCorrected {} = 0 ∧ eccPoisons {} = false ∧ eccPoisons { w3 := .bad } = true ∧ eccCorrected { w0 := .corrected } = 1) := by
  decide +kernel

theorem w_TestControlsTakeEffect :
    (let s := at_ 2 runs;
      WriteOk s 0x7C08 0x03FF0001 (crcOf s 0x7C08 0x03FF0001) ∧ WriteOk s 0x7C0C 0xFFFF (crcOf s 0x7C0C 0xFFFF) ∧
      WriteOk s 0x7C10 0x1F (crcOf s 0x7C10 0x1F) ∧ WriteOk s 0x7C04 0x3F0F (crcOf s 0x7C04 0x3F0F) ∧
      s.lat.perturbed = false) ∧
    { at_ 2 runs with lat := { level := 2, perturbed := true } }.lat.perturbed = true := by
  unfold WriteOk; decide +kernel

theorem w_InjectionAndDrills :
    (∀ lost, let s := at_ 2 (fun d => { runs d with keep := { d.keep with clockLost := lost } });
      WriteOk s 0x7C18 0x10000 (crcOf s 0x7C18 0x10000) ∧ (0x10000 : Word).getLsbD 16 = true ∧
      (kindReserved (0x10000 / 256 % 64) = true ∨ kindSender (0x10000 / 256 % 64) (0x10000 % 256) = false) ∧
      WriteOk s 0x7C18 0x11000 (crcOf s 0x7C18 0x11000) ∧ (0x11000 : Word).getLsbD 16 = true ∧
      kindReserved (0x11000 / 256 % 64) = false ∧ kindSender (0x11000 / 256 % 64) (0x11000 % 256) = true ∧
      s.dev.keeperRuns = !lost ∧ s.dev.keep.fifos.length < 4 ∧
      WriteOk s 0x7C1C 0x10001 (crcOf s 0x7C1C 0x10001) ∧ (0x10001 : Word).getLsbD 16 = true) ∧
    (∀ s ∈ [at_ 2 up, { at_ 2 runs with lat := { level := 2, safe := true } }, at_ 2 runs],
      WriteOk s 0x7C1C 0x10000 (crcOf s 0x7C1C 0x10000) ∧ s.dev.keeperRuns = true) ∧
    ((at_ 2 up).dev.frm.ticked = false ∧ { at_ 2 runs with lat := { level := 2, safe := true } }.lat.safe = true ∧
      ∀ u, ¬ DrillNames (at_ 2 runs) 0 0 u) ∧
    (∀ b ∈ [InstState.standby, .selftest], let s := at_ 2 (fun d => { runs d with
        chg := { d.chg with eng := { b := b }, tb := { b := b }, refs := [(0, { b := b })] } });
      ∀ x ∈ [((0x10001 : Word), UnitRef.engine false), (0x10002, .timebase false), (0x10003, .tileRef 0 false)],
        WriteOk s 0x7C1C x.1 (crcOf s 0x7C1C x.1) ∧ s.dev.keeperRuns = true ∧ s.dev.frm.ticked = true ∧ s.lat.safe = false ∧
        x.1.toNat % 4 = (match x.2 with | .engine _ => 1 | .timebase _ => 2 | .tileRef _ _ => 3) ∧ x.1.toNat / 256 % 256 = 0 ∧
        s.dev.gaveUpNow x.2 = none ∧ s.dev.chg.is x.2 .active = true ∧
        s.dev.chg.is (unitPartner x.2) .standby = decide (b = .standby)) ∧
    (DrillNames (at_ 2 runs) 1 0 (.engine false) ∧ DrillNames (at_ 2 runs) 2 0 (.timebase false) ∧
      DrillNames (at_ 2 runs) 3 0 (.tileRef 0 false)) ∧
    (let s := at_ 2 (fun d => { runs d with chg := { d.chg with tb := { a := .selftest, b := .active, last := some ⟨0, false, 5, true⟩ } } });
      WriteOk s 0x7C1C 0x10002 (crcOf s 0x7C1C 0x10002) ∧ s.dev.keeperRuns = true ∧
      s.dev.gaveUpNow (.timebase false) = some ⟨0, false, 5, true⟩) ∧
    (let up_ := [true, true, true, true, true, false, true, true, false, true, true];
      (at_ 3 runs).dev.domainOn .aon = true ∧ (at_ 3 runs).lat.level = 3 ∧ (at_ 3 runs).dev.pwr.mainOn = true ∧
      ((at_ 3 runs).dev.test.tap.after true up_).2 = true ∧ (at_ 2 runs).lat.level ≠ 3 ∧
      ((at_ 3 runs).dev.test.tap.after true []).2 = false ∧ ((at_ 3 runs).dev.test.tap.after false up_).2 = false) :=
  ⟨by unfold WriteOk; decide +kernel, by unfold WriteOk; decide +kernel,
    ⟨by decide, by decide, fun u => by cases u <;> simp [DrillNames]⟩, by unfold WriteOk; decide +kernel,
    ⟨rfl, rfl, by unfold DrillNames; decide +kernel⟩, by unfold WriteOk; decide +kernel, by decide +kernel⟩

/-- RUN with a security command under way. -/
def secJob (n : Nat) : State := with_ (fun d => { runs d with
  sec := { d.sec with cmd := n, job := some { cmd := n, key := 0, resp := List.replicate 36 0, block := [] } } })

theorem w_SecurityCommandsStart :
    (∀ n ∈ [1, 2, 3, 4, 5], WriteOk (with_ runs) 0x7050 (BitVec.ofNat 32 (n + 256 * (0 : Byte).toNat))
      (crcOf (with_ runs) 0x7050 (BitVec.ofNat 32 (n + 256 * (0 : Byte).toNat)))) ∧
    ((with_ runs).dev.sec.job = none ∧ (with_ runs).dev.sec.fusing = false) ∧ (secJob 5).dev.sec.job.isSome = true ∧
    WriteOk (secJob 5) 0x7050 5 (crcOf (secJob 5) 0x7050 5) := by
  unfold WriteOk; decide +kernel

/-- Unlocks that end as STATE, in a lockout, and as a bad signature where the unit holds no key; the engine in the middle of a
claim; the claim bit under way. -/
theorem w_SecurityCommandsEnd :
    (∀ n ∈ [1, 2, 3], ∃ j, (secJob n).dev.sec.job = some j ∧ 1 ≤ j.cmd ∧ j.cmd ≤ 3 ∧
      (secJob n).lat.level.toNat < j.cmd) ∧
    (let s := { secJob 1 with lat := { level := 1 } }; ∃ j, s.dev.sec.job = some j ∧ j.cmd ≤ s.lat.level.toNat) ∧
    (let s := secJob 1; ({ s with dev := { s.dev with sec := { s.dev.sec with lockLen := 10 } } } : State).dev.sec.lockLen ≠ 0) ∧
    (let s := secJob 1;
      let s : State := { s with dev := { s.dev with sec := { s.dev.sec with fails := 3 } } };
      s.dev.pwr.mainOn = true ∧ s.lat.level.toNat < 1 ∧ s.dev.sec.lockLen = 0 ∧ 3 ≤ s.dev.sec.fails) ∧
    (∃ j, (secJob 4).dev.sec.job = some j ∧ j.cmd = 4) ∧ (∃ j, (secJob 5).dev.sec.job = some j ∧ j.cmd = 5) ∧
    (with_ (fun d => { runs d with sec := { d.sec with fusing := true } })).dev.sec.fusing = true := by
  refine ⟨fun n h => ⟨_, rfl, ?_⟩, ⟨_, rfl, by decide⟩, by decide, by decide, ⟨_, rfl, rfl⟩, ⟨_, rfl, rfl⟩, rfl⟩
  revert n; decide

theorem w_ClearsActOnTheirSeverity :
    (let s := at_ 1 runs; WriteOk s 0x0810 1 (crcOf s 0x0810 1) ∧ WriteOk s 0x0810 2 (crcOf s 0x0810 2)) ∧
    (let s := { safe runs with lat := { safe := true, level := 1 } };
      WriteOk s 0x0810 1 (crcOf s 0x0810 1) ∧ s.lat.safe = true) := by
  unfold WriteOk; decide +kernel

theorem w_StepKeepsCellsAndJobsLegal : SMap.wf {} (secJob 5).cells = true ∧
    (∀ j ∈ (secJob 5).dev.sec.job, 1 ≤ j.cmd ∧ j.cmd ≤ 5) ∧ (secJob 5).dev.sec.job.isSome = true := by decide

theorem w_CheckpointsBegin :
    (let s := with_ runs; s.dev.frm.ticked = true ∧ s.dev.pwr.mainOn = true ∧ s.dev.ledg.running = none ∧
      s.dev.ledg.waiting = none ∧ s.dev.cfg.load = .done) ∧
    (fuseNext.dev.cfg.fuseDue = true ∧ fuseNext.lat.safe = false ∧ fuseNext.dev.pwr.mainOn = true ∧
      fuseNext.otp.rollback < hdrRollback fuseNext.dev.cfg.head) := by decide

/-- RUN with records to write. -/
def writing (work : List LRec) : State := with_ (fun d => { runs d with
  ledg := { d.ledg with work := work, running := some otherTrigger } })
def rec_ (retry : Bool) : LRec := ⟨1, 0, 0, [], [], retry⟩

theorem w_RecordsAreWritten :
    ((writing [rec_ false, rec_ false]).dev.ledg.work = [rec_ false, rec_ false] ∧ [rec_ false] ≠ [] ∧ (rec_ false).kind ≠ 3) ∧
    (rec_ false).retry = false ∧ ((rec_ true).retry = true ∧ (writing [rec_ true, rec_ false]).dev.ledg.work = [rec_ true, rec_ false]) ∧
    (let r : LRec := ⟨3, 5, 0, [], [], false⟩; (writing [r, rec_ false]).dev.ledg.work = [r, rec_ false] ∧ [rec_ false] ≠ [] ∧
      r.kind = 3 ∧ r.arg ≠ 383 ∧ (writing [r]).dev.pwr.mainOn = true ∧
      ∃ n, n < 1024 ∧ n ∉ (writing [r]).dev.ledg.imgSectors ∧ n ∉ (writing [r]).dev.ledg.curSectors) ∧
    ((writing [rec_ false]).dev.ledg.work = [rec_ false] ∧ (writing [rec_ false]).dev.ledg.running = some otherTrigger ∧
      (writing [rec_ false]).dev.ledg.waiting = none) :=
  ⟨by decide, by decide, by decide, ⟨by decide, by decide, by decide, by decide, by decide, 7, by decide⟩, by decide⟩

/-- RUN under a schedule at a period, with a decision; tile 0 is ready. -/
def period (n : Nat) (dec : Decision) : State := with_ (fun d => { sched 1 0 d with
  frm := { (sched 1 0 d).frm with period := n, decision := dec }, tiles := [(0, { drive := 15 })] })
/-- The same with every tile ready. -/
def allReady (n : Nat) : State := { period n .none with
  dev := { (period n .none).dev with tiles := (List.range 192).map (fun t => (t, { drive := 15 })) } }

theorem w_TickCopiesReadyTiles :
    (let s := { period 8 .tick with cells := [(0, { shadow := 0x4201 })] };
      SMap.wf {} s.cells = true ∧ s.running = true ∧ s.dev.frm.decision = .tick ∧ ready s (tileOf 0) ∧ ¬ ready s (tileOf 64)) ∧
    (let s := period 23 .limit; s.running = true ∧ s.dev.frm.decision ≠ .none ∧ s.dev.frm.period = 23) := by
  unfold ready; decide +kernel

theorem w_GatesDecideTheTick :
    (∀ s ∈ [period 7 .none, period 23 .none, allReady 23], s.running = true ∧ s.dev.frm.decision = .none ∧
      s.dev.frm.awaitSample = false ∧ s.dev.frm.transitional = false ∧ s.dev.syncRole = 0 ∧ s.dev.test.jitter = 0 ∧
      s.dev.base ≤ s.dev.frm.period + 1) ∧
    (period 7 .none).dev.frm.period < 23 ∧ (period 23 .none).dev.compositionGate = false ∧
    (allReady 23).dev.compositionGate = true ∧
    (allReady 23).dev.contentGate ((allReady 23).dev.now + 16 * (allReady 23).dev.slot) true = false ∧
    (let d := { (allReady 23).dev with
        now := 1000000, frm := { (allReady 23).dev.frm with commits := [⟨1, [], none, none, none, 0, 1⟩] } };
      d.contentGate (d.now + 16 * d.slot) true = true) := by decide +kernel

theorem w_PeriodsSampleActiveWords :
    (let s := period 3 .none; SMap.wf {} s.cells = true ∧ s.running = true ∧ (15 : Nat) < 16 ∧ (15 : Nat) ≠ 0 ∧
      SMap.wf {} s.dev.diag.tiles = true ∧ s.dev.frm.starts.length = 16 ∧ s.dev.frm.periodBegun = false) ∧
    (let d := (period 3 .none).dev;
      let s : State := { period 3 .none with dev := { d with frm := { d.frm with periodBegun := true } } };
      s.dev.frm.periodBegun = true ∧ MayStart s 0 ∧ MayStart (period 3 .none) 0 ∧ MayStart (period 3 .tick) 15) ∧
    (let d := (period 3 .tick).dev;
      ¬ MayStart { period 3 .tick with dev := { d with frm := { d.frm with periodBegun := true } } } 0) ∧
    (let s := with_ (fun d => { runs d with frm := { d.frm with noCommitDue := true } });
      s.dev.pwr.mainOn = true ∧ s.dev.frm.noCommitDue = true) ∧
    (let s := with_ (fun d => { linked d with frm := { (linked d).frm with decision := .tick, since := 119, standalone := false } });
      s.running = true ∧ s.dev.frm.decision = .tick ∧ s.dev.pwr.state ≠ .prepare ∧ s.dev.frm.since = 119 ∧
      s.dev.frm.standalone = false ∧ s.dev.link.carries = true ∧ s.dev.keep.standaloneHeld = false ∧ s.dev.frm.commits = [] ∧
      s.dev.frm.modePend = none) := by unfold MayStart; decide +kernel

/-- RUN as a lamp of a pair. -/
def paired (role n : Nat) (f : Machine.Frm → Machine.Frm) : State := with_ (fun d => { runs d with
  cfg := { (runs d).cfg with verified := 4, sects := [(2, bytesOf ([role, 0x4864, 0x10000] ++ List.replicate 14 0))] }
  frm := f { (runs d).frm with period := n } })

theorem w_SyncPairEvents :
    (let s := paired 1 7 (fun f => { f with locked := true, awaitSample := true });
      s.running = true ∧ s.timebaseRuns = true ∧ s.dev.syncRole = 1 ∧ s.dev.frm.locked = true ∧ s.dev.frm.awaitSample = true ∧ s.dev.test.jitter = 0 ∧
      s.dev.base ≤ s.dev.frm.period + 1 ∧ s.dev.frm.period < 23) ∧
    (let s := paired 2 7 (fun f => { f with locked := true });
      s.running = true ∧ s.timebaseRuns = true ∧ s.dev.syncRole = 2 ∧ s.dev.frm.locked = true ∧ s.dev.frm.transitional = false ∧
      s.dev.base ≤ s.dev.frm.period + 1 ∧ s.dev.frm.period < 24 ∧ 8 ≤ 400 ∧ 7 < 8 ∧ 3 * s.dev.slotNow ≤ 400 ∧
      s.dev.spacingOk s.dev.periodCycles = true) ∧
    (let s := paired 2 7 (fun f => { f with goodEdges := 16 });
      s.running = true ∧ s.timebaseRuns = true ∧ s.dev.syncRole = 2 ∧ s.dev.frm.locked = false ∧ s.dev.frm.goodEdges = 16 ∧ s.dev.frm.realign = none ∧
      s.dev.frm.aligned = false ∧ 0 % (1040 * s.dev.slot) = 0 ∧ 7 % (1040 * s.dev.slot) ≠ 0) ∧
    (let s := paired 2 23 (fun f => { f with locked := true, decision := .limit });
      s.running = true ∧ s.timebaseRuns = true ∧ s.dev.syncRole = 2 ∧ s.dev.frm.locked = true ∧ s.dev.frm.decision = .limit ∧ s.dev.frm.period = 23) ∧
    (let s := paired 2 7 (fun f => { f with realign := some (-5), decision := .tick });
      s.running = true ∧ s.timebaseRuns = true ∧ s.dev.frm.realign = some (-5) ∧ s.dev.frm.decision = .tick) ∧
    (∀ role ∈ [1, 2], let s := paired role 0 id;
      let s : State := { s with dev := { s.dev with
        cfg := { s.dev.cfg with load := .sections 5 }, frm := { s.dev.frm with ticked := false, locked := decide (role = 1) }
        pwr := { s.dev.pwr with state := .start } } };
      s.running = false ∧ s.timebaseRuns = true ∧ s.dev.syncRole = role ∧ s.dev.frm.locked = decide (role = 1) ∧
      s.dev.frm.aligned = false ∧ s.dev.spacingOk s.dev.periodCycles = true) := by decide +kernel

/-- A pass of a purpose at its end, on chain 2 of tile 111, with the READs that the tile's other chains have returned, or none. -/
def passOf (u : Purpose) (pay : BitVec 16) : Pass :=
  let h := passHeader u.op 2 u.sel 0x37
  { tile := 111, chain := 2, purpose := u, sent := h, header := h, data := List.replicate 1408 pay, captured := [], phases := [], probes := [] }
def passing (u : Purpose) (pay : BitVec 16) (reads : Bool) : State := with_ (fun d => { runs d with
  arr := { d.arr with passes := [passOf u pay] }
  tiles := [(111, { readDue := 15, reads := if reads then [some [], some [], none, some []] else [none, none, none, none] })] })

theorem passing_ends (u : Purpose) (pay : BitVec 16) (reads : Bool) : Ends (passing u pay reads) 111 2 (passOf u pay) :=
  ⟨rfl, by decide, by decide, rfl, rfl, by
    show bits (passHeader u.op 2 u.sel 0x37).toNat 16 4 = u.op; cases u <;> decide, List.length_replicate ..⟩

/-- With nothing lost in the clock, a trailer of 0 agrees and another does not. -/
theorem trailer_iff (e : List Nat) (n : Nat) (w : BitVec 16) (f : List Nat → Nat) (h : f e = n) :
    f (flipElems e []) = Nat.xor n w.toNat ↔ w = 0 := by
  have he : flipElems e [] = e := by simp [flipElems, List.mapIdx_eq_zipIdx_map]
  rw [he, h, show Nat.xor n w.toNat = n ^^^ w.toNat from rfl]
  constructor
  · intro h
    have := congrArg (n ^^^ ·) h
    simp only [← Nat.xor_assoc, Nat.xor_self, Nat.zero_xor] at this
    exact BitVec.eq_of_toNat_eq this.symm
  · rintro rfl; simp
theorem inboundOk_iff (u : Purpose) (pay i o : BitVec 16) : InboundOk 111 (passOf u pay) ⟨[], i, [], o, false, []⟩ ↔ i = 0 :=
  trailer_iff _ _ i _ rfl
theorem returnOk_iff (u : Purpose) (pay i o : BitVec 16) : ReturnOk 111 (passOf u pay) ⟨[], i, [], o, false, []⟩ ↔ o = 0 :=
  trailer_iff _ _ o _ rfl

theorem w_DrivePassApplies : (∀ u pay reads, Ends (passing u pay reads) 111 2 (passOf u pay)) ∧
    (∀ u, (passOf u 0).purpose = u ∧ (passOf u 0).void = false ∧ (passing u 0 true).dev.frm.ticked = true) ∧
    (popcount 12 (0x03FF : BitVec 16).toNat = 10 ∧ bits (0x03FF : BitVec 16).toNat 12 4 = 0 ∧
      ∀ w ∈ (passOf .trim 0x03FF).data, w = 0x03FF) ∧
    (∀ u pay (i o : BitVec 16), (InboundOk 111 (passOf u pay) ⟨[], i, [], o, false, []⟩ ↔ i = 0) ∧
      (ReturnOk 111 (passOf u pay) ⟨[], i, [], o, false, []⟩ ↔ o = 0)) ∧
    (∀ b, (setNth ((passing .readback 0 b).dev.tile 111).reads 2 (some [])).all Option.isSome = b) ∧
    (∀ lost, (({ passing .readback 0 true with
      dev := (passing .readback 0 true).dev.onKeep (fun k => { k with clockLost := lost }) } : State).dev.keeperRuns = !lost)) :=
  ⟨passing_ends, fun u => ⟨rfl, rfl, rfl⟩, ⟨by decide, by decide, fun w h => (List.mem_replicate.1 h).2⟩,
    fun u pay i o => ⟨inboundOk_iff u pay i o, returnOk_iff u pay i o⟩, by decide, fun lost => by cases lost <;> rfl⟩

/-- RUN in the last base period of a frame of every phase group. -/
def lastBase : State := with_ (fun d => { sched 1 0 d with
  frm := { (sched 1 0 d).frm with period := 7, starts := List.replicate 16 8 } })

/-- C × Iu × F rests on free values (log 131): the pulse that shows OPEN or SHORT is given for each value of it. -/
theorem w_WindowsAndRoundsComplete :
    (let s : State := { with_ runs with cells := [(0, { sampled := 0x4203 })] };
      s.running = true ∧ s.dev.isDark 0 = false ∧ (∃ e ∈ s.cells, tileOf e.1 = 0 ∧ e.2.conducts = true) ∧ s.dev.arr.sample = none ∧
      SMap.wf {} s.cells = true ∧ s.dev.discards = false ∧ s.dev.diag.stopped = false ∧ localOf 0 = 0 ∧ (s.cell 0).conducts = true ∧
      (∀ full, full ≠ 0 → 4 * 0 * naParts < full) ∧ ∀ full, 3 * full ≤ 4 * full * naParts) ∧
    (let s : State := { lastBase with dev := { lastBase.dev with diag := { lastBase.dev.diag with pix := [(0, { unmeas := true })] } } };
      s.windowRuns 191 = true ∧ s.dev.discards = false ∧ (s.dev.dtile 0).probed = false ∧ (s.dev.dtile 0).checked = false ∧
      0 ∈ s.probeTurn 0 ∧ s.dev.probeSkips 0 = false ∧ s.converts 0 (4 * (s.dev.groupPeriod 0).1) = false ∧
      (∃ n ∈ List.range 4, checkerDriven (s.dev.ndOf 0 % 4) (pixelAt 0 n) = false ∧ s.isIsolated (pixelAt 0 n) = false ∧
        s.dev.checkerSkips (pixelAt 0 n) = false) ∧
      s.dev.arr.framesLeft = 0 ∧ s.dev.arr.roundOn = false) ∧
    (let s := with_ (fun d => { runs d with diag := { d.diag with tiles := [(0, { probed := true, checked := true })] } });
      (s.dev.dtile 0).probed = true ∧ (s.dev.dtile 0).checked = true) ∧
    (let s : State := { with_ runs with cells := [(0, { sampled := 0x4203 })] };
      let s : State := { s with dev := { s.dev with arr := { s.dev.arr with sample := some (160, 3, 0) } } };
      s.running = true ∧ s.dev.isDark 0 = false ∧ (∃ e ∈ s.cells, tileOf e.1 = 0 ∧ e.2.conducts = true) ∧ s.dev.arr.sample.isSome = true) :=
  ⟨⟨rfl, by decide +kernel, by decide +kernel, rfl, by decide +kernel, by decide +kernel, rfl, rfl, by decide +kernel,
    fun full h => by omega, fun full => by unfold naParts; omega⟩, by decide +kernel, by decide +kernel,
    rfl, by decide +kernel, by decide +kernel, rfl⟩

/-- RUN with an entry of an activity, and a frame with content whose first batches are composed. -/
def frameOf (act operand done : Nat) : State := with_ (fun d => { sched act operand d with
  comp := { d.comp with content := .host, batches := BitVec.ofNat 88 (2 ^ done - 1) } })

/-- The same with a COMPOSE entry of all batches before it, completed at its START of 50 cycles. -/
def frameAfter (act operand : Nat) (begun : List (Nat × Option Nat)) : State := with_ (fun d =>
  { sched act operand d with
    now := 1000
    cfg := { (sched act operand d).cfg with sects := [(2, bytesOf ([0, 0x4864, 0x20000, 0, 0] ++ List.replicate 12 0 ++
      [2 ^ 24 + 50, 100, 88 * 256, act * 2 ^ 24, 100, operand]))] }
    frm := { (sched act operand d).frm with begun := begun }
    comp := { d.comp with content := .host, batches := BitVec.ofNat 88 (2 ^ 88 - 1) } })

theorem w_ComposeAddsBatches :
    (let s := frameOf 1 (3 + 256 * 85) 3; MayBegin s 0 1 ∧ s.dev.frm.suspended = false ∧
      s.dev.mayCompose (bits (s.dev.entry 0).operand 0 7) (bits (s.dev.entry 0).operand 8 7) = true) ∧
    (let s := frameOf 1 0 0;
      let s : State := { s with dev := { s.dev with chg := { s.dev.chg with rebuilding := true } } };
      s.running = true ∧ s.dev.chg.rebuilding = true ∧ s.dev.mayCompose 0 88 = true) ∧
    (let s := frameAfter 1 0 [];
      let s : State := { s with dev := { s.dev with now := 0 } };
      s.dev.now - s.dev.frm.tickAt < (s.dev.entry 0).start) ∧
    (let s := frameAfter 1 0 []; 0 < 1 ∧ s.dev.inMode 0 = true ∧ (s.dev.entry 0).act = 1 ∧ s.dev.frm.begun = []) := by
  unfold MayBegin; decide +kernel

theorem w_ChainEntriesStartPasses :
    (let s := frameAfter 2 7 [(0, some 90)]; MayBegin s 1 2 ∧ s.dev.frm.suspended = false ∧
      s.dev.mayLoad (bits (s.dev.entry 1).operand 0 3) = true ∧
      MayPass s 7 191 3 ∧
      (∀ b, rowErrors [⟨0, b⟩, ⟨nPixels - 1, b⟩] 7 b = [⟨nPixels - 1, b⟩])) := by
  unfold MayBegin MayPass; decide +kernel

/-- The rebuild form of CHAIN_DRIVE, and a tick at which a pass still runs. -/
theorem w_ChainEntriesStartPasses_rebuild :
    (let s := frameAfter 2 7 [(0, some 90)];
      let s : State := { s with dev := { s.dev with frm := { s.dev.frm with suspended := true } } };
      s.running = true ∧ s.dev.frm.suspended = true ∧ s.dev.mayLoad 7 = true) ∧
    (let s := period 8 .tick;
      let s : State := { s with dev := { s.dev with arr := { s.dev.arr with passes := [passOf .drive 0] } } };
      s.running = true ∧ s.dev.frm.decision = .tick ∧ passOf .drive 0 ∈ s.dev.arr.passes) :=
  ⟨by decide +kernel, by decide +kernel, rfl, List.mem_singleton.2 rfl⟩

/-- The three needs that a CHAIN_AUX entry meets, and the rebuild form of it. -/
theorem w_ChainEntriesStartPasses_aux :
    (∀ x ∈ [(({ isoDue := 8 } : Tile), Purpose.isolate), ({ readDue := 15, trimDue := 15 }, .readback), ({ trimDue := 15 }, .trim)],
      let s := frameOf 3 0 0;
      let s : State := { s with dev := { s.dev with tiles := [(5, x.1)], arr := { s.dev.arr with roundOn := true } } };
      MayBegin s 0 3 ∧ s.dev.frm.suspended = false ∧ MayPass s 0 5 3 ∧ s.dev.auxNeed 5 3 = some x.2) ∧
    (let s := frameOf 3 0 0;
      let s : State := { s with dev := { s.dev with
        tiles := [(5, { trimDue := 15, drive := 15 })], frm := { s.dev.frm with suspended := true } } };
      s.running = true ∧ s.dev.frm.suspended = true ∧ (s.dev.tile 5).drive.getLsbD 3 = true ∧ 5 * 4 + 3 ∉ s.dev.frm.auxDone ∧
      MayPass s 0 5 3 ∧ s.dev.auxNeed 5 3 = some .trim) := by
  unfold MayBegin MayPass; decide +kernel

/-- The headers of the four passes as they are, and with their last bit flipped, which a tile controller refuses. -/
theorem w_ChainEntriesStartPasses_header :
    ∀ pu ∈ [Purpose.drive, .isolate, .readback, .trim],
      (with_ runs).dev.refuses 3 (passHeader pu.op 3 pu.sel 1).toNat = false ∧
      (with_ runs).dev.refuses 3 (passHeader pu.op 3 pu.sel 1 ^^^ 1).toNat = true := by
  decide +kernel

/-- The same with the DRAM in service, or DRAM-less. -/
def withDram (s : State) : State := { s with dev := { s.dev with memc := { s.dev.memc with trained := true, mr4Read := true } } }
def noDram (s : State) : State := { s with dev := { s.dev with memc := { s.dev.memc with dramLess := true } } }

theorem w_MemoryEntriesComplete :
    (let s := withDram (frameOf 4 15 0); MayBegin s 0 4 ∧ s.dev.dramOn = true ∧ s.dev.memc.mr4Read = true) ∧
    (let s := withDram (frameOf 8 0 0); MayBegin s 0 8 ∧ s.dev.dramOn = true) ∧
    (let s := noDram (frameOf 7 0 0);
      let s : State := { s with dev := { s.dev with diag := { s.dev.diag with stopped := true } } };
      MayBegin s 0 7 ∧ s.dev.diag.stopped = true ∧ s.dev.memc.dramLess = true) ∧
    (let s := frameOf 7 0 0; MayBegin s 0 7 ∧ s.dev.memc.dramLess = false) := by
  unfold MayBegin; decide +kernel

/-- The first REFRESH entry of a frame, which reads MR4. -/
theorem w_MemoryEntriesComplete_mr4 :
    (let s := withDram (frameOf 4 15 0);
      let s : State := { s with dev := { s.dev with memc := { s.dev.memc with mr4Read := false, chans := [{ mr4 := 3 }, { mr4 := 4 }] } } };
      MayBegin s 0 4 ∧ s.dev.dramOn = true ∧ s.dev.memc.mr4Read = false ∧ s.dev.memc.chans.length = 2 ∧
      rateChanges 3 4 = true ∧ rateChanges 4 3 = true ∧ rateChanges 4 5 = false) := by
  unfold MayBegin; decide +kernel

/-- A SCAN entry over two entries of CE2: 64 bytes of the store, and 64 bytes of layer memory that nothing has filled. -/
def scans (pos : Nat) : State := with_ (fun d => { sched 6 32 d with
  cfg := { (sched 6 32 d).cfg with sects :=
    [(2, schedule 6 32), (4, bytesOf (List.replicate 144 0 ++ [2, 0, 64 + 2 ^ 28, 0, 0, 0, 64, 0, 0] ++ List.replicate 568 0))] }
  chk := { d.chk with ce2 := { pos := pos } } })

/-- The last 32 bytes of that store entry, with the result of the scan expected, or another. -/
def scanEnd (a : Nat) (rescan : Bool) : State :=
  let s : State := { scans 0 with dev := { (scans 0).dev with chk := { (scans 0).dev.chk with ce2 := { done := 32, crc := 0, rescan := rescan } } } }
  let r := (s.dev.scanPar false).result (scanCrc s false 0 32 [])
  { s with dev := { s.dev with chk := { s.dev.chk with expA := [r + a], expB := [r + a] } } }

theorem w_LedgerAndScanEntriesComplete :
    (let s := frameOf 5 7 0;
      let es := (List.range 8).map (fun i => (i, (0x3FF : BitVec 12)));
      let s : State := { s with dev := { s.dev with ledg := { s.dev.ledg with toPack := es } } };
      MayBegin s 0 5 ∧ s.dev.memc.dramLess = false ∧ (∀ e ∈ s.dev.ledg.toPack, cacheAddr e.1 + 38 ≤ memTop) ∧
      bits (s.dev.entry 0).operand 0 20 / 7 = 1 ∧ runAddr es 0 = cachePart 0 ∧ 8 * 0 < es.length ∧ ¬ 8 * 1 < es.length ∧
      packReads 1 es = [cachePart 0]) ∧ bits ((frameOf 5 6 0).dev.entry 0).operand 0 20 < 7 ∧
    (let s := scans 2; MayBegin s 0 6 ∧ (s.dev.ownEntries (bit (s.dev.entry 0).operand 24)).length ≤
      (s.dev.chk.engine (bit (s.dev.entry 0).operand 24)).pos) ∧
    (let s := scans 1; MayBegin s 0 6 ∧ (s.dev.ownEntries (bit (s.dev.entry 0).operand 24))[
      (s.dev.chk.engine (bit (s.dev.entry 0).operand 24)).pos]? = some 1 ∧ s.dev.scanSkips 1 = true) ∧
    (let s := scans 0;
      let g := s.dev.chk.engine (bit (s.dev.entry 0).operand 24);
      MayBegin s 0 6 ∧ (s.dev.ownEntries (bit (s.dev.entry 0).operand 24))[g.pos]? = some 0 ∧ s.dev.scanSkips 0 = false ∧
      g.done + bits (s.dev.entry 0).operand 0 20 < s.dev.scanLength 0) := by
  unfold MayBegin; decide +kernel

/-- The end of the entry poisoned, and with copies that differ, both and one of them from the result; and a granule of an entry in
layer memory read poisoned. -/
theorem w_LedgerAndScanEntriesComplete_bad :
    (let s := scanEnd 0 false;
      let s : State := { s with dev := { s.dev with chk := { s.dev.chk with ce2 := { s.dev.chk.ce2 with poisoned := true } } } };
      (s.dev.chk.engine false).poisoned = true ∧ s.dev.scanLength 0 ≤ (s.dev.chk.engine false).done + 32) ∧
    (∀ a ∈ [0, 1], let s := scanEnd a false;
      let c := { s.dev.chk with expB := (scanEnd (1 + a) false).dev.chk.expB };
      nth 0 c.expA 0 ≠ nth 0 c.expB 0) ∧
    (let s := scans 1;
      let s : State := { s with dev := { s.dev with memc := { s.dev.memc with trained := true } } };
      scanHits s false 1 32 [s.dev.scanStart 1] ≠ []) ∧
    (let s := frameOf 5 7 0;
      s.dev.memc.forwards (cachePart 0) = false ∧ cachePart 0 < cachePart 384 ∧
      (packReads 1 [(8, 0x3FF)]).countP ({ s.dev.memc with chans := [{ queue := [⟨.ledg, cacheAddr 8, true, [], 0⟩] }, {}] } : Memc).forwards ≠ 0) := by
  decide +kernel

/-- The end of the entry with the expected result and with another one, in a first scan and in a rescan; and LEDGER in DRAM-less mode. -/
theorem w_LedgerAndScanEntriesComplete_end : (let s := noDram (frameOf 5 7 0); MayBegin s 0 5 ∧ s.dev.memc.dramLess = true) ∧
    ∀ x ∈ [(0, false), (0, true), (1, false), (1, true)],
    let s := scanEnd x.1 x.2;
    let g := s.dev.chk.engine false;
    MayBegin s 0 6 ∧ bit (s.dev.entry 0).operand 24 = false ∧ (s.dev.ownEntries false)[g.pos]? = some 0 ∧ s.dev.scanSkips 0 = false ∧
    s.dev.scanLength 0 ≤ g.done + bits (s.dev.entry 0).operand 0 20 ∧ nth 0 s.dev.chk.expA 0 = nth 0 s.dev.chk.expB 0 ∧
    g.rescan = x.2 ∧ g.poisoned = false ∧ scanHits s false 0 (bits (s.dev.entry 0).operand 0 20) [] = [] ∧
    decide ((s.dev.scanPar false).result (scanCrc s false 0 (bits (s.dev.entry 0).operand 0 20) []) = nth 0 s.dev.chk.expA 0) =
      decide (x.1 = 0) := by
  unfold MayBegin; decide +kernel

/-- A frame in which entry 0 has begun. -/
def begunAt (act : Nat) (fin : Option Nat) : State :=
  let s := frameOf act 0 0
  { s with dev := { s.dev with frm := { s.dev.frm with begun := [(0, fin)] } } }

/-- A pass of entry 0 was stopped in a tile that became dark. -/
def stoppedAt (s : State) : State := { s with dev := { s.dev with frm := { s.dev.frm with stopped := [0] } } }

/-- Not begun, ended one cycle late, begun and not ended, and with a pass stopped: misses. -/
theorem w_DeadlinesAreJudged :
    (∀ s ∈ [frameOf 1 0 0, begunAt 2 (some 101), begunAt 5 none, stoppedAt (begunAt 2 (some 100))], Judges s 0 ∧ ¬ OnTime s 0) ∧
    (Judges (begunAt 1 (some 100)) 0 ∧ BeganAs (begunAt 1 (some 100)) 0 (some 100) ∧
      100 ≤ ((begunAt 1 (some 100)).dev.entry 0).deadline ∧ (begunAt 1 (some 100)).dev.frm.stopped = []) ∧
    (Judges (frameOf 4 0 0) 0 ∧ (frameOf 4 0 0).dev.frm.stopped = [] ∧ NothingToDo (frameOf 4 0 0) 0) ∧
    (Judges (noDram (frameOf 8 0 0)) 0 ∧ Idle (noDram (frameOf 8 0 0)) 0) ∧ (Judges (frameOf 6 0 0) 0 ∧ Idle (frameOf 6 0 0) 0) ∧
    (let s := frameOf 1 0 0; ¬ Judges { s with dev := { s.dev with frm := { s.dev.frm with judged := [0] } } } 0) := by
  have busy : ∀ act ∈ [1, 2, 5], ∀ b, ¬ Idle { frameOf act 0 0 with dev := { (frameOf act 0 0).dev with frm := b } } 0 := by
    intro act h b hi
    have : ((frameOf act 0 0).dev.entry 0).act = act := by clear hi; revert act; decide +kernel
    rcases hi with ⟨h' | h', -⟩ | ⟨h', -⟩ <;> cases this.symm.trans h' <;> revert h <;> decide
  have late : ∀ c, (100 : Nat) < c → ¬ OnTime (begunAt 2 (some c)) 0 := by
    rintro c hc (h | ⟨-, ⟨x, h, hx⟩ | ⟨h, -⟩⟩)
    · exact busy 2 (by decide) _ h
    · cases h
      have : ((begunAt 2 (some c)).dev.entry 0).deadline = 100 := (by decide +kernel : ((frameOf 2 0 0).dev.entry 0).deadline = 100)
      omega
    · exact h (0, some c) (List.mem_singleton.2 rfl) rfl
  have open_ : ¬ OnTime (begunAt 5 none) 0 := by
    rintro (h | ⟨-, ⟨x, h, -⟩ | ⟨h, -⟩⟩)
    · exact busy 5 (by decide) _ h
    · cases h
    · exact h (0, none) (List.mem_singleton.2 rfl) rfl
  have cut : ¬ OnTime (stoppedAt (begunAt 2 (some 100))) 0 := by
    rintro (h | ⟨h, -⟩)
    · exact busy 2 (by decide) _ h
    · cases h
  have idle : ¬ OnTime (frameOf 1 0 0) 0 := by
    rintro (h | ⟨-, ⟨x, h, -⟩ | ⟨-, ⟨h, -⟩ | ⟨h, -⟩⟩⟩)
    · exact busy 1 (by decide) _ h
    · cases h
    all_goals exact absurd h (by decide +kernel)
  refine ⟨?_, ⟨by unfold Judges; decide +kernel, rfl, by decide +kernel, rfl⟩, ⟨by unfold Judges; decide +kernel, rfl, ?_⟩,
    ⟨by unfold Judges; decide +kernel, .inl ⟨.inr (by decide +kernel), rfl⟩⟩,
    ⟨by unfold Judges; decide +kernel, .inr ⟨by decide +kernel, by decide +kernel⟩⟩, by unfold Judges; decide +kernel⟩
  · intro s h
    rcases List.mem_cons.1 h with rfl | h
    · exact ⟨by unfold Judges; decide +kernel, idle⟩
    rcases List.mem_cons.1 h with rfl | h
    · exact ⟨by unfold Judges; decide +kernel, late 101 (by omega)⟩
    rcases List.mem_cons.1 h with rfl | h
    · exact ⟨by unfold Judges; decide +kernel, open_⟩
    rcases List.mem_singleton.1 h with rfl
    exact ⟨by unfold Judges; decide +kernel, cut⟩
  · exact ⟨by decide +kernel, .inr ⟨by decide +kernel, by decide +kernel⟩⟩

/-- RUN in a sweep, with the calibration and tile 0's next conversion. -/
def sweeping (n : Nat) (f : Cal → Cal) : State := with_ (fun d => { sched 1 0 d with
  frm := { (sched 1 0 d).frm with starts := List.replicate 16 (n / 4 + 1) }
  cal := f { d.cal with tiles := [(0, { nextConv := n })] }, now := 400 })

theorem w_CalibrationProceeds :
    (∀ n ∈ [0, 7, 8], let s := sweeping n id;
      s.converts 0 n = true ∧ s.dev.cal.discardUntil + 4 * s.dev.slot ≤ s.dev.now ∧ s.dev.pwr.mainOn = true ∧
      ((n < s.dev.base ∧ s.dev.cal.pointer + n < 5632 ∧ s.dev.cal.pass < 4 ∧ (s.dev.calTile 0).owed = [] ∧
        s.dev.eligible 0 (s.dev.cal.pointer + n) = true) ∨ n = s.dev.base)) ∧
    (let s := sweeping 0 (fun c => { c with passEndDue := true, pass := 4 });
      s.dev.cal.passEndDue = true ∧ s.dev.cal.pass ≠ 15 ∧ s.dev.cal.pass ≠ 3) ∧
    (let s := sweeping 0 (fun c => { c with passEndDue := true, pass := 15 });
      s.dev.cal.passEndDue = true ∧ s.dev.cal.pass = 15) ∧
    (let s := sweeping 0 (fun c => { c with commitDue := true });
      let s : State := { s with dev := { s.dev with tiles := [(0, { trim := 15 })] } };
      SMap.wf {} s.cells = true ∧ s.dev.cal.commitDue = true ∧ s.dev.frm.ticked = true ∧ s.dev.cal.stopped = false ∧
      (s.dev.tile (tileOf 0)).dark = false ∧ (s.dev.tile (tileOf 0)).trim = 15 ∧ (s.dev.tile (tileOf 64)).trim ≠ 15 ∧
      s.dev.isDark 1 = false ∧ (s.dev.tile 1).trim ≠ 15) := by
  decide +kernel

/-- The end of pass 3, with `n` pixels of tile 0 measured and no other pixel. -/
def pass3 (n : Nat) : State :=
  let s := sweeping 0 (fun c => { c with
    passEndDue := true, pass := 3, tiles := [(0, { meas := (List.range n).map (fun i => (i, [4, 3])) })] })
  { s with dev := { s.dev with cfg := { s.dev.cfg with verified := 6 } } }

theorem measured (n : Nat) (hn : n ≤ 5632) : ((pass3 n).dev.tileMeans 0).length = n := by
  have hp : (pass3 n).dev.diag.pix = [] := rfl
  have hm : ((pass3 n).dev.calTile 0).meas = (List.range n).map (fun i => (i, [4, 3])) := rfl
  unfold Dev.tileMeans
  rw [hm, List.length_map, List.filter_eq_self.2, List.length_map, List.length_range]
  intro e he
  obtain ⟨i, hi, rfl⟩ := List.mem_map.1 he
  have := List.mem_range.1 hi
  have hi : i < tilePixels := Nat.lt_of_lt_of_le this hn
  simp [Dev.eligible, Dev.pix, hp, SMap.get, hi]

theorem w_CalibrationProceeds_means :
    2816 ≤ ((pass3 2816).dev.tileMeans 0).length ∧ skipsSweep (pass3 2816) 0 = false := by
  have h := measured 2816 (by decide)
  exact ⟨Nat.le_of_eq h.symm, by unfold skipsSweep; rw [h]; simp⟩

/-- A pass conversion with a measurement owed, and one of pass 4; candidate conversions, the 1st, the 13th and the 21st of a pixel; conversions
that are discarded; and the end of pass 3, with a tile that has its measurements and others that have too few. -/
theorem w_CalibrationProceeds_more :
    (∀ k ∈ [3, 4], let s := sweeping 0 (fun c => { c with pass := k, tiles := [(0, { owed := [7] })] });
      s.converts 0 0 = true ∧ s.dev.cal.discardUntil + 4 * s.dev.slot ≤ s.dev.now ∧ 0 < s.dev.base ∧ s.dev.passQueue 0 0 = [7, 0] ∧
      s.dev.convPassNo 0 = k ∧ (s.dev.calTile 0).reforms = false) ∧
    (∀ x ∈ [([] : List Nat), List.replicate 12 0, List.replicate 20 0],
      let s := sweeping 9 (fun c => { c with pass := 4, tiles := [(0, { nextConv := 9, m := [(5, some 100)], cands := [⟨5, x, none⟩] })] });
      s.converts 0 9 = true ∧ s.dev.cal.discardUntil + 4 * s.dev.slot ≤ s.dev.now ∧ Serves s 0 9 100 ⟨5, x, none⟩) ∧
    (∀ c ∈ [0, 8, 9], let s := sweeping c (fun c => { c with discardUntil := 400 });
      s.converts 0 c = true ∧ s.dev.now < s.dev.cal.discardUntil + 4 * s.dev.slot ∧ s.dev.passQueue 0 c ≠ []) ∧
    (let s := pass3 2816; s.dev.pwr.mainOn = true ∧ s.dev.cal.passEndDue = true ∧ s.dev.cal.pass = 3 ∧ s.dev.has 1 = true ∧
      s.dev.isDark 0 = false ∧ s.dev.eligible 0 0 = true ∧ skipsSweep s 1 = true) := by
  unfold Serves; decide +kernel

theorem w_RequestSplitsAtKnee : 1048575 ≤ fullScale ∧ (4 : Nat) ≤ 16 ∧ (16 : Nat) ≤ 32 ∧ 266304 * 64449 ≤ 16 * 1023 * fullScale ∧
    16 * 1023 * fullScale < 266305 * 64449 ∧ onTimeOf 1 (currentCode 16 1) 15 = 0 ∧ onTimeOf 1 (currentCode 16 1) 14 ≠ 0 := by
  decide +kernel

/-- The link in a state, lane 0 locked. -/
def link (st : LinkState) (f : Link → Link) : State := with_ (fun d => { runs d with
  link := f { d.link with refclk := true, state := st, lanes := { locked := true } :: List.replicate 3 {} } })

theorem w_TrainingTimeoutsBackOff : (link .detect id).dev.link.state = .detect ∧ (link .trainA id).dev.link.state = .trainA ∧
    (link .trainB id).dev.link.state = .trainB ∧ (link .backoff id).dev.link.state = .backoff ∧
    (let s := link .trainB id;
      let set := ordered 0xB6 (List.replicate 13 0);
      s.dev.fairwayOn = true ∧ s.dev.link.validSet 0 0xB6 set = true ∧ 0 = s.dev.link.countLane ∧ usedTx (setByte set 6) = 0 ∧
      set.length = 16 ∧ (s.dev.link.lane 0).locked = true ∧ s.dev.link.loses 0 .clockRecovery = true ∧
      (∀ m, m < 4 → m ≠ 0 → (s.dev.link.lane m).good = false) ∧ s.dev.link.lanes.length = 4) := by decide +kernel

theorem w_ClockAndLaneEvents :
    (let s := with_ runs; (∀ k ∈ [99000, 100100], let ws := List.replicate 100 k; 100 ≤ ws.length ∧ ∀ k ∈ ws, 99000 ≤ k ∧ k ≤ 100100) ∧
      s.dev.pwr.mainOn = true ∧ s.dev.pwr.aonLost = false ∧ s.dev.pwr.state ≠ .entry ∧ s.dev.link.state = .down ∧
      s.dev.fw.writes = [] ∧ s.dev.fw.replies.length + s.dev.fw.crossing.length ≤ 256) ∧
    ((List.replicate 99 100000).length < 100 ∧ ∀ k ∈ [98999, 100101], k < 99000 ∨ 100100 < k) ∧
    (inPark.dev.pwr.parked = true ∧ unpowered.dev.pwr.aonLost = true) ∧
    (99000 ≤ 99000 ∧ 99000 ≤ 100100 ∧ 99000 ≤ 100100 ∧ 100100 ≤ 100100 ∧ 999 < 1000) ∧
    ((∀ khz ∈ [98999, 100101], ∃ k, RefLoss.window khz = .window k ∧ (k < 99000 ∨ 100100 < k)) ∧
      ∃ ns, RefLoss.noEdge 1000 = .noEdge ns ∧ 1000 ≤ ns) ∧
    (∀ p, hasComma (onLane0 p) = true) ∧ locks false [] = false ∧
    (let s := link .detect id; s.dev.link.refclk = true ∧ s.dev.pwr.mainOn = true ∧ s.dev.link.state = .detect ∧
      s.dev.fairwayOn = true ∧ s.dev.link.lanes.length = 4 ∧ (s.dev.link.lane 0).locked = true ∧ s.dev.link.carries = false ∧
      s.dev.link.state ≠ .trainB ∧ s.dev.link.loses 0 .clockRecovery = true ∧ s.dev.link.loses 0 (.commas []) = false ∧
      s.dev.link.loses 0 (.commas [[], [], []]) = true) ∧
    (let blocks := [List.replicate 3 false ++ comma, List.replicate 9 false];
      violationsOf [] none blocks = [0, 1] ∧ openAfter [] none blocks = [(false, 9)] ∧ leftOpen [(true, 9), (false, 3)] = 1 ∧
      NoComma 0 [] none blocks ∧ ¬ NoComma 8 [] none blocks) ∧
    (∀ st ∈ [LinkState.active, .rewidth], let s := link st id;
      refLost (.noEdge 1000) = true ∧ s.dev.link.refclk = true ∧ s.dev.pwr.mainOn = true ∧ s.dev.pwr.parked = false ∧
      s.dev.pwr.aonLost = false ∧ s.dev.link.carries = true ∧ 0 < s.dev.link.lanes.length) ∧ ((link .detect id).dev.link.lane 1).locked = false :=
  ⟨by decide +kernel, by decide, by decide, by decide, ⟨fun k h => ⟨k, rfl, by revert k; decide⟩, 1000, rfl, by decide⟩,
    fun p => hasComma_blockLine _ p, by decide, by decide,
    ⟨by decide, by decide, by decide, ⟨by decide, by decide, trivial⟩, fun h => absurd h.1 (by decide)⟩, by decide, by decide⟩

theorem w_TrainingReachesActive : (∀ set : Bytes, set.length = 16 → set = lineSet 0 (onLane0 set)) ∧
    (ordered 0xA5 (List.replicate 13 0)).length = 16 ∧
    (let s := link .detect id; s.dev.fairwayOn = true ∧ s.dev.link.state = .detect ∧
      s.dev.link.validSet 0 0xA5 (ordered 0xA5 (List.replicate 13 0)) = true) ∧
    (let s := link .trainA (fun l => { l with eqRun := 15, partnerGood := 1 });
      let set := ordered 0xA5 [0, 0, 0, 0, 0, 1, 1, 0, 0, 0, 0, 0, 0];
      s.dev.link.state = .trainA ∧ s.dev.link.validSet 0 0xA5 set = true ∧ 0 = s.dev.link.countLane ∧ s.dev.link.eqRun = 15 ∧
      setByte set 6 % 16 = s.dev.link.partnerGood ∧ bit (setByte set 7) 0 = true ∧ bit (setByte set 2) 7 = false ∧
      bit (setByte set 3) 7 = false ∧ set.length = 16 ∧ s.dev.link.validSet 0 0xA5 (List.replicate 16 0) = false) ∧
    (let s := link .trainB (fun l => { l with agreeRun := 15, sentRun := 15, agree := true });
      let set := ordered 0xB6 [0, 0, 0, 0, 0, 3, 2, 3, 1, 0, 0, 0, 0];
      s.dev.link.state = .trainB ∧ s.dev.link.validSet 0 0xB6 set = true ∧ 0 = s.dev.link.countLane ∧
      1 = usedSet (s.dev.link.measure [0, 0, 0, 0]).goodLanes ∧ 3 = usedTx (setByte set 6) ∧ 15 ≤ s.dev.link.agreeRun ∧
      15 ≤ s.dev.link.sentRun ∧ s.dev.link.agree = true ∧ bit (setByte set 7) 1 = true ∧
      setByte set 8 % 16 = 3 ∧ setByte set 9 % 16 = 1 ∧ set.length = 16) ∧
    (link .backoff id).dev.link.state ≠ .trainB ∧ (link .backoff id).dev.fairwayOn = true ∧ (link .backoff id).dev.link.carries = false ∧
    (let b : Buf := { gen := some 7 }; b.gen.isSome = true ∧ b.gotLast = false) := ⟨read0, by decide +kernel⟩

theorem w_WidthChanges : (∀ set : Bytes, set.length = 16 → set = lineSet 0 (onLane0 set)) ∧
    (let s := link .active (fun l => { l with rxSet := 3, txSet := 3, lanes := List.replicate 4 { locked := true } });
      s.dev.fairwayOn = true ∧ (s.dev.link.lane 1).locked = true ∧ s.dev.link.loses 1 .clockRecovery = true ∧
      s.dev.link.state = .active ∧ bit s.dev.link.rxSet 1 = true ∧ usedSet (s.dev.link.goodLanes.filter (· != 1)) ≠ 0) ∧
    (∀ s ∈ [link .active (fun l => { l with rxSet := 15, txSet := 3 }), link .active (fun l => { l with rxSet := 1, txSet := 3 }),
        link .active (fun l => { l with rxSet := 15, txSet := 3, attempt := some (2, 0) }),
        link .active (fun l => { l with rxSet := 15, txSet := 3, attempt := some (0, 2) }),
        link .rewidth (fun l => { l with rxSet := 1, newRx := 1, newTx := 3 }),
        link .rewidth (fun l => { l with rxSet := 1, newRx := 1, newTx := 3, acks := 1 })],
      let set := ordered 0xC7 [0, 0, 0, 0, 0, 0, 0, 3, 1, 0, 0, 0, 0];
      s.dev.fairwayOn = true ∧ s.dev.link.validSet 0 0xC7 set = true ∧ set.length = 16 ∧
      bits (setByte set 7) 2 3 = 0 ∧ s.dev.link.setLane = some 0 ∧ s.dev.link.setLane ≠ some 1 ∧ usedTx (setByte set 8) = 3 ∧
      usedSet ((lanesOf (setByte set 9 % 16)).filter (fun n => (s.dev.link.lane n).good)) = 1 ∧ setByte set 9 % 16 = 1 ∧
      (s.dev.link.state = .rewidth → s.dev.link.detecting = false)) ∧
    (∀ n ∈ [0, 1], let s := link .rewidth (fun l => { l with detecting := true, newRx := 1, newTx := 3, acks := n });
      let set := ordered 0xC7 [0, 0, 0, 0, 0, 0, 4, 3, 1, 0, 0, 0, 0];
      s.dev.fairwayOn = true ∧ s.dev.link.state = .rewidth ∧ s.dev.link.detecting = true ∧
      s.dev.link.validSet 0 0xC7 set = true ∧ bit (setByte set 7) 2 = true ∧ setByte set 8 % 16 = s.dev.link.newTx ∧
      setByte set 9 % 16 = s.dev.link.newRx ∧ bit s.dev.link.newRx 0 = true ∧ (lanesOf s.dev.link.newRx).head? = some 0 ∧
      s.dev.link.acks = n) := ⟨read0, by decide +kernel⟩

theorem w_LaneRestoreEvents : (∀ set : Bytes, set.length = 16 → set = lineSet 0 (onLane0 set)) ∧
    (let s := link .active (fun l => { l with rxSet := 2, txSet := 3, attempt := some (13, 0) });
      s.dev.fairwayOn = true ∧ s.dev.link.lanes.length = 4 ∧ bit 13 0 = true ∧ (s.dev.link.lane 0).restoreRun < 63) ∧
    (let s := link .active (fun l => { l with rxSet := 1, txSet := 3 });
      s.dev.link.state = .active ∧ s.dev.link.attempt = none ∧ s.dev.link.rxSet ≠ 15 ∧ s.dev.link.txSet = 3) ∧
    (let s := link .active (fun l => { l with rxSet := 14, txSet := 3, attempt := some (1, 0) });
      s.dev.link.attempt = some (1, 0) ∧ (1 : Nat) ≠ 0 ∧ ∀ l ∈ s.dev.link.lanes, l.restoreRun = 0) ∧
    (let s := link .active (fun l => { l with rxSet := 15, txSet := 1 });
      s.dev.link.attempt = none ∧ s.dev.link.rxSet = 15 ∧ s.dev.link.txSet ≠ 3) ∧
    (let s := link .active (fun l => { l with rxSet := 15, txSet := 1 });
      let set := ordered 0xC7 [0, 0, 0, 0, 0, 0, 8, 2, 0, 0, 0, 0, 0];
      s.dev.fairwayOn = true ∧ s.dev.link.validSet 0 0xC7 set = true ∧ bit (setByte set 7) 3 = true ∧ s.dev.link.attempt = none ∧
      Nat.land (setByte set 8 % 4) (3 - s.dev.link.txSet) ≠ 0) ∧
    (let s := link .active (fun l => { l with rxSet := 15, txSet := 1, attempt := some (0, 2) });
      let set := ordered 0xC7 [0, 0, 0, 0, 0, 0, 16, 2, 0, 0, 0, 0, 0];
      s.dev.link.validSet 0 0xC7 set = true ∧ bit (setByte set 7) 4 = true ∧ s.dev.link.attempt = some (0, 2) ∧
      ∀ l ∈ s.dev.link.lanes, l.restoreRun = 0) := ⟨read0, by decide +kernel⟩

theorem crc_ok (ty len b8 : Nat) : crcMatches (frame ty len b8) 0 = true :=
  crcMatches_of _ 0 (by simp only [frameBody, List.length_append, toBe_length, List.length_replicate, List.length_cons, List.length_nil]) (frameCrc_lt _ _)

theorem plain (d : Dev) {ty len b8 : Nat} (hn : numbered (fType (frame ty len b8)) = false)
    (hf : badFormat (frame ty len b8) = false) (he : fEnc (frame ty len b8) = false) : d.checkFrame (frame ty len b8) = .good (fPayload (frame ty len b8)) :=
  Dev.checkFrame_plain d _ hn (crc_ok ty len b8) hf he

/-- A session in a mode. -/
def session (m : Nat) : Dev := { (with_ linked).dev with ses := { (with_ linked).dev.ses with keys := some ⟨[], []⟩, mode := m } }

theorem w_FrameChecksAreOrdered : numbered (fType []) = false ∧ numbered (fType (frame 1 0 0)) = true ∧
    (with_ linked).dev.ses.oldKeys = none ∧ crcMatches ([1] : Bytes) (reconstruct 0 (fSeq [1])) = false ∧
    reconstruct (with_ linked).dev.fw.rxNext (fSeq (frame 1 0 0)) = 0 ∧ 2 ^ 32 ≤ reconstruct (2 ^ 32) (fSeq (frame 1 0 0)) ∧
    (crcMatches ([] : Bytes) 0 = false ∧ badFormat (frame 0 4096 0) = true ∧ badFormat (frame 0 0 0) = false ∧
      fEnc (frame 0 0 0) = false) ∧ crcMatches (frame 1 0 0) 0 = true ∧
    badFormat (frame 1 4096 0) = true ∧ badFormat (frame 1 0 0) = false ∧ (with_ linked).dev.ses.keys = none ∧
    ((session 2).ses.keys = some ⟨[], []⟩ ∧ fEnc (frame 1 0 0) ≠ encFor (session 2).ses.mode (fType (frame 1 0 0))) ∧
    fEnc (frame 1 0 0) = encFor (session 0).ses.mode (fType (frame 1 0 0)) :=
  ⟨by decide +kernel, by decide +kernel, by decide +kernel, by decide +kernel, by decide +kernel, by decide +kernel,
    by decide +kernel, crc_ok _ _ _, by decide +kernel,
    by decide +kernel, by decide +kernel, by decide +kernel, by decide +kernel⟩

/-- That a numbered frame passes rests on the tag, which no test can compute: the cipher is opaque (log 3). -/
theorem w_FramesAreAcceptedOrDiscarded : (with_ linked).dev.rxOn = true ∧ (with_ linked).dev.checkFrame [] = .bad 1 0 ∧
    fType (frame 1 0 0) = 1 ∧ fType (frame 2 32 0) = 2 ∧ fType (frame 0 0 0) = 0 ∧
    (∃ p, (with_ linked).dev.checkFrame (frame 0 0 0) = .good p) ∧
    (with_ linked).dev.link.rxSyms.length < 2076 ∧
    (let s := with_ (fun d => { linked d with link := { (linked d).link with rxSyms := List.replicate 2076 0 } });
      2076 ≤ s.dev.link.rxSyms.length) ∧
    inWindow 8 0 8 = true ∧ inWindow 8 8 8 = false ∧ inWindow 32 31 32 = true ∧ (with_ linked).dev.declared 0 = false :=
  ⟨by decide +kernel, rfl, by decide +kernel, by decide +kernel, by decide +kernel,
    ⟨_, plain _ (by decide +kernel) (by decide +kernel) (by decide +kernel)⟩, by decide, by decide +kernel, by decide, by decide,
    by decide, by decide +kernel⟩

/-- RUN with a session over an ACTIVE link. -/
def talking (f : Dev → Dev) : State := with_ (fun d => f { linked d with ses := { d.ses with keys := some ⟨[], []⟩ } })

theorem w_PacketsAreStaged : (talking id).dev.contentOn = true ∧ State.reset.dev.contentOn = false ∧
    (let body := bytesOf (15 :: List.replicate 8 0);
      body.length = 36 ∧ wordAt body 0 = 15 ∧ State.reset.dev.layerReason 15 (bodyWords body 1 8) = 0) ∧
    (let body := bytesOf (3 :: 1 :: List.replicate 7 0);
      body.length = 36 ∧ wordAt body 0 = 3 ∧ State.reset.dev.layerReason 3 (bodyWords body 1 8) ≠ 0) ∧
    ([] : Bytes).length ≠ 36 ∧
    (let body := bytesOf [1, 0, 0, 0, 0x00100000, 0x00100000, 0, 0];
      body.length = 16 + 16 * 1 ∧ wordAt body 0 = 1 ∧ wordAt body 1 = 0 ∧ wordAt body 2 = 0 ∧ wordAt body 3 = 0 ∧
      boxBad (bodyWords body 4 4) = false) ∧
    (let body := bytesOf [1, 0, 0, 0, 0x0000FFFF + 0xFFF00000, 1, 0, 0];
      body.length = 16 + 16 * 1 ∧ wordAt body 0 = 1 ∧ boxBad (bodyWords body 4 4) = true) ∧
    (let body := bytesOf [0, 0, 0, 0]; body.length = 16 + 56 * 0 ∧ wordAt body 0 = 0) ∧
    (let body := bytesOf ([1, 0, 0, 0] ++ [0, 0, 0x1000, 0, 0x00010001, 65536, 0, 0, 0, 65536, 0, 0, 0, 65536]);
      body.length = 16 + 56 * 1 ∧ wordAt body 0 = 1 ∧ instBad (bodyWords body 4 14) = false ∧ instOut (bodyWords body 4 14) = false ∧
      State.reset.dev.eng.libReady = false) ∧
    (∀ w ∈ [0, 1], let body := bytesOf [w]; body.length = 4 ∧ wordAt body 0 = w) ∧
    (let d := (with_ (fun d => { runs d with cfg := { (runs d).cfg with sects := [(5, bytesOf (0x100 :: List.replicate 32 0))] } })).dev;
      bits 1 1 3 < d.nProg ∧ d.memc.dramLess = false) ∧
    (bytesOf [0, 5]).length = 8 := by decide +kernel

/-- After tick 0 with one commit pending for tick 2. -/
def committed (delay : Nat) : State := talking (fun d => { d with
  frm := { d.frm with commits := [⟨2, [], none, none, none, 0, 2⟩] }, test := { d.test with commitDelay := delay } })

theorem w_CommandsEnterPendingTable :
    (∀ n ∈ [0, 1, 2, 3, 4294967295], Spells (bytesOf [n, 0]) n []) ∧
    (let s := committed 0; s.dev.contentOn = true ∧ s.dev.pwr.mainOn = true ∧ s.dev.test.commitDelay = 0 ∧
      (Lands s.dev 1 1 false ∧ s.dev.frm.holds 1 = false) ∧ (Lands s.dev 0 1 true ∧ s.dev.frm.holds 1 = false) ∧
      TooFar s.dev 4294967295 0 ∧ TooFar s.dev 3 1 ∧ (Lands s.dev 2 2 false ∧ s.dev.frm.holds 2 = true)) ∧
    (let s := talking (fun d => { d with frm := { d.frm with commits := [⟨1, [], none, none, none, 0, 1⟩] } });
      Lands s.dev 0 1 true ∧ s.dev.frm.holds 1 = true) ∧
    (let s := talking (fun d => { d with frm := { d.frm with ticked := false } }); Lands s.dev 0 1 true ∧ Lands s.dev 1 1 false) ∧
    (committed 4).dev.test.commitDelay ≠ 0 ∧
    (let s := period 0 .none; let body := bytesOf [1, 0]; body.length = 8 ∧ wordAt body 0 = 1 ∧ wordAt body 1 = 0 ∧
      s.dev.test.commitDelay = 0 ∧
      ({ s.dev with link := (talking id).dev.link, ses := (talking id).dev.ses } : Dev).contentOn = true ∧
      Lands s.dev 1 1 false ∧ Lands s.dev 0 1 true ∧ TooFar s.dev 3 1 ∧ s.dev.frm.modePend = none ∧ s.dev.modeValid 0 = true ∧
      s.dev.minPl 0 ≤ s.dev.pwr.level.toNat ∧ s.dev.modeValid 3 = false) ∧
    (let x : Delayed := ⟨false, ⟨1, [], none, none, none, 0, 1⟩, 0, 9⟩;
      let y : Delayed := ⟨true, ⟨2, [], none, none, none, 0, 2⟩, 0, 10⟩;
      x.isMode = false ∧ y.isMode = true ∧ x.due < y.due ∧ [y, x] = [y] ++ x :: [] ∧ Lands (committed 0).dev x.commit.target 1 false ∧
      (committed 0).dev.frm.holds 1 = false ∧ Lands (committed 0).dev y.commit.sent 2 false ∧ (committed 0).dev.frm.holds 2 = true) :=
  ⟨by unfold Spells; decide +kernel, by unfold Lands TooFar; decide +kernel, by unfold Lands; decide +kernel,
    by unfold Lands; decide +kernel, by decide, by unfold Lands TooFar; decide +kernel, by unfold Lands; decide +kernel⟩

/-- A linked session with Fairway's books. -/
def books (f : Fw → Fw) : State := with_ (fun d => { linked d with
  fw := f d.fw, ses := { d.ses with keys := some ⟨[], []⟩ }, wit := { d.wit with running := true } })

theorem w_CreditsAndRepliesComplete :
    (let s := books (fun f => { f with held0 := 1 }); s.dev.fairwayOn = true ∧ s.dev.pwr.mainOn = true ∧ 0 < s.dev.fw.held0 ∧ s.dev.test.hold0 ≤ s.dev.fw.kept0) ∧
    (with_ (fun d => { d with test := { d.test with hold0 := 8 } })).dev.fw.kept0 < 8 ∧
    (with_ runs).dev.fairwayOn = false ∧
    (let s := books (fun f => { f with bufs := [(10, { gen := some 7, gotLast := true })] });
      s.dev.fairwayOn = true ∧
      (SMap.get {} s.dev.fw.bufs 10).gen = some 7 ∧ (SMap.get {} s.dev.fw.bufs 10).gotLast = true ∧
      (SMap.get {} s.dev.fw.bufs 10).lost = false ∧ (∀ w ∈ s.dev.fw.writes, w.buf ≠ 10 ∨ w.gen ≠ some 7) ∧
      s.dev.fw.replies.length < 256) ∧
    (let s := books (fun f => { f with replies := [packet 0x85 []] }); s.dev.txOn = true ∧ s.dev.replyReady = true ∧
      (∃ p, s.dev.fw.replies.head? = some p ∧ (overflowPacket s).length + p.length ≤ 2048) ∧ encFor s.dev.ses.mode 4 = false) ∧
    ((books id).dev.replyReady = false ∧ (books id).dev.witnessReady = false) ∧
    (let s := books id;
      let d : Dev := { s.dev with wit := { s.dev.wit with statsDue := true } };
      d.witnessReady = true ∧ d.replyReady = false) ∧
    (let s := books id;
      ∀ w ∈ [{ s.dev.wit with statsDue := true }, { s.dev.wit with late := [(0, [])] }], s.dev.txOn = true ∧ s.dev.link.txSet = 3 ∧
      s.dev.mayNumber = true ∧ ({ s.dev with wit := w } : Dev).witnessWaits = true) ∧
    (let s := books id;
      let d : Dev := { s.dev with comp := { s.dev.comp with content := .host, batches := BitVec.allOnes 88 } };
      d.witnessWaits = true ∧ d.wit.late = [] ∧ d.wit.statsDue = false) := by decide +kernel

/-- A handshake in hand. -/
def shaking : State := with_ (fun d => { linked d with ses := { d.ses with hs := some ⟨[], [], 0, [], 0, [], 0⟩ } })

/-- What a certificate holds and whether a signature is good, no test can compute (log 3). -/
theorem w_SessionEventsComplete : (shaking.dev.ses.hs.isSome = true ∧ shaking.dev.pwr.mainOn = true) ∧
    (∀ b ∈ [1, 3, 6], fField (frame 3 100 b) 8 1 = b ∧ fType (frame 3 100 b) = 3 ∧ fAttempt (frame 3 100 b) = 0) ∧
    (∃ p, (with_ linked).dev.checkFrame (frame 3 100 1) = .good p) ∧ (with_ linked).dev.rxOn = true ∧ (with_ linked).dev.link.txSet ≠ 0 ∧
    (with_ linked).dev.sec.keyOk = false ∧
    (let d := (with_ (fun d => { linked d with
        sec := { d.sec with keyOk := true }, cfg := { (linked d).cfg with verified := 0x4000 } })).dev;
      d.sec.keyOk = true ∧ d.has 14 = true) ∧
    (∃ p, shaking.dev.checkFrame (frame 3 100 6) = .good p) ∧ shaking.dev.ses.hs = some ⟨[], [], 0, [], 0, [], 0⟩ ∧
    (let s := books (fun f => { f with txNext := 0xF0000000 });
      s.dev.txOn = true ∧ s.dev.ses.up = true ∧ s.dev.fw.runsOut = true ∧ s.dev.ses.rekeySent = false ∧ s.dev.ses.hs = none) ∧
    (with_ (fun d => { linked d with ses := { d.ses with rekeySent := true } })).dev.ses.rekeySent = true :=
  ⟨by decide +kernel, by decide +kernel, ⟨_, plain _ (by decide +kernel) (by decide +kernel) (by decide +kernel)⟩, by decide, by decide, by decide,
    by decide,
    ⟨_, plain _ (by decide +kernel) (by decide +kernel) (by decide +kernel)⟩, rfl, by decide, rfl⟩

/-- Messages on their way, in the FIFOs and on the direct path. -/
def keeping (f : Keep → Keep) : State := with_ (fun d => { runs d with keep := f d.keep })
def msg (source kind sev : Nat) : Msg := mkMsg source kind sev 0

/-- A KEEPER_TABLE without entries whose default for severity 1 is every reaction of ISOLATE_PIXEL to STANDALONE. -/
def reacting : State := with_ (fun d => { runs d with
  cfg := { (runs d).cfg with verified := 0x400, sects := [(10, bytesOf [0, 0, 0x1F8, 0, 0])] }
  keep := { d.keep with tableLoaded := true } })

theorem w_KeeperHandlesMessages :
    (let s := keeping (fun k => { k with transit := [msg 0 1 1] }); s.dev.keep.transit = [msg 0 1 1] ∧
      (s.dev.keep.fifos.filter (fun x => x.source == 0)).length < 4) ∧
    (let s := keeping (fun k => { k with transit := [msg 0 1 1], fifos := List.replicate 4 (msg 0 1 1) });
      4 ≤ (s.dev.keep.fifos.filter (fun x => x.source == (msg 0 1 1).source)).length) ∧
    (let s := keeping (fun k => { k with fifos := [msg 0 1 1] }); s.dev.keeperRuns = true ∧
      s.dev.keep.fifos = [msg 0 1 1] ∧ s.dev.keep.direct = [] ∧ s.dev.keep.windows = [] ∧
      bit (s.dev.classify (msg 0 1 1)).react 1 = true ∧ (s.dev.classify (msg 0 1 1)).sev < 3 ∧
      bit (s.dev.classify (msg 0 1 1)).react 9 = false ∧ bit (s.dev.classify (msg 0 1 3)).react 9 = true ∧ s.lat.safe = false) ∧
    (Window.all.covers (msg 0 1 1) = true ∧ ((keeping id).dev.classify (msg 0 1 1)).sev ≠ 3 ∧
      ((keeping id).dev.classify (msg 0 1 1)).hardwired = false) ∧
    (let s := reacting; s.dev.keeperRuns = true ∧ s.dev.keep.direct = [] ∧ s.dev.keep.windows = [] ∧ s.lat.safe = false ∧
      s.dev.keep.dipHeld = false ∧ s.dev.keep.standaloneHeld = false ∧
      (∀ m ∈ [mkMsg 0 0x09 1 5, mkMsg 0 0x0A 1 5, mkMsg 0 0x0B 1 5, mkMsg 0xC2 1 1 0], (s.dev.classify m).react = 0x1F8) ∧
      (bits (mkMsg 0 0x09 1 5).addr.toNat 0 21 = 5 ∧ 5 < nPixels ∧ tileOf 5 = 0 ∧ srcTile 0 = true ∧ (s.dev.pix 5).isolated = false) ∧
      ((({ s.dev with diag := { s.dev.diag with ties := [(5, false)] } } : Dev).partner 5) = some 6) ∧
      (pairOf (mkMsg 0 0x0B 1 5).addr.toNat = some (5, 6, false) ∧ (s.dev.pix 5).cls = 0 ∧ (s.dev.pix 6).cls = 0 ∧
        s.dev.diag.ties.length < 4096) ∧
      (s.dev.isDark 0 = false) ∧
      (s.dev.giveUpTarget (mkMsg 0xC2 1 1 0) = some (.timebase false) ∧ s.dev.chg.is (.timebase false) .active = true ∧
        s.dev.chg.is (unitPartner (.timebase false)) .standby = true ∧
        (s.dev.chg.pair (.timebase false)).third false s.dev.lampMs = false)) ∧
    ((keeping id).dev.keep.tableLoaded = false ∧ (msg 0 1 1).source ≠ 0xFF ∧ (msg 0 1 1).kind ≠ 0x11) ∧
    (let s := keeping (fun k => { k with direct := [msg 0xFF 0x3D 3] }); s.dev.keep.fifos = [] ∧
      s.dev.keep.direct = [msg 0xFF 0x3D 3] ∧ (msg 0xFF 0x3D 3).source = 0xFF ∧ s.lat.safe = false ∧
      s.dev.pwr.keepDomain = true ∧ s.dev.keep.clockLost = false ∧ s.dev.pwr.keepOn = true) := by decide +kernel

/-- The KEEP clock comes back, with work that waits for it, and with a transaction. -/
theorem w_KeeperHandlesMessages_resume :
    (let s := keeping (fun k => { k with clockLost := true }); s.dev.keep.clockLost = true ∧ s.dev.pwr.keepDomain = true ∧
      s.dev.keeperRuns = false ∧ s.dev.test.later = [] ∧ s.dev.mgmt.waiting = [] ∧
      (∀ g ∈ [KeepWork.exclude 5, .tableLoaded, .tableAbandoned], ({ s.dev.test with later := [g] } : Test).later = [g]) ∧
      (s.dev.tile 5).excluded = false) ∧
    (let w : Word := (15 : BitVec 4).setWidth 32;
      let s := keeping (fun k => { k with clockLost := true });
      let op : PortOp := .write 0x0814 w (crcOf s 0x0814 w);
      let s : State := { s with dev := { s.dev with mgmt := { s.dev.mgmt with waiting := [op] } } };
      s.dev.pwr.keepDomain = true ∧ s.dev.keep.clockLost = true ∧ s.dev.test.later = [] ∧ s.dev.mgmt.waiting = [op] ∧
      crcOf s 0x0814 w = s.dev.mgmt.writeCrc 0x0814 w ∧ s.judge 0x0814 true w = 0) := by decide +kernel

/-- A timebase pair in given states. -/
def pair (a b : InstState) (f : Pair → Pair) : State := with_ (fun d => { runs d with chg := { d.chg with tb := f { a := a, b := b } } })

theorem w_LampChangerTakesOver : unitExists (.tileRef 191 true) = true ∧ unitExists (.timebase false) = true ∧
    (let s := pair .active .standby id; s.lat.safe = false ∧ s.dev.selfChecks (.timebase false) = true ∧
      s.dev.pwr.keepDomain = true ∧ 5 ∈ UnitRef.causes (.timebase false) ∧ 4 ∉ UnitRef.causes (.timebase false) ∧ s.dev.chg.is (.timebase false) .active = true ∧
      (s.dev.chg.pair (.timebase false)).third false s.dev.lampMs = false ∧
      s.dev.chg.is (unitPartner (.timebase false)) .standby = true ∧ s.dev.chg.is (.timebase true) .standby = true ∧
      (s.dev.chg.pair (.timebase true)).third true s.dev.lampMs = false) ∧
    (let s := with_ (fun d => { runs d with chg := { d.chg with
        tb := { a := .selftest, b := .active, last := some ⟨0, false, 0x10, true⟩ }, lastSource := 0xC2 } });
      s.dev.selfChecks (.timebase false) = true ∧ s.dev.chg.is (.timebase false) .active = false ∧
      s.dev.gaveUpNow (.timebase false) = some ⟨0, false, 0x10, true⟩ ∧ s.dev.chg.lastSource = unitSource (.timebase false) ∧
      s.dev.chg.lastB = unitB (.timebase false) ∧ (pair .selftest .active id).dev.gaveUpNow (.timebase false) = none ∧
      (keeping (fun k => { k with clockLost := true })).dev.keeperRuns = false ∧ s.dev.keeperRuns = true) ∧
    (let s := pair .active .retired (fun p => { p with gaveA := [0, 0] });
      (s.dev.chg.pair (.timebase false)).third false s.dev.lampMs = true ∧
      s.dev.chg.is (unitPartner (.timebase false)) .retired = true) ∧
    (pair .selftest .active id).dev.chg.is (.timebase false) .selftest = true ∧
    (∀ b ∈ [InstState.standby, .selftest], let s := { safe (fun d => { runs d with chg := { d.chg with refs := [(5, { b := b })] } }) with lat := { safe := true } };
      s.lat.safe = true ∧ unitExists (.tileRef 5 false) = true ∧ unitCentral (.timebase false) = true ∧
      s.dev.selfChecks (.timebase false) = true ∧ s.dev.selfChecks (.tileRef 5 false) = true ∧
      5 ∈ UnitRef.causes (.timebase false) ∧ 5 ∈ UnitRef.causes (.tileRef 5 false) ∧ s.dev.chg.is (.timebase false) .active = true ∧
      s.dev.chg.is (.tileRef 5 false) .active = true ∧ s.dev.chg.is (unitPartner (.tileRef 5 false)) .standby = decide (b = .standby)) ∧
    (let s := pair .resync .active (fun p => { p with point := true });
      s.dev.chg.is (.timebase false) .resync = true ∧ (s.dev.chg.pair (.timebase false)).met (unitB (.timebase false)) = true) := by decide +kernel

/-- The DRAM in service, with its controller. -/
def dram (f : Memc → Memc) : State := with_ (fun d => { sched 1 0 d with memc := f { d.memc with trained := true } })
def request (w : Bool) : Req := ⟨.ledg, 0x37000020, w, List.replicate 32 1, 0⟩

theorem w_LayerMemoryServesRequests : granule 16 = false ∧ granule memTop = false ∧ granule (memTop - 32) = true ∧
    (let s := dram id; (∀ x ∈ s.dev.memc.late, s.dev.now < x.due) ∧ s.dev.dramOn = true ∧ s.dev.memc.credit .ledg ≠ 0 ∧
      s.dev.memc.held = [] ∧ s.dev.requests .ledg false 0x37000020 = true ∧ s.dev.requests .ledg true 0x37000020 = true ∧
      s.dev.requests .fww false 0 = false ∧ s.dev.pwr.mainOn = true ∧ s.dev.chanFree 1 = true ∧ s.dev.memc.chans.length = 2 ∧ s.dev.memc.credits.length = 5 ∧ (s.dev.memc.chan 1).forward 0x37000020 = none ∧
      (s.dev.memc.chan 1).writeQ = [] ∧ (s.dev.bankQueue 1 (s.dev.bankOf 0x37000020)).length < 16 ∧ s.dev.test.compDelay = 0 ∧
      s.dev.test.gainDelay = 0 ∧ (s.dev.memc.chan 0).debt < 8 ∧ s.inBase = true) ∧
    (∀ w, let s := dram (fun m => { m with chans := [{}, { queue := [request w], debt := 8 }] });
      s.dev.pickBank 1 255 = some (s.dev.bankOf 0x37000020) ∧ s.dev.bankQueue 1 (s.dev.bankOf 0x37000020) = [request w] ∧
      (request w).write = w ∧ 8 ≤ (s.dev.memc.chan 1).debt) ∧
    (dram (fun m => { m with chans := [{}, { queue := [request true] }] })).dev.memc.chans.map (fun c => c.forward 0x37000020) =
      [none, some (request true)] ∧
    (let s := books (fun f => { f with writes := [⟨0, 0, [1], 1, true, some 0, 0⟩] });
      s.dev.fairwayOn = true ∧ ∃ w ∈ s.dev.fw.writes, w.data ≠ [] ∧ s.dev.linkRate * 64 < s.dev.fw.vc1Bytes + 32) ∧
    inPark.dev.pwr.mainOn = false ∧
    ((dram (fun m => { m with credits := [64, 16, 0, 32, 8] })).dev.memc.credit .ledg = 0 ∧
      (dram (fun m => { m with chans := [{ refreshUntil := 36 }, {}] })).dev.chanOpen 0 = false) ∧
    (let s := dram (fun m => { m with chans := [{ retrainUntil := 36 }, {}] });
      s.dev.dramOn = true ∧ s.dev.chanOpen 0 = true ∧ s.dev.chanFree 0 = false ∧ 0 < s.dev.watermark .comp ∧
      s.dev.memc.inPanic .comp = false) ∧
    (dram (fun m => { m with reads := 1048576 })).dev.memc.reads = 1048576 ∧ (dram id).dev.memc.reads < 1048576 ∧
    (let s := dram (fun m => { m with copying := true, chans := [{ queue := [⟨.fww, 0, true, [1], 0⟩] }, {}] });
      s.dev.memc.copying = true ∧ s.dev.dramOn = true ∧ s.dev.memc.fromDram [32] ≠ []) := by decide +kernel


/-- R31, R33, R57: code 3 for 5 slots is sampled at the period start; the isolated neighbour stays dark. -/
theorem test_light : (let s : State := { with_ runs with cells := [(0, { active := 0x0C05 }), (1, { active := 0x0C05, isolate := true })] };
    ran (.pwmPeriodStart 0) s (fun t => s.light 0 == (0, 0) && t.light 0 == (3, 5) && t.conducts 0 4 && !t.conducts 0 5 &&
      t.light 1 == (0, 0))) = true := by decide +kernel

/-- R34: with the SAFE latch set a safe cell shows SAFE_CODE without interruption, and a cell without the bit is dark. -/
theorem test_light_safe : (let s : State := { with_ (fun d => { runs d with
      cfg := { (runs d).cfg with verified := 2, sects := [(1, bytesOf [0x701F4])] } }) with
      lat := { safe := true }, cells := [(0, { safe := true, sampled := 0x0C05 }), (1, { sampled := 0x0C05 })] };
    s.light 0 = (7, 1040) ∧ s.light 1 = (0, 0)) := by decide +kernel

end Sys2Proof.Tests
end

/-! ## The checks of a received frame (R214 to R218, R361, R364)

With no previous keys a numbered frame has one numbering at most, so `Dev.checkFrame` is a chain of single checks: one lemma per
check that fails, and one for the tag. -/

namespace Sys2Proof.Machine

/-- Without previous keys a frame has no numbering where its number reaches 2^32 or its CRC fails (R216, R364). -/
theorem Dev.numberings_nil (d : Dev) (f : Bytes) (ho : d.ses.oldKeys = none)
    (h : 2 ^ 32 ≤ reconstruct d.fw.rxNext (fSeq f) ∨ crcMatches f (reconstruct d.fw.rxNext (fSeq f)) = false) :
    d.numberings f = [] := by
  simp only [Dev.numberings, ho, List.filter_eq_nil_iff, List.mem_singleton, forall_eq, Bool.and_eq_true, decide_eq_true_eq]
  rintro ⟨hlt, hc⟩
  rcases h with hge | hbad
  · exact absurd hlt (Nat.not_lt.mpr hge)
  · exact absurd (hc.symm.trans hbad) (by decide)

/-- Without previous keys a number below 2^32 under which the CRC matches is the only numbering, with the keys in force. -/
theorem Dev.numberings_singleton (d : Dev) (f : Bytes) (ho : d.ses.oldKeys = none)
    (hlt : reconstruct d.fw.rxNext (fSeq f) < 2 ^ 32) (hc : crcMatches f (reconstruct d.fw.rxNext (fSeq f)) = true) :
    d.numberings f =
      [(reconstruct d.fw.rxNext (fSeq f), (d.ses.keys.map (·.toUnit)).getD [], d.ses.mode, false)] := by
  simp only [Dev.numberings, ho, List.filter_cons, List.filter_nil, hc, hlt, decide_true, Bool.and_self, if_true]

/-- Step 1 of R218: a numbered frame without a numbering. -/
theorem Dev.checkFrame_unmatched (d : Dev) (f : Bytes) (hn : numbered (fType f) = true) (h : d.numberings f = []) :
    d.checkFrame f = .bad 1 0 := by
  simp only [Dev.checkFrame, hn, if_true, h]

/-- Step 2 of R218. -/
theorem Dev.checkFrame_badFormat (d : Dev) (f : Bytes) (hn : numbered (fType f) = true) (h : d.numberings f ≠ [])
    (hf : badFormat f = true) : d.checkFrame f = .bad 2 0 := by
  obtain ⟨n, ns, h⟩ := List.exists_cons_of_ne_nil h
  simp only [Dev.checkFrame, hn, if_true, h, hf]

/-- Step 3 of R218. -/
theorem Dev.checkFrame_noSession (d : Dev) (f : Bytes) (hn : numbered (fType f) = true) (h : d.numberings f ≠ [])
    (hf : badFormat f = false) (hk : d.ses.keys = none) : d.checkFrame f = .bad 3 0 := by
  obtain ⟨n, ns, h⟩ := List.exists_cons_of_ne_nil h
  simp [Dev.checkFrame, hn, h, hf, Ses.up, hk]

/-- Step 4 of R218, ENC first: a frame whose one numbering has a mode that gives its type the other encryption (R361). -/
theorem Dev.checkFrame_badEnc (d : Dev) (f key : Bytes) (n mode : Nat) (old : Bool) (hn : numbered (fType f) = true)
    (h : d.numberings f = [(n, key, mode, old)]) (hf : badFormat f = false) (hup : d.ses.up = true)
    (he : fEnc f ≠ encFor mode (fType f)) : d.checkFrame f = .bad 4 n := by
  simp [Dev.checkFrame, hn, h, hf, hup, he, Checked.clear]

/-- Step 4 of R218, then the tag: what opening a frame of one numbering yields is checked for the rest of its payload (R212). -/
theorem Dev.checkFrame_opened (d : Dev) (f key : Bytes) (n mode : Nat) (old : Bool) (hn : numbered (fType f) = true)
    (h : d.numberings f = [(n, key, mode, old)]) (hf : badFormat f = false) (hup : d.ses.up = true)
    (he : fEnc f = encFor mode (fType f)) :
    d.checkFrame f = (((openFrame key n f).map (Checked.numberedGood · old n)).getD (.bad 4 n)).clear f := by
  cases ho : openFrame key n f <;> simp [Dev.checkFrame, hn, h, hf, hup, he, ho]

/-- The checks of an unnumbered frame are those of its CRC under fold word 0, of its format and of ENC (R214, R218, R361). -/
theorem Dev.checkFrame_unnumbered (d : Dev) (f : Bytes) (hn : numbered (fType f) = false) :
    d.checkFrame f = if crcMatches f 0 = false then .bad 1 0 else if badFormat f = true then .bad 2 0
      else if fEnc f = true then .bad 4 0 else .good (fPayload f) := by
  simp [Dev.checkFrame, hn]

end Sys2Proof.Machine

namespace Sys2Proof.Proofs

open Sys2Proof Sys2Proof.Machine Sys2Proof.Claims

/-- Settles O52: without previous keys a numbered frame has at most one numbering, so each clause is the lemma of its check. -/
theorem frameChecksAreOrdered : Obligations.FrameChecksAreOrdered := by
  unfold Obligations.FrameChecksAreOrdered
  refine ⟨fun d f hn ho hge => d.checkFrame_unmatched f hn (d.numberings_nil f ho (.inl hge)),
    fun d f hn => ⟨fun hc => ?_, fun hc hf => ?_, fun hc hf he => ?_, d.checkFrame_plain f hn⟩,
    fun d f k hn ho hlt => ⟨fun hc => d.checkFrame_unmatched f hn (d.numberings_nil f ho (.inr hc)), ?_⟩⟩
  · simp [d.checkFrame_unnumbered f hn, hc]
  · simp [d.checkFrame_unnumbered f hn, hc, hf]
  · simp [d.checkFrame_unnumbered f hn, hc, hf, he]
  have one := d.numberings_singleton f ho hlt
  have matched : crcMatches f (reconstruct d.fw.rxNext (fSeq f)) = true → d.numberings f ≠ [] :=
    fun hc => (one hc).trans_ne (List.cons_ne_nil _ _)
  refine ⟨fun hc => d.checkFrame_badFormat f hn (matched hc), fun hc hf hk => d.checkFrame_noSession f hn (matched hc) hf hk,
    fun hc hf hk he => ?_, fun hc hf hk he => ?_⟩
  · exact d.checkFrame_badEnc f _ _ _ _ hn (one hc) hf (by rw [Ses.up, hk]; rfl) he
  · rw [d.checkFrame_opened f _ _ _ _ hn (one hc) hf (by rw [Ses.up, hk]; rfl) he]
    simp only [hk, Option.map_some, Option.getD_some]
    cases openFrame k.toUnit (reconstruct d.fw.rxNext (fSeq f)) f <;> rfl

end Sys2Proof.Proofs

/-! ## Security commands (R7, R354, R366 to R370, R373) -/

namespace Sys2Proof.Machine

/-- The data of a SEC_AUTH write are CMD in its low bits and KEY in the second byte. -/
theorem authWord_eq (cmd : Nat) (key : Byte) (h : cmd ≤ 5) : authWord cmd key = BitVec.ofNat 32 (cmd + 256 * key.toNat) := by
  have hk : key.toNat < 256 := key.isLt
  simp only [authWord, pack, packNat]
  congr 1
  omega

theorem bits_authWord_cmd (cmd : Nat) (key : Byte) (h : cmd ≤ 5) : bits (authWord cmd key).toNat 0 3 = cmd := by
  have hk : key.toNat < 256 := key.isLt
  rw [authWord_eq cmd key h, BitVec.toNat_ofNat, bits]
  omega

theorem bits_authWord_key (cmd : Nat) (key : Byte) (h : cmd ≤ 5) : bits (authWord cmd key).toNat 8 8 = key.toNat := by
  have hk : key.toNat < 256 := key.isLt
  rw [authWord_eq cmd key h, BitVec.toNat_ofNat, bits]
  omega

/-- A write of SEC_AUTH is the security command of its fields (R373). -/
theorem State.writeReg_secAuth (s : State) (cmd : Nat) (key : Byte) (h : cmd ≤ 5) :
    s.writeReg 0x7050 (authWord cmd key) = s.secCommand cmd key.toNat := by
  conv_rhs => rw [← bits_authWord_cmd cmd key h, ← bits_authWord_key cmd key h]
  rfl

/-- While the engine is busy a command is stored and leaves result BUSY (R368). -/
theorem State.secCommand_busy (s : State) (cmd key : Nat) (h1 : 1 ≤ cmd) (h5 : cmd ≤ 5) (hb : s.dev.sec.busy = true) :
    s.secCommand cmd key = s.onDev (fun d => d.onSec (fun x => { x with cmd := cmd, key := key, result := 6 })) := by
  rw [State.secCommand, if_neg (by omega), if_pos hb]

/-- An idle engine starts the command, with copies of what it works on (R366, R370). -/
theorem State.secCommand_idle (s : State) (cmd key : Nat) (h1 : 1 ≤ cmd) (h5 : cmd ≤ 5) (hb : s.dev.sec.busy = false) :
    s.secCommand cmd key = s.onDev (fun d => d.onSec (fun x => { x with
      cmd := cmd, key := key
      job := some { cmd := cmd, key := key, resp := x.resp, block := if cmd = 5 then s.statusBlock else [] }
      sstat := if cmd = 5 then s.statusBlock else x.sstat })) := by
  rw [State.secCommand, if_neg (by omega), if_neg (by simp [hb])]
  by_cases h : cmd = 5 <;> simp only [h, if_true, if_false]

theorem Sec.busy_iff (x : Sec) : x.busy = true ↔ x.job.isSome = true ∨ x.fusing = true := by
  rw [Sec.busy, Bool.or_eq_true]

theorem Sec.busy_of_idle (x : Sec) (hj : x.job = none) (hf : x.fusing = false) : x.busy = false := by
  rw [Sec.busy, hj, hf]; rfl

end Sys2Proof.Machine

namespace Sys2Proof.Proofs

open Sys2Proof Sys2Proof.Machine Sys2Proof.Claims

/-- An accepted write of SEC_AUTH is recorded by the port, and the engine takes the command. -/
theorem portWrite_secAuth (s : State) (cmd : Nat) (key crc : Byte) (h : cmd ≤ 5)
    (hw : WriteOk s 0x7050 (authWord cmd key) crc) :
    s.portWrite 0x7050 (authWord cmd key) crc = (written s 0x7050).secCommand cmd key.toNat := by
  obtain ⟨hon, hholds, hcrc, hjudge⟩ := hw
  rw [State.portWrite_ok s _ _ _ hon hholds hcrc hjudge]
  exact State.writeReg_secAuth _ cmd key h

/-- The command `c` is a write of SEC_AUTH with CMD `n` and KEY `key` (R354, R366, R367, R370). -/
def WritesSecAuth (c : Instr) (n : Nat) (key crc : Byte) : Prop :=
  (n = 1 ∧ c = .unlockService key crc) ∨ (n = 2 ∧ c = .unlockMaker key crc) ∨ (n = 3 ∧ key = 0 ∧ c = .unlockVendor crc) ∨
    (n = 4 ∧ key = 0 ∧ c = .claim crc) ∨ (n = 5 ∧ key = 0 ∧ c = .signStatus crc)

theorem WritesSecAuth.cmd_range {c : Instr} {n : Nat} {key crc : Byte} (h : WritesSecAuth c n key crc) : 1 ≤ n ∧ n ≤ 5 := by
  unfold WritesSecAuth at h
  omega

theorem WritesSecAuth.exec_eq {c : Instr} {n : Nat} {key crc : Byte} (h : WritesSecAuth c n key crc) (s : State) :
    exec c s = .next (s.portWrite 0x7050 (authWord n key) crc) := by
  obtain ⟨rfl, rfl⟩ | ⟨rfl, rfl⟩ | ⟨rfl, rfl, rfl⟩ | ⟨rfl, rfl, rfl⟩ | ⟨rfl, rfl, rfl⟩ := h <;> rfl

/-- Settles O29: the command is an accepted write of SEC_AUTH, which an idle engine starts and a busy one discards. -/
theorem securityCommandsStart : Obligations.SecurityCommandsStart := by
  unfold Obligations.SecurityCommandsStart
  intro s n key crc c hc hw
  have hc : WritesSecAuth c n key crc := hc
  obtain ⟨h1, h5⟩ := hc.cmd_range
  have hexec : exec c s = .next ((written s 0x7050).secCommand n key.toNat) := by
    rw [hc.exec_eq s, portWrite_secAuth s n key crc h5 (by rwa [authWord_eq n key h5])]
  refine ⟨fun hj hf => ⟨_, hexec, ?_⟩, fun hb => ⟨_, hexec, ?_⟩⟩
  · exact State.secCommand_idle (written s 0x7050) n key.toNat h1 h5 (Sec.busy_of_idle _ hj hf)
  · exact State.secCommand_busy (written s 0x7050) n key.toNat h1 h5 ((Sec.busy_iff _).mpr hb)

end Sys2Proof.Proofs

namespace Sys2Proof.Machine

/-! ## Passes that start (R36, R37, R41, R51, R52) -/

theorem pixelOnChain_inj (t k : Nat) {i j : Nat} (h : pixelOnChain t k i = pixelOnChain t k j) : i = j := by
  simp only [pixelOnChain, pixelAt, pixelIdx] at h
  omega

/-- The positions of a chain are different pixels (R36). -/
theorem pixelOnChain_nodup (t k n : Nat) : ((List.range n).map (pixelOnChain t k)).Nodup :=
  List.Nodup.map (fun _ _ h => pixelOnChain_inj t k h) List.nodup_range

theorem Cell.captured_captured (c : Cell) : c.captured.captured = c.captured := rfl

/-- What starting passes can reach: the chains and what counts their headers, and the status that a capture takes from a cell. -/
structure OnlyPasses (s t : State) : Prop where
  stores : t.pending = s.pending ∧ t.otp = s.otp ∧ t.mem = s.mem ∧ t.lat = s.lat
  cells : ∀ q, t.cell q = s.cell q ∨ t.cell q = (s.cell q).captured
  dev : t.dev = { s.dev with arr := t.dev.arr, tiles := t.dev.tiles, evt := t.dev.evt, keep := t.dev.keep, diag := t.dev.diag }

namespace OnlyPasses

theorem refl (s : State) : OnlyPasses s s := ⟨⟨rfl, rfl, rfl, rfl⟩, fun _ => .inl rfl, rfl⟩

theorem trans {a b c : State} (h : OnlyPasses a b) (h' : OnlyPasses b c) : OnlyPasses a c := by
  obtain ⟨⟨p, o, m, l⟩, hc, hd⟩ := h
  obtain ⟨⟨p', o', m', l'⟩, hc', hd'⟩ := h'
  refine ⟨⟨p'.trans p, o'.trans o, m'.trans m, l'.trans l⟩, fun q => ?_, by rw [hd', hd]⟩
  rcases hc' q with e' | e' <;> rcases hc q with e | e
  · exact .inl (e'.trans e)
  · exact .inr (e'.trans e)
  · exact .inr (by rw [e', e])
  · exact .inr (by rw [e', e, Cell.captured_captured])

theorem foldl {α : Type} (f : State → α → State) (hf : ∀ s x, OnlyPasses s (f s x)) :
    ∀ (xs : List α) (s : State), OnlyPasses s (xs.foldl f s)
  | [], s => refl s
  | x :: xs, s => (hf s x).trans (foldl f hf xs (f s x))

/-- A change of the chains and what counts their headers. -/
theorem onDev (s : State) (f : Dev → Dev)
    (h : f s.dev = { s.dev with
      arr := (f s.dev).arr, tiles := (f s.dev).tiles, evt := (f s.dev).evt, keep := (f s.dev).keep, diag := (f s.dev).diag }) :
    OnlyPasses s (s.onDev f) :=
  ⟨⟨rfl, rfl, rfl, rfl⟩, fun _ => .inl rfl, h⟩

theorem refusePass (s : State) (t k : Nat) : OnlyPasses s (s.onDev (fun d => d.refusePass t k)) := onDev s _ rfl

theorem voidReadback (s : State) (t : Nat) : OnlyPasses s (s.onDev (fun d => d.voidReadback t)) := onDev s _ rfl

theorem startPass (s : State) (t k : Nat) (pu : Purpose) (data : List (BitVec 16)) (flip : BitVec 20) :
    OnlyPasses s (s.startPass t k pu data flip) := by
  unfold State.startPass
  dsimp only
  split
  · exact refl s
  split
  · split
    · exact (refusePass s t k).trans (voidReadback _ t)
    · exact refusePass s t k
  · refine ⟨⟨rfl, rfl, rfl, rfl⟩, fun q => ?_, rfl⟩
    simp only [State.cell, SMap.get_updAll _ _ _ _ _ (pixelOnChain_nodup t k chainLen)]
    split
    · exact .inr rfl
    · exact .inl rfl

theorem startReads (s : State) (t : Nat) (hdr : List HdrErr) : OnlyPasses s (s.startReads t hdr) :=
  (onDev s (fun d => d.onTile t (fun x => { x with reads := [none, none, none, none] })) rfl).trans
    (foldl _ (fun s k => startPass s t k ..) _ _)

theorem readPasses (s : State) (t : Nat) (hdr : List HdrErr) : OnlyPasses s (s.readPasses t hdr) := by
  unfold State.readPasses
  dsimp only
  split
  · exact (startReads s t hdr).trans (startReads _ t [])
  · exact startReads s t hdr

theorem safePasses (s : State) (t : Nat) (hdr : List HdrErr) : OnlyPasses s (s.safePasses t hdr) := by
  have starts := foldl (fun s k => s.startPass t k .safe (s.dev.safeData t k) (hdrFlip hdr t k))
    (fun s k => startPass s t k ..) (List.range 4) s
  unfold State.safePasses
  dsimp only
  split
  · exact starts.trans (readPasses _ t [])
  · exact starts

theorem cfg {s t : State} (h : OnlyPasses s t) : t.dev.cfg = s.dev.cfg := by rw [h.dev]

end OnlyPasses

/-! ## The loader: what ends a slot, and what a section does (R21, R393 to R396, R405) -/

/-- A checkpoint that waited begins in the ledger's own block (R434). -/
theorem Dev.busFreed_frame (d : Dev) : d.busFreed = { d with ledg := d.busFreed.ledg } := by
  unfold Dev.busFreed
  split
  · split <;> rfl
  · rfl

@[simp] theorem Dev.busFreed_cfg (d : Dev) : d.busFreed.cfg = d.cfg := by rw [d.busFreed_frame]

@[simp] theorem Dev.busFreed_keep (d : Dev) : d.busFreed.keep = d.keep := by rw [d.busFreed_frame]

theorem Dev.noImage_keeps_transit (d : Dev) {m : Msg} (h : m ∈ d.keep.transit) : m ∈ d.noImage.keep.transit := by
  simp [Dev.noImage, h]

theorem Dev.reportInvalid_keeps_transit (d : Dev) (sec why : Nat) {m : Msg} (h : m ∈ d.keep.transit) :
    m ∈ (d.reportInvalid sec why).keep.transit := by
  simp [Dev.reportInvalid, h]

theorem Dev.reportInvalid_sends (d : Dev) (sec why : Nat) :
    mkMsg 0xC9 0x36 1 (b1 d.cfg.slotB * 2 ^ 24 + sec * 256 + why) ∈ (d.reportInvalid sec why).keep.transit := by
  simp [Dev.reportInvalid]

theorem Dev.trySlots_keeps_transit {m : Msg} : ∀ (n : Nat) (d : Dev), m ∈ d.keep.transit → m ∈ (d.trySlots n).keep.transit
  | 0, d, h => d.noImage_keeps_transit h
  | n + 1, d, h => by
    unfold Dev.trySlots
    dsimp only
    split
    · exact d.noImage_keeps_transit h
    · split
      · exact h
      · exact Dev.trySlots_keeps_transit n _ (Dev.reportInvalid_keeps_transit _ _ _ h)

theorem Dev.endSession_keeps_transit (d : Dev) {m : Msg} (h : m ∈ d.keep.transit) : m ∈ d.endSession.keep.transit := by
  unfold Dev.endSession Dev.witnessStop
  dsimp only
  split <;> simp [h]

/-- What is on its way to the Keeper stays so when a slot is abandoned (R394). -/
theorem State.abandonSlot_keeps_transit (s : State) {m : Msg} (h : m ∈ s.dev.keep.transit) :
    m ∈ s.abandonSlot.dev.keep.transit := by
  have he := s.dev.endSession_keeps_transit h
  simp only [State.abandonSlot]
  split
  · exact he
  · exact he

/-- The configuration block keeps what is verified and the sections in force. -/
structure KeepsSections (d d' : Dev) : Prop where
  verified : d'.cfg.verified = d.cfg.verified
  sects : d'.cfg.sects = d.cfg.sects

namespace KeepsSections

theorem of_cfg {d d' : Dev} (h : d'.cfg = d.cfg) : KeepsSections d d' := ⟨by rw [h], by rw [h]⟩

theorem trans {a b c : Dev} (h : KeepsSections a b) (h' : KeepsSections b c) : KeepsSections a c :=
  ⟨h'.verified.trans h.verified, h'.sects.trans h.sects⟩

theorem loadDone (d : Dev) : KeepsSections d d.loadDone := by
  constructor <;> simp [Dev.loadDone]

theorem skipSymbols (d : Dev) : KeepsSections d d.skipSymbols := by
  unfold Dev.skipSymbols
  split
  · exact ⟨(loadDone _).verified, (loadDone _).sects⟩
  · exact of_cfg rfl

end KeepsSections

theorem Dev.foldl_raiseIf_cfg (p : Nat → Bool) (k : Nat) :
    ∀ (ns : List Nat) (d : Dev), (ns.foldl (fun d n => d.raiseIf (p n) k) d).cfg = d.cfg
  | [], _ => rfl
  | n :: ns, d => (Dev.foldl_raiseIf_cfg p k ns (d.raiseIf (p n) k)).trans (d.raiseIf_cfg (p n) k)

theorem Dev.dropSprites_cfg (d : Dev) : d.dropSprites.cfg = d.cfg := Dev.foldl_raiseIf_cfg ..

theorem KeepsSections.symbolsInForce (d : Dev) :
    KeepsSections d (d.onEng (fun e => { e with libReady := true })).dropSprites.loadDone := by
  have library : KeepsSections d (d.onEng (fun e => { e with libReady := true })) := of_cfg rfl
  exact (library.trans (of_cfg (Dev.dropSprites_cfg _))).trans (loadDone _)

/-- A section that takes effect takes back no section (R21, R393). -/
theorem State.takeEffect_keepsSections (s : State) (id : Nat) (p : Bytes) (hdr : List HdrErr) :
    (s.takeEffect id p hdr).otp = s.otp ∧ KeepsSections s.dev (s.takeEffect id p hdr).dev := by
  unfold State.takeEffect
  split
  · have starts := OnlyPasses.foldl (fun s t => if s.dev.isDark t then s else s.safePasses t hdr)
      (fun s t => by split; exacts [OnlyPasses.refl s, OnlyPasses.safePasses s t hdr]) (List.range 192) s
    obtain ⟨-, otp, -⟩ := starts.stores
    exact ⟨otp, .of_cfg starts.cfg⟩
  · exact ⟨rfl, .of_cfg rfl⟩
  · exact ⟨rfl, .of_cfg rfl⟩
  · exact ⟨rfl, .of_cfg rfl⟩
  · split
    · exact ⟨rfl, .of_cfg rfl⟩
    · exact ⟨rfl, .of_cfg rfl⟩
  · refine ⟨rfl, .of_cfg ?_⟩
    rw [State.onDev_dev]
    split <;> rfl
  · have written : KeepsSections s.dev (s.writeMem 0x34000000 (p.drop (16 + 16 * bits (wordAt p 0) 0 13))).dev := .of_cfg rfl
    exact ⟨rfl, written.trans (.symbolsInForce _)⟩
  · exact ⟨rfl, ⟨rfl, rfl⟩⟩
  · exact ⟨rfl, .of_cfg rfl⟩

theorem Cfg.loading_lt (c : Cfg) {id : Nat} (h : c.loading = some id) : id < 16 := by
  unfold Cfg.loading at h
  split at h
  · have hmem : id ∈ loadOrder := List.mem_of_getElem? h
    revert hmem
    simp only [loadOrder, List.mem_cons, List.not_mem_nil, or_false]
    omega
  · cases h

theorem Cfg.loadNext_sections (c : Cfg) : c.loadNext.verified = c.verified ∧ c.loadNext.sects = c.sects := by
  unfold Cfg.loadNext
  split <;> exact ⟨rfl, rfl⟩

/-- A section placed counts as verified, with the part that the store keeps (R21). -/
theorem Dev.place_has (d : Dev) (id : Nat) (p : Bytes) (h : id < 16) : (d.place id p).has id = true := by
  have hone : ((1#16) <<< id).getLsbD id = true := by simp [h]
  simp [Dev.place, Dev.has, hone]

theorem Dev.place_sect (d : Dev) (id : Nat) (p : Bytes) : (d.place id p).sect id = keptPart id p := by
  simp [Dev.place, Dev.sect, SMap.get_set]

theorem KeepsSections.inForce {d d' : Dev} (h : KeepsSections d d') (id : Nat) :
    d'.has id = d.has id ∧ d'.sect id = d.sect id :=
  ⟨congrArg (·.getLsbD id) h.verified, congrArg (SMap.get [] · id) h.sects⟩

/-- A section with the hash of the directory, decrypted, that passes its load check is in force (R21, R356, R358, R393). -/
theorem State.sectionVerified_inForce (s : State) (id : Nat) (stored p : Bytes) (hdr : List HdrErr) (hid : id < 16)
    (hh : Config.sha256 stored = dirHash s.dev.cfg.head id) (hp : s.sectionPlain id stored = some p)
    (hc : (s.dev.place id p).contentOk id p = true) :
    (s.sectionVerified id stored hdr).otp = s.otp ∧ (s.sectionVerified id stored hdr).dev.has id = true ∧
      (s.sectionVerified id stored hdr).dev.sect id = keptPart id p := by
  simp only [State.sectionVerified, hh, hp, hc, ne_eq, not_true_eq_false, if_false, if_true]
  obtain ⟨otp, took⟩ := State.takeEffect_keepsSections
    { s with dev := (s.dev.place id p).onCfg (fun c => { c.loadNext with tries := 0 }) } id p hdr
  obtain ⟨nextVerified, nextSects⟩ := (s.dev.place id p).cfg.loadNext_sections
  have next : KeepsSections (s.dev.place id p) ((s.dev.place id p).onCfg (fun c => { c.loadNext with tries := 0 })) :=
    ⟨nextVerified, nextSects⟩
  obtain ⟨has, sect⟩ := ((next.trans took).trans (KeepsSections.skipSymbols _)).inForce id
  exact ⟨otp, has.trans (s.dev.place_has id p hid), sect.trans (s.dev.place_sect id p)⟩

theorem State.sectionVerified_badHash (s : State) (id : Nat) (stored : Bytes) (hdr : List HdrErr)
    (hh : Config.sha256 stored ≠ dirHash s.dev.cfg.head id) : s.sectionVerified id stored hdr = s.sectionInvalid id 6 :=
  if_pos hh

theorem State.sectionVerified_closed (s : State) (id : Nat) (stored : Bytes) (hdr : List HdrErr)
    (hh : Config.sha256 stored = dirHash s.dev.cfg.head id) (hp : s.sectionPlain id stored = none) :
    s.sectionVerified id stored hdr = s.sectionInvalid id 7 := by
  simp only [State.sectionVerified, hh, hp, ne_eq, not_true_eq_false, if_false]

/-- A section that fails its load check is invalid, and what SCHEDULE's check found is recorded (R494). -/
theorem State.sectionVerified_badContent (s : State) (id : Nat) (stored p : Bytes) (hdr : List HdrErr)
    (hh : Config.sha256 stored = dirHash s.dev.cfg.head id) (hp : s.sectionPlain id stored = some p)
    (hc : (s.dev.place id p).contentOk id p ≠ true) :
    ∃ f, s.sectionVerified id stored hdr = (s.onDev (fun d => d.onFrm f)).sectionInvalid id 8 := by
  refine ⟨fun f => { f with schedErr :=
    (if id = 2 ∧ s.dev.frm.schedErr.1 = 0 then (s.dev.place id p).schedError else none).getD f.schedErr }, ?_⟩
  simp only [State.sectionVerified, hh, hp, if_neg hc, ne_eq, not_true_eq_false, if_false]

end Sys2Proof.Machine

namespace Sys2Proof.Proofs

open Sys2Proof Sys2Proof.Machine Sys2Proof.Claims

theorem invalidMsg_eq (s : State) (sec why : Nat) :
    invalidMsg s sec why = mkMsg 0xC9 0x36 1 (b1 s.dev.cfg.slotB * 2 ^ 24 + sec * 256 + why) := by
  unfold invalidMsg b1
  split <;> simp

/-- A slot that is invalid before tick 0 reports it, whether the slot is then abandoned or not (R394, R399, R405). -/
theorem slotInvalid_reports (s : State) (sec why : Nat) :
    (s.slotInvalid sec why).otp = s.otp ∧ invalidMsg s sec why ∈ (s.slotInvalid sec why).dev.keep.transit := by
  have sent := s.dev.reportInvalid_sends sec why
  rw [← invalidMsg_eq] at sent
  unfold State.slotInvalid
  dsimp only
  split
  · exact ⟨rfl, by simpa using sent⟩
  · exact ⟨rfl, Dev.trySlots_keeps_transit 2 _ (State.abandonSlot_keeps_transit _ sent)⟩

theorem symbolsFail_reports (s : State) (why : Nat) : invalidMsg s 12 why ∈ (s.dev.symbolsFail why).keep.transit := by
  rw [invalidMsg_eq]
  simp [Dev.symbolsFail]

/-- An invalid section is reported with its reason, SYMBOLS too, after which its slot stays in force (R394, R396, R405). -/
theorem sectionInvalid_reports (s : State) (id why : Nat) :
    (s.sectionInvalid id why).otp = s.otp ∧ invalidMsg s id why ∈ (s.sectionInvalid id why).dev.keep.transit := by
  unfold State.sectionInvalid
  split
  · next h => exact ⟨rfl, h ▸ symbolsFail_reports s why⟩
  · exact slotInvalid_reports s id why

/-- The loader's skip of SYMBOLS ends it and reports nothing (R396). -/
theorem skipSymbols_eq (d : Dev) (hl : d.cfg.loading = some 12) (hm : d.memc.dramLess = true) :
    d.skipSymbols = { d with cfg := symbolsSkipped d, ledg := d.skipSymbols.ledg } := by
  simp only [Dev.skipSymbols, hl, hm, beq_self_eq_true, Bool.and_self, if_true, Dev.loadDone]
  rw [Dev.busFreed_frame]
  rfl

/-- Settles O14: the loader's own branches, each the lemma of what it reports or puts in force. -/
theorem sectionTakesEffectOrIsInvalid : Obligations.SectionTakesEffectOrIsInvalid := by
  unfold Obligations.SectionTakesEffectOrIsInvalid
  refine ⟨fun s stored hdr hon hl hm => ?_, fun s id stored hdr hon hl h0 hskip hlen => ?_⟩
  · refine ⟨s.onDev Dev.skipSymbols, ?_, ⟨rfl, rfl, rfl, rfl, rfl⟩, skipSymbols_eq s.dev hl hm⟩
    simp [exec, execSectionVerified, hon, hl, hm]
  · have run : exec (.sectionVerified stored hdr) s = .next (s.sectionVerified id stored hdr) := by
      simp only [exec, execSectionVerified, hl]
      rw [if_neg (by simp [hon, h0]), if_neg (by simpa using hskip), if_neg (not_not.mpr hlen)]
    refine ⟨_, run, ?_⟩
    by_cases hh : Config.sha256 stored = dirHash s.dev.cfg.head id
    · cases hp : s.sectionPlain id stored with
      | none =>
        rw [s.sectionVerified_closed id stored hdr hh hp]
        obtain ⟨otp, sent⟩ := sectionInvalid_reports s id 7
        exact ⟨otp, fun h => absurd hh h, fun _ => sent⟩
      | some p =>
        by_cases hc : (s.dev.place id p).contentOk id p = true
        · obtain ⟨otp, force⟩ := s.sectionVerified_inForce id stored p hdr (s.dev.cfg.loading_lt hl) hh hp hc
          exact ⟨otp, fun h => absurd hh h, fun _ => (if_pos hc).mpr force⟩
        · obtain ⟨f, e⟩ := s.sectionVerified_badContent id stored p hdr hh hp hc
          obtain ⟨otp, sent⟩ := sectionInvalid_reports (s.onDev (fun d => d.onFrm f)) id 8
          rw [e]
          exact ⟨otp, fun h => absurd hh h, fun _ => (if_neg hc).mpr sent⟩
    · rw [s.sectionVerified_badHash id stored hdr hh]
      obtain ⟨otp, sent⟩ := sectionInvalid_reports s id 6
      exact ⟨otp, fun _ => sent, fun h => absurd h hh⟩

end Sys2Proof.Proofs

/-! ## The lamp changer (R326 to R334) -/

namespace Sys2Proof.Machine

/-- A saturating count is the lesser of its end and the count by one. -/
theorem satInc_eq_min (mx n : Nat) : satInc mx n = Nat.min mx (n + 1) := by
  unfold satInc satAdd
  split
  · next h => exact (Nat.min_eq_right h).symm
  · next h => exact (Nat.min_eq_left (by omega)).symm

theorem Evt.raise_self (e : Evt) (n : Nat) (h : reservedEvent n = false) : (e.raise n).pend.getLsbD n = true := by
  simp [Evt.raise_pend, h]

@[simp] theorem Pair.inst_record (p : Pair) (b c : Bool) (ms : Nat) : (p.record b ms).inst c = p.inst c := by
  cases b <;> rfl

@[simp] theorem Pair.third_setInst (p : Pair) (b c : Bool) (st : InstState) (ms : Nat) :
    (p.setInst b st).third c ms = p.third c ms := by
  cases b <;> cases c <;> rfl

@[simp] theorem Pair.inst_setPoint (p : Pair) (b c v : Bool) : (p.setPoint b v).inst c = p.inst c := by
  cases b <;> rfl

@[simp] theorem Pair.met_setInst (p : Pair) (b c : Bool) (st : InstState) : (p.setInst b st).met c = p.met c := by
  cases b <;> rfl

@[simp] theorem Pair.met_setPoint_other (p : Pair) (b v : Bool) : (p.setPoint b v).met (!b) = p.met (!b) := by
  cases b <;> rfl

/-- The partner of a unit is the other one of the same pair. -/
theorem Chg.is_partner (c : Chg) (u : UnitRef) (st : InstState) :
    c.is (unitPartner u) st = ((c.pair u).inst (!unitB u) == st) := by
  rw [Chg.is, Chg.pair_partner, unitB_partner]

/-- What pair a unit belongs to decides what a change of a pair does to it: the whole change, or nothing. -/
theorem Chg.pair_onPair_cases (c : Chg) (u v : UnitRef) (f : Pair → Pair) :
    (c.onPair u f).pair v = f (c.pair v) ∨ (c.onPair u f).pair v = c.pair v := by
  cases u with
  | engine b =>
    cases v with
    | engine _ => exact .inl rfl
    | _ => exact .inr rfl
  | timebase b =>
    cases v with
    | timebase _ => exact .inl rfl
    | _ => exact .inr rfl
  | tileRef t b =>
    cases v with
    | tileRef x b' =>
      simp only [Chg.onPair, Chg.pair, SMap.get_upd]
      split
      · next h => exact .inl (h ▸ rfl)
      · exact .inr rfl
    | _ => exact .inr rfl

/-- A change of a pair that leaves both states alone leaves every state alone. -/
theorem Chg.is_onPair_of_inst (c : Chg) (u v : UnitRef) (f : Pair → Pair) (st : InstState)
    (h : ∀ p b, (f p).inst b = p.inst b) : (c.onPair u f).is v st = c.is v st := by
  rcases c.pair_onPair_cases u v f with e | e
  · rw [Chg.is, e, h, Chg.is]
  · rw [Chg.is, e, Chg.is]

/-- The changer's own marks are no part of a pair. -/
theorem Chg.pair_congr {c c' : Chg} (u : UnitRef) (he : c'.eng = c.eng) (ht : c'.tb = c.tb) (hr : c'.refs = c.refs) :
    c'.pair u = c.pair u := by
  cases u
  · exact he
  · exact ht
  · exact congrArg (SMap.get {} · _) hr

theorem Chg.onPair_last (c : Chg) (u : UnitRef) (f : Pair → Pair) :
    (c.onPair u f).lastCause = c.lastCause ∧ (c.onPair u f).lastSource = c.lastSource ∧ (c.onPair u f).lastB = c.lastB := by
  cases u <;> exact ⟨rfl, rfl, rfl⟩

theorem Chg.recordLast_pair (c : Chg) (u v : UnitRef) (cause tick : Nat) (failed : Bool) :
    (c.recordLast u cause tick failed).pair v = c.pair v := Chg.pair_congr v rfl rfl rfl

/-- Counting a takeover changes no state and no record of the last give-up (R337). -/
theorem Chg.countTakeover_spec (c : Chg) (u : UnitRef) : (∀ b, ((c.countTakeover u).pair u).inst b = (c.pair u).inst b) ∧
    (c.countTakeover u).lastCause = c.lastCause ∧ (c.countTakeover u).lastSource = c.lastSource := by
  have h := c.pair_onPair u (fun p => { p with takeovers := satInc 255 p.takeovers })
  cases u <;> exact ⟨fun b => congrArg (·.inst b) h, rfl, rfl⟩

/-! ### Leaving service (R328, R333) -/

theorem Dev.countGiveUp_third (d : Dev) (u : UnitRef) (h : (d.chg.pair u).third (unitB u) d.lampMs = true) :
    d.countGiveUp u = ((d.onChg (fun c => c.onPair u (fun p => (p.record (unitB u) d.lampMs).setInst (unitB u) .retired))).sendDirect
      (unitSource u) 0x13 1 0).raise 101 := by
  simp only [Dev.countGiveUp, h, if_true]

theorem Dev.countGiveUp_counts (d : Dev) (u : UnitRef) (h : (d.chg.pair u).third (unitB u) d.lampMs = false) :
    d.countGiveUp u = d.onChg (fun c => c.onPair u (fun p => p.record (unitB u) d.lampMs)) := by
  simp only [Dev.countGiveUp, h, Bool.false_eq_true, if_false]

/-- A unit whose give-up is no drill, before it is counted: it is in SELFTEST. -/
def Dev.toSelftest (d : Dev) (u : UnitRef) : Dev := d.onChg (fun c => c.onPair u (fun p => p.setInst (unitB u) .selftest))

theorem Dev.leaveService_eq (d : Dev) (u : UnitRef) (cause : Nat) (h : cause ≠ 0x11) :
    d.leaveService u cause = (d.toSelftest u).countGiveUp u := if_neg h

theorem Dev.toSelftest_pair (d : Dev) (u : UnitRef) :
    (d.toSelftest u).chg.pair u = (d.chg.pair u).setInst (unitB u) .selftest := Chg.pair_onPair ..

theorem Dev.toSelftest_third (d : Dev) (u : UnitRef) :
    ((d.toSelftest u).chg.pair u).third (unitB u) (d.toSelftest u).lampMs = (d.chg.pair u).third (unitB u) d.lampMs := by
  rw [Dev.toSelftest_pair, Pair.third_setInst]
  rfl

/-- What leaving service does (R328, R333): SELFTEST, or RETIRED at the third give-up within 3,600 s, which is sent. -/
structure LeftService (d d' : Dev) (u : UnitRef) (third : Bool) : Prop where
  own : (d'.chg.pair u).inst (unitB u) = if third then .retired else .selftest
  other : (d'.chg.pair u).inst (!unitB u) = (d.chg.pair u).inst (!unitB u)
  cause : d'.chg.lastCause = d.chg.lastCause
  source : d'.chg.lastSource = d.chg.lastSource
  direct : d'.keep.direct = d.keep.direct ++ if third then [mkMsg (unitSource u) 0x13 1 0] else []
  evt : d'.evt = if third then d.evt.raise 101 else d.evt
  dev : third = false → d' = { d with chg := d'.chg }

theorem Dev.leaveService_spec (d : Dev) (u : UnitRef) (cause : Nat) (h : cause ≠ 0x11) :
    LeftService d (d.leaveService u cause) u ((d.chg.pair u).third (unitB u) d.lampMs) := by
  have ht := d.toSelftest_third u
  obtain ⟨cause1, source1, -⟩ := d.chg.onPair_last u (fun p => p.setInst (unitB u) .selftest)
  rw [d.leaveService_eq u cause h]
  cases third : (d.chg.pair u).third (unitB u) d.lampMs with
  | true =>
    rw [Dev.countGiveUp_third _ u (ht.trans third)]
    obtain ⟨cause2, source2, -⟩ := (d.toSelftest u).chg.onPair_last u
      (fun p => (p.record (unitB u) (d.toSelftest u).lampMs).setInst (unitB u) .retired)
    refine ⟨?_, ?_, cause2.trans cause1, source2.trans source1, rfl, rfl, nofun⟩
    · simp [Chg.pair_onPair, Pair.inst_setInst]
    · simp [Chg.pair_onPair, Pair.inst_setInst_other, Dev.toSelftest_pair]
  | false =>
    rw [Dev.countGiveUp_counts _ u (ht.trans third)]
    obtain ⟨cause2, source2, -⟩ := (d.toSelftest u).chg.onPair_last u (fun p => p.record (unitB u) (d.toSelftest u).lampMs)
    refine ⟨?_, ?_, cause2.trans cause1, source2.trans source1, (List.append_nil _).symm, rfl, fun _ => rfl⟩
    · simp [Chg.pair_onPair, Pair.inst_setInst, Dev.toSelftest_pair]
    · simp [Chg.pair_onPair, Pair.inst_setInst_other, Dev.toSelftest_pair]

/-! ### Takeover (R329 to R331) -/

/-- What a takeover leaves alone: what is on its way to the Keeper, the changer but for its mark of a rebuild, pending events. -/
structure KeepsChanger (d d' : Dev) : Prop where
  keep : d'.keep = d.keep
  chg : d'.chg = { d.chg with rebuilding := d'.chg.rebuilding }
  pend : ∀ k, d.evt.pend.getLsbD k = true → d'.evt.pend.getLsbD k = true

theorem Dev.abandonPasses_frame (d : Dev) : d.abandonPasses.keep = d.keep ∧ d.abandonPasses.chg = d.chg ∧ d.abandonPasses.evt = d.evt := by
  unfold Dev.abandonPasses
  dsimp only
  generalize hd : d.onArr (fun a => a.drop (fun _ => true)) = d'
  have same : d'.keep = d.keep ∧ d'.chg = d.chg ∧ d'.evt = d.evt := by subst hd; exact ⟨rfl, rfl, rfl⟩
  clear hd
  generalize d.arr.passes = ps
  induction ps generalizing d' with
  | nil => exact same
  | cons p ps ih => exact ih _ same

theorem Dev.clearDrive_frame (d : Dev) : d.clearDrive.keep = d.keep ∧ d.clearDrive.chg = d.chg ∧ d.clearDrive.evt = d.evt :=
  ⟨d.onTiles_keep _, d.onTiles_chg _, d.onTiles_evt _⟩

theorem KeepsChanger.engineTakeover (d : Dev) (b : Bool) : KeepsChanger d (d.engineTakeover b) := by
  unfold Dev.engineTakeover
  split
  · exact ⟨rfl, rfl, fun _ h => h⟩
  · obtain ⟨keep, chg, evt⟩ := d.clearDrive.abandonPasses_frame
    obtain ⟨keep', chg', evt'⟩ := d.clearDrive_frame
    refine ⟨?_, ?_, fun k hk => Evt.raise_keeps _ _ _ (Evt.raise_keeps _ _ _ ?_)⟩
    · simp only [Dev.raise_keep, Dev.onChg_keep, Dev.onWit_keep, Dev.onFrm_keep, Dev.onComp_keep, keep, keep']
    · simp only [Dev.raise_chg, Dev.onChg_chg, Dev.onWit_chg, Dev.onFrm_chg, Dev.onComp_chg, chg, chg']
    · simp only [Dev.onChg_evt, Dev.onWit_evt, Dev.onFrm_evt, Dev.onComp_evt, evt, evt']
      exact hk

theorem KeepsChanger.takeover (d : Dev) (u : UnitRef) : KeepsChanger d (d.takeover u) := by
  cases u with
  | engine b => exact .engineTakeover d (!b)
  | timebase b => exact ⟨rfl, rfl, fun _ h => h⟩
  | tileRef t b => exact ⟨rfl, rfl, fun k hk => Evt.raise_keeps _ _ _ hk⟩

theorem KeepsChanger.pair {d d' : Dev} (h : KeepsChanger d d') (u : UnitRef) : d'.chg.pair u = d.chg.pair u :=
  Chg.pair_congr u (by rw [h.chg]) (by rw [h.chg]) (by rw [h.chg])

theorem Dev.disturb_frame (d : Dev) (u : UnitRef) : d.disturb u = { d with cal := (d.disturb u).cal } := by cases u <;> rfl

/-! ### Give-up (R327, R328, R334) -/

theorem own_of_mem_causes {u : UnitRef} {cause : Nat} (h : cause ∈ u.causes) : cause ≠ 0x10 ∧ cause ≠ 0x11 := by
  cases u <;> simp only [UnitRef.causes, List.mem_cons, List.not_mem_nil, or_false] at h <;> omega

/-- A give-up as it is recorded and sent, before the unit leaves service (R328, R337). -/
def Dev.giveUpRecorded (d : Dev) (u : UnitRef) (cause : Nat) (ok : Bool) : Dev :=
  let d := d.onChg (fun c => c.recordLast u cause d.frm.tick (!ok))
  let d := (d.sendGiveUp u cause).disturb u
  d.onChg (fun c => c.onPair u (fun p => { p with last := some { at_ := d.now, b := unitB u, cause := cause, ok := ok } }))

/-- What recording a give-up does, to the states of the pair nothing. -/
structure Recorded (d d' : Dev) (u : UnitRef) (cause : Nat) : Prop where
  inst : ∀ b, (d'.chg.pair u).inst b = (d.chg.pair u).inst b
  third : (d'.chg.pair u).third (unitB u) d'.lampMs = (d.chg.pair u).third (unitB u) d.lampMs
  lastCause : d'.chg.lastCause = cause
  lastSource : d'.chg.lastSource = unitSource u
  direct : d'.keep.direct = d.keep.direct ++ [mkMsg (unitSource u) 0x10 2 cause]

theorem Dev.giveUpRecorded_spec (d : Dev) (u : UnitRef) (cause : Nat) (ok : Bool) :
    Recorded d (d.giveUpRecorded u cause ok) u cause := by
  cases u with
  | engine b => exact ⟨fun _ => rfl, rfl, rfl, rfl, rfl⟩
  | timebase b => exact ⟨fun _ => rfl, rfl, rfl, rfl, rfl⟩
  | tileRef t b =>
    have pair : ((d.giveUpRecorded (.tileRef t b) cause ok).chg.pair (.tileRef t b)) =
        { d.chg.pair (.tileRef t b) with last := some { at_ := d.now, b := b, cause := cause, ok := ok } } :=
      (d.chg.recordLast (.tileRef t b) cause d.frm.tick (!ok)).pair_onPair (.tileRef t b)
        (fun p => { p with last := some { at_ := d.now, b := b, cause := cause, ok := ok } })
    exact ⟨fun _ => by rw [pair]; rfl, by rw [pair]; rfl, rfl, rfl, rfl⟩

/-- The give-up of an active unit up to where a partner takes over or none does (R328, R333, R337). -/
def Dev.outOfService (d : Dev) (u : UnitRef) (cause : Nat) (ok : Bool) : Dev :=
  (d.giveUpRecorded u cause ok).leaveService u cause

theorem Dev.giveUp_takenOver (d : Dev) (safe : Bool) (u : UnitRef) (cause : Nat) (hu : unitExists u = true)
    (ha : d.chg.is u .active = true) (hs : (safe && unitCentral u) = false) (ok : d.chg.is (unitPartner u) .standby = true) :
    d.giveUp safe u cause = (((d.outOfService u cause true).onChg (fun c =>
      (c.onPair u (fun p => p.setInst (!unitB u) .active)).countTakeover u)).raise 96).takeover u := by
  simp only [Dev.giveUp, hu, ha, hs, ok, Bool.not_true, Bool.false_eq_true, if_false, if_true, Dev.outOfService, Dev.giveUpRecorded]

/-- While SAFE is asserted, which keeps the Keeper from darkening it, the tile of a lost reference is clamped off (R334). -/
def Dev.clampWhenSafe (d : Dev) (safe : Bool) : UnitRef → Dev
  | .tileRef t _ => if safe then d.clampTile t else d
  | _ => d

theorem Dev.giveUp_alone (d : Dev) (safe : Bool) (u : UnitRef) (cause : Nat) (hu : unitExists u = true)
    (ha : d.chg.is u .active = true) (hs : (safe && unitCentral u) = false) (ok : d.chg.is (unitPartner u) .standby = false) :
    d.giveUp safe u cause = (((d.outOfService u cause false).sendDirect (unitSource u) 0x11
      (if unitCentral u then 3 else 1) 0).raise 97).clampWhenSafe safe u := by
  simp only [Dev.giveUp, hu, ha, hs, ok, Bool.not_true, Bool.false_eq_true, if_false, Dev.outOfService, Dev.giveUpRecorded]
  cases u <;> rfl

/-- What a give-up leaves, whether or not a partner takes over. -/
structure GivenUp (d d' : Dev) (u : UnitRef) (cause : Nat) : Prop where
  own : (d'.chg.pair u).inst (unitB u) = if (d.chg.pair u).third (unitB u) d.lampMs then .retired else .selftest
  lastCause : d'.chg.lastCause = cause
  lastSource : d'.chg.lastSource = unitSource u
  sent : mkMsg (unitSource u) 0x10 2 cause ∈ d'.keep.direct
  retires : (d.chg.pair u).third (unitB u) d.lampMs = true →
    d'.evt.pend.getLsbD 101 = true ∧ mkMsg (unitSource u) 0x13 1 0 ∈ d'.keep.direct

theorem Dev.outOfService_spec (d : Dev) (u : UnitRef) (cause : Nat) (ok : Bool) (h : cause ≠ 0x11) :
    GivenUp d (d.outOfService u cause ok) u cause ∧
      ((d.outOfService u cause ok).chg.pair u).inst (!unitB u) = (d.chg.pair u).inst (!unitB u) := by
  have rec_ := d.giveUpRecorded_spec u cause ok
  have left := (d.giveUpRecorded u cause ok).leaveService_spec u cause h
  rw [rec_.third] at left
  refine ⟨⟨left.own, left.cause.trans rec_.lastCause, left.source.trans rec_.lastSource, ?_, fun third => ⟨?_, ?_⟩⟩,
    left.other.trans (rec_.inst _)⟩
  · simp [Dev.outOfService, left.direct, rec_.direct]
  · rw [Dev.outOfService, left.evt, third, if_pos rfl]
    exact Evt.raise_self _ _ rfl
  · simp [Dev.outOfService, left.direct, third]

/-- A give-up stands through what leaves the pair's own unit, the record of the last give-up, the direct path and the pending
events alone. -/
theorem GivenUp.through {d x y : Dev} {u : UnitRef} {cause : Nat} (h : GivenUp d x u cause)
    (own : (y.chg.pair u).inst (unitB u) = (x.chg.pair u).inst (unitB u)) (lastCause : y.chg.lastCause = x.chg.lastCause)
    (lastSource : y.chg.lastSource = x.chg.lastSource) (direct : ∀ m ∈ x.keep.direct, m ∈ y.keep.direct)
    (pend : ∀ k, x.evt.pend.getLsbD k = true → y.evt.pend.getLsbD k = true) : GivenUp d y u cause where
  own := own.trans h.own
  lastCause := lastCause.trans h.lastCause
  lastSource := lastSource.trans h.lastSource
  sent := direct _ h.sent
  retires third := ⟨pend _ (h.retires third).1, direct _ (h.retires third).2⟩

/-- A standby partner takes over (R328). -/
theorem Dev.giveUp_of_standby (d : Dev) (safe : Bool) (u : UnitRef) (cause : Nat) (hu : unitExists u = true)
    (ha : d.chg.is u .active = true) (hs : (safe && unitCentral u) = false) (hc : cause ≠ 0x11)
    (ok : d.chg.is (unitPartner u) .standby = true) :
    GivenUp d (d.giveUp safe u cause) u cause ∧ (d.giveUp safe u cause).chg.is (unitPartner u) .active = true ∧
      (d.giveUp safe u cause).evt.pend.getLsbD 96 = true := by
  rw [d.giveUp_takenOver safe u cause hu ha hs ok]
  obtain ⟨given, -⟩ := d.outOfService_spec u cause true hc
  generalize d.outOfService u cause true = x at given ⊢
  obtain ⟨inst, lastCause, lastSource⟩ := (x.chg.onPair u (fun p => p.setInst (!unitB u) .active)).countTakeover_spec u
  obtain ⟨cause1, source1, -⟩ := x.chg.onPair_last u (fun p => p.setInst (!unitB u) .active)
  generalize hy : (x.onChg (fun c => (c.onPair u (fun p => p.setInst (!unitB u) .active)).countTakeover u)).raise 96 = y
  have took := KeepsChanger.takeover y u
  have yinst : ∀ b, ((y.takeover u).chg.pair u).inst b = ((x.chg.pair u).setInst (!unitB u) .active).inst b := by
    intro b
    rw [took.pair, ← hy, ← x.chg.pair_onPair u (fun p => p.setInst (!unitB u) .active)]
    exact inst b
  refine ⟨given.through ?_ ?_ ?_ ?_ ?_, ?_, ?_⟩
  · rw [yinst]
    simpa using (x.chg.pair u).inst_setInst_other (!unitB u) .active
  · rw [took.chg, ← hy]; exact lastCause.trans cause1
  · rw [took.chg, ← hy]; exact lastSource.trans source1
  · rw [took.keep, ← hy]; exact fun _ h => h
  · exact fun k hk => took.pend k (by rw [← hy]; exact Evt.raise_keeps _ _ _ hk)
  · rw [Chg.is_partner, yinst, Pair.inst_setInst]; rfl
  · exact took.pend 96 (by rw [← hy]; exact Evt.raise_self _ _ rfl)

/-! ### A tile becomes dark (R306, R334) -/

theorem Dev.tile_onTile (d : Dev) (t x : Nat) (f : Tile → Tile) :
    (d.onTile t f).tile x = if x = t then f (d.tile t) else d.tile x := SMap.get_upd ..

@[simp] theorem Dev.tile_raise (d : Dev) (n t : Nat) : (d.raise n).tile t = d.tile t := rfl

theorem Dev.roundCheck_frame (d : Dev) : d.roundCheck = { d with arr := d.roundCheck.arr } := by
  unfold Dev.roundCheck
  split <;> rfl

theorem KeepsChanger.trans {a b c : Dev} (h : KeepsChanger a b) (h' : KeepsChanger b c) : KeepsChanger a c :=
  ⟨h'.keep.trans h.keep, by rw [h'.chg, h.chg], fun k hk => h'.pend k (h.pend k hk)⟩

theorem KeepsChanger.exclude (d : Dev) (t : Nat) : KeepsChanger d (d.exclude t) := by
  unfold Dev.exclude
  split
  · exact ⟨rfl, rfl, fun _ h => h⟩
  · exact ⟨rfl, rfl, fun k hk => Evt.raise_keeps _ _ _ hk⟩

/-- Joining the exclusion mask does so, and changes nothing else of the tile (R319). -/
theorem Dev.exclude_tile (d : Dev) (t : Nat) : (d.exclude t).tile t = { d.tile t with excluded := true } := by
  unfold Dev.exclude
  split
  · next h => rw [← h]
  · rw [Dev.tile_raise, Dev.tile_onTile, if_pos rfl]

theorem KeepsChanger.darken (d : Dev) (t : Nat) : KeepsChanger d (d.darken t) := by
  unfold Dev.darken
  split
  · exact ⟨rfl, rfl, fun _ h => h⟩
  · dsimp only
    rw [Dev.roundCheck_frame]
    have excluded := KeepsChanger.exclude ((d.stopPasses t).onTile t
      (fun x => { x with dark := true, repeated := false, readDue := 0, isoDue := 0, trimDue := 0 })) t
    exact ⟨excluded.keep, excluded.chg, fun k hk => Evt.raise_keeps _ _ _ (excluded.pend k hk)⟩

theorem Dev.darken_dark (d : Dev) (t : Nat) : ((d.darken t).tile t).dark = true := by
  unfold Dev.darken
  split
  · assumption
  · dsimp only
    rw [Dev.roundCheck_frame]
    refine (congrArg Tile.dark (Dev.exclude_tile _ t)).trans ?_
    rw [Dev.tile_onTile, if_pos rfl]

/-- Without a standby the give-up fails (R334): TAKEOVER_FAIL, and while SAFE is asserted the tile of the reference is dark. -/
theorem Dev.giveUp_of_no_standby (d : Dev) (safe : Bool) (u : UnitRef) (cause : Nat) (hu : unitExists u = true)
    (ha : d.chg.is u .active = true) (hs : (safe && unitCentral u) = false) (hc : cause ≠ 0x11)
    (ok : d.chg.is (unitPartner u) .standby = false) :
    GivenUp d (d.giveUp safe u cause) u cause ∧
      (∀ st, (d.giveUp safe u cause).chg.is (unitPartner u) st = d.chg.is (unitPartner u) st) ∧
      (d.giveUp safe u cause).evt.pend.getLsbD 97 = true ∧
      mkMsg (unitSource u) 0x11 (if unitCentral u then 3 else 1) 0 ∈ (d.giveUp safe u cause).keep.direct ∧
      (∀ t b, u = .tileRef t b → safe = true → ((d.giveUp safe u cause).tile t).dark = true) := by
  rw [d.giveUp_alone safe u cause hu ha hs ok]
  obtain ⟨given, other⟩ := d.outOfService_spec u cause false hc
  generalize d.outOfService u cause false = x at given other ⊢
  generalize hy : (x.sendDirect (unitSource u) 0x11 (if unitCentral u then 3 else 1) 0).raise 97 = y
  have ychg : y.chg = x.chg := by rw [← hy]; rfl
  have sent : mkMsg (unitSource u) 0x11 (if unitCentral u then 3 else 1) 0 ∈ y.keep.direct := by rw [← hy]; simp
  have failed : y.evt.pend.getLsbD 97 = true := by rw [← hy]; exact Evt.raise_self _ _ rfl
  have stands : GivenUp d y u cause := by
    refine given.through (by rw [ychg]) (by rw [ychg]) (by rw [ychg]) ?_ ?_
    · rw [← hy]; exact fun m hm => by simp [hm]
    · rw [← hy]; exact fun k hk => Evt.raise_keeps _ _ _ hk
  have same : ∀ st, y.chg.is (unitPartner u) st = d.chg.is (unitPartner u) st := fun st => by
    rw [Chg.is_partner, Chg.is_partner, ychg, other]
  clear hy ychg given other
  cases u with
  | engine b => exact ⟨stands, same, failed, sent, nofun⟩
  | timebase b => exact ⟨stands, same, failed, sent, nofun⟩
  | tileRef t b =>
    cases safe with
    | false => exact ⟨stands, same, failed, sent, nofun⟩
    | true =>
      have run : y.clampWhenSafe true (.tileRef t b) = y.clampTile t := rfl
      have dark := KeepsChanger.darken y t
      have pair : (y.clampTile t).chg.pair (.tileRef t b) = y.chg.pair (.tileRef t b) := dark.pair (.tileRef t b)
      have keep : (y.clampTile t).keep = y.keep := dark.keep
      rw [run]
      refine ⟨stands.through (by rw [pair]) ?_ ?_ (by rw [keep]; exact fun _ h => h) dark.pend, fun st => ?_, dark.pend 97 failed,
        by rw [keep]; exact sent, fun t' b' h _ => ?_⟩
      · show (y.darken t).chg.lastCause = _
        rw [dark.chg]
      · show (y.darken t).chg.lastSource = _
        rw [dark.chg]
      · rw [← same st, Chg.is_partner, Chg.is_partner, pair]
      · cases h
        exact y.darken_dark t

/-- While SAFE is asserted the give-up of an engine or a timebase is logged and nothing more (R334). -/
theorem Dev.giveUp_safe_central (d : Dev) (u : UnitRef) (cause : Nat) (hu : unitExists u = true)
    (ha : d.chg.is u .active = true) (hs : unitCentral u = true) :
    d.giveUp true u cause = (d.onChg (fun c => c.recordLast u cause d.frm.tick false)).sendGiveUp u cause := by
  simp only [Dev.giveUp, hu, ha, hs, Bool.not_true, Bool.false_eq_true, if_false, Bool.and_self, if_true]

theorem Dev.giveUp_inactive (d : Dev) (safe : Bool) (u : UnitRef) (cause : Nat) (hu : unitExists u = true)
    (ha : d.chg.is u .active = false) : d.giveUp safe u cause = d.giveUpAgain u cause := by
  simp only [Dev.giveUp, hu, ha, Bool.not_true, Bool.false_eq_true, Bool.not_false, if_false, if_true]

/-- The give-up of this KEEP cycle that was the Keeper's is recorded under the cause of the unit instead (R334). -/
theorem Dev.giveUpAgain_ofKeeper (d : Dev) (u : UnitRef) (cause : Nat) (g : GaveUp) (hc : cause ∈ u.causes)
    (hg : d.gaveUpNow u = some g) (hb : g.b = unitB u) (hk : g.cause = 0x10) (hs : d.chg.lastSource = unitSource u)
    (hl : d.chg.lastB = unitB u) :
    d.giveUpAgain u cause = (d.onKeep (fun k => { k with direct := k.direct.map (fun m =>
        if m = mkMsg (unitSource u) 0x10 2 0x10 then mkMsg (unitSource u) 0x10 2 cause else m) })).onChg (fun c =>
      { c.onPair u (fun p => { p with last := some { g with cause := cause } }) with lastCause := cause }) := by
  obtain ⟨h10, h11⟩ := own_of_mem_causes hc
  have rank : causeRank g.cause < causeRank cause := by simp [causeRank, hk, h10, h11]
  have last : (d.chg.lastSource == unitSource u && d.chg.lastB == unitB u) = true := by simp [hs, hl]
  simp only [Dev.giveUpAgain, hg]
  rw [if_pos (by simp [hb, rank]), if_neg (by simp [hk])]
  simp only [Dev.onChg, Dev.onKeep, last, if_true, hk]

end Sys2Proof.Machine

namespace Sys2Proof.Proofs

open Sys2Proof Sys2Proof.Machine Sys2Proof.Claims

/-- Raising events that are not reserved makes exactly them newly pending (R450, R451). -/
theorem raises_of_evt {s t : State} : ∀ {ns : List Nat}, (∀ n ∈ ns, reservedEvent n = false) →
    t.dev.evt = ns.foldl Evt.raise s.dev.evt → Raises s t ns := by
  have fold : ∀ (ns : List Nat) (e : Evt), (∀ n ∈ ns, reservedEvent n = false) → (ns.foldl Evt.raise e).en = e.en ∧
      ∀ n, (ns.foldl Evt.raise e).pend.getLsbD n = (e.pend.getLsbD n || ns.contains n) := by
    intro ns
    induction ns with
    | nil => exact fun e _ => ⟨rfl, fun n => (Bool.or_false _).symm⟩
    | cons k ns ih =>
      intro e hns
      obtain ⟨en, pend⟩ := ih (e.raise k) (fun n hn => hns n (List.mem_cons_of_mem _ hn))
      refine ⟨en.trans (e.raise_en k), fun n => (pend n).trans ?_⟩
      rw [Evt.raise_pend, hns k List.mem_cons_self, List.contains_cons, Bool.or_assoc, Bool.not_false, Bool.and_true]
      rfl
  intro ns hns he
  rw [Raises, he]
  exact fold ns _ hns

/-- A self-check of the unit with one of its causes reaches the lamp changer (R16, R327). -/
theorem exec_giveUp (s : State) (u : UnitRef) (cause : Nat) (hc : s.dev.selfChecks u = true) (hm : cause ∈ u.causes) :
    exec (.giveUp u cause) s = .next (s.onDev (fun d => d.giveUp s.lat.safe u cause)) := by
  simp only [exec, execGiveUp, State.onDev, hc, List.contains_iff_mem.mpr hm, Bool.and_self, if_true]

theorem exec_giveUp_unheard (s : State) (u : UnitRef) (cause : Nat) (h : s.dev.selfChecks u = false ∨ cause ∉ u.causes) :
    exec (.giveUp u cause) s = .next s := by
  have hn : ¬ (s.dev.selfChecks u = true ∧ cause ∈ u.causes) := by simpa [imp_iff_not_or] using h
  simp [exec, execGiveUp, State.onDev, hn]

theorem selfChecks_false (d : Dev) (u : UnitRef) (h : d.keeperRuns = false) : d.selfChecks u = false := by
  rw [Dev.selfChecks, h, Bool.false_and]

/-- A unit that is not active, and whose pair has not given up in this KEEP cycle, does not give up (R328, R334). -/
theorem exec_giveUp_inactive (s : State) (u : UnitRef) (cause : Nat) (hu : unitExists u = true)
    (ha : s.dev.chg.is u .active = false) (hg : s.dev.gaveUpNow u = none) : exec (.giveUp u cause) s = .next s := by
  by_cases h : s.dev.selfChecks u = true ∧ cause ∈ u.causes
  · obtain ⟨hc, hm⟩ := h
    rw [exec_giveUp s u cause hc hm, State.onDev, Dev.giveUp_inactive _ _ u cause hu ha, Dev.giveUpAgain, hg]
  · refine exec_giveUp_unheard s u cause ?_
    rw [← Bool.not_eq_true]
    exact not_and_or.mp h

/-- Without its clock the lamp changer does nothing (R16). -/
theorem changer_stands (s : State) (u : UnitRef) (h : s.dev.keeperRuns = false) :
    (∀ cause, exec (.giveUp u cause) s = .next s) ∧ exec (.standbyParityFault u) s = .next s ∧
      exec (.selftestPass u) s = .next s ∧ (∀ test, exec (.selftestFail u test) s = .next s) ∧ exec (.resync u) s = .next s := by
  refine ⟨fun cause => exec_giveUp_unheard s u cause (.inl (selfChecks_false _ u h)), ?_, ?_, fun test => ?_, ?_⟩
  · simp [exec, execStandbyParityFault, State.onDev, selfChecks_false _ u h]
  · simp [exec, execSelftestPass, State.onDev, h]
  · simp [exec, execSelftestFail, State.onDev, h]
  · simp [exec, execResync, State.onDev, h]

theorem is_not_of_is {c : Chg} {u : UnitRef} {st st' : InstState} (h : c.is u st = true) (hne : st ≠ st') :
    c.is u st' = false := by
  rw [Chg.is, beq_iff_eq] at h
  rw [Chg.is, h]
  simpa using hne

/-- The states of a pair after one unit of it was changed (R326). -/
theorem is_onPair_setInst (c : Chg) (u : UnitRef) (f : Pair → Pair) (st : InstState)
    (h : ∀ p b, (f p).inst b = (p.setInst (unitB u) st).inst b) :
    (c.onPair u f).is u st = true ∧ ∀ st', (c.onPair u f).is (unitPartner u) st' = c.is (unitPartner u) st' := by
  constructor
  · rw [Chg.is, Chg.pair_onPair, h, Pair.inst_setInst]
    exact beq_self_eq_true st
  · intro st'
    rw [Chg.is_partner, Chg.is_partner, Chg.pair_onPair, h, Pair.inst_setInst_other]

/-- A give-up that the lamp changer carries out (R328, R333, R334). -/
theorem giveUp_clause (s : State) (u : UnitRef) (cause : Nat) (hu : unitExists u = true) (hc : s.dev.selfChecks u = true)
    (hm : cause ∈ u.causes) (hsafe : s.lat.safe = false) (ha : s.dev.chg.is u .active = true) :
    Next (.giveUp u cause) s (fun t => SameStore s t ∧
      mkMsg (unitSource u) 0x10 2 cause ∈ t.dev.keep.direct ∧ t.dev.chg.lastCause = cause ∧ t.dev.chg.lastSource = unitSource u ∧
      ((s.dev.chg.pair u).third (unitB u) s.dev.lampMs = false → t.dev.chg.is u .selftest = true) ∧
      ((s.dev.chg.pair u).third (unitB u) s.dev.lampMs = true → t.dev.chg.is u .retired = true ∧ Pends t 101 ∧
        mkMsg (unitSource u) 0x13 1 0 ∈ t.dev.keep.direct) ∧
      (s.dev.chg.is (unitPartner u) .standby = true → t.dev.chg.is (unitPartner u) .active = true ∧ Pends t 96) ∧
      (∀ st, st ≠ .standby → s.dev.chg.is (unitPartner u) st = true → t.dev.chg.is (unitPartner u) st = true ∧ Pends t 97 ∧
        mkMsg (unitSource u) 0x11 (if unitCentral u then 3 else 1) 0 ∈ t.dev.keep.direct)) := by
  obtain ⟨-, drill⟩ := own_of_mem_causes hm
  have hs : (s.lat.safe && unitCentral u) = false := by rw [hsafe, Bool.false_and]
  refine ⟨_, exec_giveUp s u cause hc hm, ⟨rfl, rfl, rfl, rfl, rfl⟩, ?_⟩
  have own : GivenUp s.dev (s.dev.giveUp s.lat.safe u cause) u cause := by
    cases ok : s.dev.chg.is (unitPartner u) .standby with
    | true => exact (s.dev.giveUp_of_standby _ u cause hu ha hs drill ok).1
    | false => exact (s.dev.giveUp_of_no_standby _ u cause hu ha hs drill ok).1
  refine ⟨own.sent, own.lastCause, own.lastSource, fun third => ?_, fun third => ⟨?_, own.retires third⟩, fun ok => ?_, fun st hst at_ => ?_⟩
  · rw [State.onDev_dev, Chg.is, own.own, third]; rfl
  · rw [State.onDev_dev, Chg.is, own.own, third]; rfl
  · exact (s.dev.giveUp_of_standby _ u cause hu ha hs drill ok).2
  · obtain ⟨-, same, failed, sent, -⟩ := s.dev.giveUp_of_no_standby _ u cause hu ha hs drill (is_not_of_is at_ hst)
    exact ⟨(same st).trans at_, failed, sent⟩

/-- Settles O59: each clause is the lemma of what the lamp changer does with that command. -/
theorem lampChangerTakesOver : Obligations.LampChangerTakesOver := by
  unfold Obligations.LampChangerTakesOver
  intro s u hu
  refine ⟨fun cause => exec_giveUp_unheard s u cause, changer_stands s u, fun cause => exec_giveUp_inactive s u cause hu,
    fun cause g hc hm ha hg hb hk hsrc hlast => ?_, fun cause hc hm hsafe => giveUp_clause s u cause hu hc hm hsafe,
    fun cause hc hm hsafe ha => ⟨fun central => ?_, fun x b hx => ?_⟩, fun hc hst third => ?_,
    fun hk hst => ⟨?_, fun test => ?_⟩, fun hk hst hmet => ?_⟩
  · refine ⟨_, exec_giveUp s u cause hc hm, ⟨rfl, rfl, rfl, rfl, rfl⟩, ?_⟩
    rw [State.onDev_dev, Dev.giveUp_inactive _ _ u cause hu ha, s.dev.giveUpAgain_ofKeeper u cause g hm hg hb hk hsrc hlast]
    refine ⟨rfl, fun v st => ?_, rfl, rfl⟩
    exact s.dev.chg.is_onPair_of_inst u v (fun p => { p with last := some { g with cause := cause } }) st (fun _ _ => rfl)
  · refine ⟨_, exec_giveUp s u cause hc hm, ⟨rfl, rfl, rfl, rfl, rfl⟩, ?_⟩
    rw [SendsDirect, State.onDev_dev, hsafe, s.dev.giveUp_safe_central u cause hu ha central]
    exact ⟨rfl, rfl⟩
  · obtain ⟨-, drill⟩ := own_of_mem_causes hm
    subst hx
    refine ⟨_, exec_giveUp s _ cause hc hm, ⟨rfl, rfl, rfl, rfl, rfl⟩, ?_⟩
    have hs : (s.lat.safe && unitCentral (.tileRef x b)) = false := Bool.and_false _
    cases ok : s.dev.chg.is (unitPartner (.tileRef x b)) .standby with
    | true =>
      obtain ⟨given, took⟩ := s.dev.giveUp_of_standby _ _ cause hu ha hs drill ok
      exact ⟨given.sent, fun _ => took, nofun⟩
    | false =>
      obtain ⟨given, -, failed, sent, dark⟩ := s.dev.giveUp_of_no_standby _ _ cause hu ha hs drill ok
      exact ⟨given.sent, nofun, fun _ => ⟨dark x b rfl hsafe, failed, sent⟩⟩
  · refine ⟨s.onDev (fun d => ((d.onChg (fun c => c.recordLast u 2 d.frm.tick false)).sendGiveUp u 2).leaveService u 2), ?_,
      ⟨rfl, rfl, rfl, rfl, rfl⟩, ?_⟩
    · simp only [exec, execStandbyParityFault, State.onDev, hc, hu, hst, Bool.and_self, if_true]
    · generalize hx : (s.dev.onChg (fun c => c.recordLast u 2 s.dev.frm.tick false)).sendGiveUp u 2 = x
      have pair : x.chg.pair u = s.dev.chg.pair u := by rw [← hx]; exact Chg.recordLast_pair ..
      have left := x.leaveService_spec u 2 (by decide)
      have third' : (x.chg.pair u).third (unitB u) x.lampMs = false := by rw [pair, ← hx]; exact third
      rw [third'] at left
      rw [SendsDirect, State.onDev_dev, hx]
      refine ⟨?_, left.cause.trans (by rw [← hx]; rfl), ?_, fun st => ?_, ?_⟩
      · rw [Chg.is, left.own]; rfl
      · rw [left.dev rfl, ← hx]; rfl
      · rw [Chg.is_partner, Chg.is_partner, left.other, pair]
      · rw [left.dev rfl, ← hx]; rfl
  · obtain ⟨own, other⟩ := is_onPair_setInst s.dev.chg u (fun p => (p.setInst (unitB u) .resync).setPoint (unitB u) false) .resync
      (fun p b => Pair.inst_setPoint ..)
    refine ⟨s.onDev (fun d => (d.onChg (fun c => c.onPair u (fun p =>
      (p.setInst (unitB u) .resync).setPoint (unitB u) false))).raise 98), ?_, ⟨rfl, rfl, rfl, rfl, rfl⟩, own, ?_, other, rfl⟩
    · simp only [exec, execSelftestPass, State.onDev, hk, hu, hst, Bool.and_self, if_true]
    · exact raises_of_evt (ns := [98]) (by decide) rfl
  · obtain ⟨own, other⟩ := is_onPair_setInst s.dev.chg u (fun p => p.setInst (unitB u) .retired) .retired (fun _ _ => rfl)
    refine ⟨s.onDev (fun d => (((d.onChg (fun c => { c.onPair u (fun p => p.setInst (unitB u) .retired) with
      runFails := satInc 65535 c.runFails })).sendDirect (unitSource u) 0x12 1 test).raise 99).raise 101), ?_,
      ⟨rfl, rfl, rfl, rfl, rfl⟩, ?_, ?_, rfl, ?_, fun st => ?_, rfl⟩
    · simp only [exec, execSelftestFail, State.onDev, hk, hu, hst, Bool.and_self, if_true]
    · exact own
    · exact raises_of_evt (ns := [99, 101]) (by decide) rfl
    · exact satInc_eq_min ..
    · exact other st
  · obtain ⟨own, other⟩ := is_onPair_setInst s.dev.chg u (fun p => (p.setInst (unitB u) .standby).setPoint (unitB u) false) .standby
      (fun p b => Pair.inst_setPoint ..)
    refine ⟨s.onDev (fun d => (d.onChg (fun c => c.onPair u (fun p =>
      (p.setInst (unitB u) .standby).setPoint (unitB u) false))).raise 100), ?_, ⟨rfl, rfl, rfl, rfl, rfl⟩, own, ?_, ?_, other, rfl⟩
    · simp only [exec, execResync, State.onDev, hk, hu, hst, hmet, Bool.and_self, if_true]
    · exact raises_of_evt (ns := [100]) (by decide) rfl
    · rw [State.onDev_dev, Dev.raise_chg, Dev.onChg_chg, Chg.pair_onPair, Pair.met_setPoint_other, Pair.met_setInst]

end Sys2Proof.Proofs

/-! ## The end of a chain pass (R37, R40 to R43, R45) -/

namespace Sys2Proof.Machine

/-! ### Reads of a sparse map after a run of changes -/

theorem SMap.get_foldl_upd_of_not_mem {α : Type} [DecidableEq α] (dflt : α) (g : Nat → α → α) (j : Nat) :
    ∀ (es : List (Nat × Nat)) (m : SMap α), (∀ e ∈ es, e.1 ≠ j) →
      SMap.get dflt (es.foldl (fun m e => SMap.upd dflt m e.1 (g e.2)) m) j = SMap.get dflt m j
  | [], _, _ => rfl
  | e :: es, m, h => by
    rw [List.foldl_cons, SMap.get_foldl_upd_of_not_mem dflt g j es _ (fun x hx => h x (List.mem_cons_of_mem _ hx)), SMap.get_upd,
      if_neg (Ne.symm (h e List.mem_cons_self))]

/-- Each key of a list without repeats has been changed once, with the value beside it. -/
theorem SMap.get_foldl_upd_of_mem {α : Type} [DecidableEq α] (dflt : α) (g : Nat → α → α) (j v : Nat) :
    ∀ (es : List (Nat × Nat)) (m : SMap α), (es.map (·.1)).Nodup → (j, v) ∈ es →
      SMap.get dflt (es.foldl (fun m e => SMap.upd dflt m e.1 (g e.2)) m) j = g v (SMap.get dflt m j)
  | [], _, _, h => absurd h List.not_mem_nil
  | e :: es, m, nodup, h => by
    rw [List.map_cons, List.nodup_cons] at nodup
    obtain ⟨fresh, nodup⟩ := nodup
    rw [List.foldl_cons]
    rcases List.mem_cons.mp h with rfl | h
    · rw [SMap.get_foldl_upd_of_not_mem dflt g j es _ (fun x hx he =>
        fresh (he ▸ List.mem_map_of_mem (f := (·.1)) hx)), SMap.get_upd, if_pos rfl]
    · have hne : j ≠ e.1 := fun he => fresh (he ▸ List.mem_map_of_mem (f := (·.1)) h)
      rw [SMap.get_foldl_upd_of_mem dflt g j v es _ nodup h, SMap.get_upd, if_neg hne]

/-- Changes that change nothing. -/
theorem SMap.get_foldl_upd_id {α : Type} [DecidableEq α] (dflt : α) (g : Nat → α → α) (hg : ∀ v x, g v x = x) (j : Nat) :
    ∀ (es : List (Nat × Nat)) (m : SMap α),
      SMap.get dflt (es.foldl (fun m e => SMap.upd dflt m e.1 (g e.2)) m) j = SMap.get dflt m j
  | [], _ => rfl
  | e :: es, m => by
    rw [List.foldl_cons, SMap.get_foldl_upd_id dflt g hg j es, SMap.get_upd, hg]
    split
    · next h => rw [h]
    · rfl

/-! ### The steps of the end of a pass -/

/-- What the cells of the chain received, in clock order (R37). -/
def Pass.received (p : Pass) (err : PassErr) : List Nat := flipElems (p.data.reverse.map (·.toNat)) err.inb

/-- What came back, in clock order (R37). -/
def Pass.came (p : Pass) (err : PassErr) : List Nat := flipElems (p.captured.reverse.map (·.toNat)) err.out

/-- OP as received (R38). -/
def Pass.op (p : Pass) : Nat := bits p.header.toNat 16 4

/-- The inbound CRC matches (R40). -/
def Pass.inOk (p : Pass) (t : Nat) (err : PassErr) : Bool :=
  passCrc t p.header.toNat (p.received err) ==
    Nat.xor (passCrc t p.sent.toNat (p.data.reverse.map (·.toNat))) err.inTrailer.toNat

/-- The pass applies: its inbound CRC matches, and the masks of a TRIM pass are valid (R42, R43). -/
def Pass.good (p : Pass) (t : Nat) (err : PassErr) : Bool :=
  p.inOk t err && (p.op != 2 || (p.received err).all (fun e => popcount 12 e == 10 && bits e 12 4 == 0))

/-- The return CRC matches (R40). -/
def Pass.retOk (p : Pass) (t : Nat) (err : PassErr) : Bool :=
  passCrc t p.sent.toNat (p.came err) ==
    Nat.xor (passCrc t p.header.toNat (p.captured.reverse.map (·.toNat))) err.outTrailer.toNat

/-- The pass leaves its chain (R37). -/
def State.passGone (s : State) (t k : Nat) : State :=
  s.onDev (fun d => d.onArr (fun a => a.drop (fun q => q.tile == t && q.chain == k)))

/-- The payloads of a chain beside their pixels (R36). -/
def payloadsOf (t k : Nat) (got : List Nat) : List (Nat × Nat) := ((List.range chainLen).map (pixelOnChain t k)).zip got.reverse

/-- Cells that take the payloads beside them (R38). -/
def applyAll (op : Nat) (m : SMap Cell) (es : List (Nat × Nat)) : SMap Cell :=
  es.foldl (fun m e => SMap.upd {} m e.1 (fun c => c.apply op (bits e.2 0 16))) m

/-- Every cell of the chain takes its payload (R38). -/
def State.applyPayloads (s : State) (t k op : Nat) (got : List Nat) : State :=
  { s with cells := applyAll op s.cells (payloadsOf t k got) }

/-- The pass applies: its cells, the flags of its tile, and of a TRIM pass what the ledger will pack (R42, R45, R432). -/
def State.applyPass (s : State) (t k op : Nat) (got : List Nat) : State :=
  let s := s.applyPayloads t k op got
  let left := s.isoLeft t k
  let s := s.onDev (fun d => d.onTile t (fun x => x.applied op k left))
  if op = 2 then
    let packed := (payloadsOf t k got).foldl (fun m e => SMap.set 0 m e.1 (BitVec.ofNat 12 e.2)) s.dev.ledg.toPack
    s.onDev (fun d => { d with ledg := { d.ledg with toPack := packed } })
  else s

/-- A pass whose inbound CRC fails is counted and reported (R42, R454). -/
def Dev.failInbound (d : Dev) (t k : Nat) : Dev :=
  ((d.onTile t (fun x => { x with crcFail := satInc 255 x.crcFail })).countFail.raise 78).send t 0x02 1 (t * 4 + k)

/-- One whose return CRC fails (R43, R454). -/
def Dev.failReturn (d : Dev) (t k : Nat) : Dev :=
  ((d.onTile t (fun x => { x with returnFail := satInc 255 x.returnFail })).countFail.raise 78).send t 0x03 0 (t * 4 + k)

/-- What the inbound side of a pass does. -/
def State.inbound (s : State) (t k : Nat) (p : Pass) (err : PassErr) : State :=
  if p.good t err then s.applyPass t k p.op (p.received err) else s.onDev (fun d => d.failInbound t k)

/-- What the return side does. -/
def State.outbound (s : State) (t k : Nat) (p : Pass) (err : PassErr) : State :=
  if p.retOk t err then
    s.onDev (fun d => d.forwardStatus t k ((p.came err).reverse.map (fun e => bits e 16 4)) p.phases p.probes)
  else s.onDev (fun d => d.failReturn t k)

/-- The safe bits that a good READ brought stand recorded (R51). -/
def Dev.recordRead (d : Dev) (t k : Nat) (bitsRead : List Bool) : Dev :=
  d.onTile t (fun x => { x with reads := setNth x.reads k (some bitsRead), readDue := x.readDue &&& ~~~(1#4 <<< k) })

/-- What a READ does for the readback of its tile (R51, R52). -/
def State.readEnds (s : State) (t k : Nat) (p : Pass) (err : PassErr) : State :=
  if p.void then s
  else if p.purpose == .readback && p.good t err && p.retOk t err then
    (s.onDev (fun d => d.recordRead t k (safeBits (p.came err)))).readbackVerdict t err.pathBad err.hdr
  else if p.purpose == .readback then s.onDev (fun d => d.voidReadback t)
  else s

/-- The end of a pass, step by step. -/
theorem State.endPass_eq (s : State) (t k : Nat) (err : PassErr) (p : Pass) (hon : s.dev.pwr.mainOn = true)
    (hp : s.dev.passOn t k = some p) :
    s.endPass t k err = ((((((s.passGone t k).inbound t k p err).outbound t k p err).readEnds t k p err).afterStartPass t p.purpose
      err.hdr).onDev (fun d => d.chainEnded (t / 24))) := by
  unfold State.endPass
  rw [if_pos hon, hp]
  rfl

/-! ### What the steps reach -/

/-- What a step at the end of a pass can reach; it starts no pass. -/
structure PassStep (s u : State) : Prop where
  stores : u.pending = s.pending ∧ u.otp = s.otp ∧ u.mem = s.mem ∧ u.lat = s.lat
  dev : u.dev = { s.dev with
    tiles := u.dev.tiles, arr := u.dev.arr, evt := u.dev.evt, keep := u.dev.keep, diag := u.dev.diag, ledg := u.dev.ledg
    test := u.dev.test }
  idle : ∀ t k, s.dev.passOn t k = none → u.dev.passOn t k = none

namespace PassStep

theorem refl (s : State) : PassStep s s := ⟨⟨rfl, rfl, rfl, rfl⟩, rfl, fun _ _ h => h⟩

theorem trans {a b c : State} (h : PassStep a b) (h' : PassStep b c) : PassStep a c := by
  obtain ⟨⟨p, o, m, l⟩, hd, hi⟩ := h
  obtain ⟨⟨p', o', m', l'⟩, hd', hi'⟩ := h'
  exact ⟨⟨p'.trans p, o'.trans o, m'.trans m, l'.trans l⟩, by rw [hd', hd], fun t k hn => hi' t k (hi t k hn)⟩

/-- A change of the blocks that leaves the passes alone. -/
theorem onDev (s : State) (f : Dev → Dev)
    (h : f s.dev = { s.dev with
      tiles := (f s.dev).tiles, arr := (f s.dev).arr, evt := (f s.dev).evt, keep := (f s.dev).keep, diag := (f s.dev).diag
      ledg := (f s.dev).ledg, test := (f s.dev).test })
    (hp : (f s.dev).arr.passes = s.dev.arr.passes) : PassStep s (s.onDev f) :=
  ⟨⟨rfl, rfl, rfl, rfl⟩, h, fun t k hn => by rw [← hn, Dev.passOn, Dev.passOn, ← hp]; rfl⟩

theorem passGone (s : State) (t k : Nat) : PassStep s (s.passGone t k) :=
  ⟨⟨rfl, rfl, rfl, rfl⟩, rfl, fun t' k' hn => by
    rw [Dev.passOn, List.find?_eq_none] at hn ⊢
    exact fun p hp => hn p (List.mem_filter.mp hp).1⟩

theorem onCells (s : State) (m : SMap Cell) : PassStep s { s with cells := m } :=
  ⟨⟨rfl, rfl, rfl, rfl⟩, rfl, fun _ _ h => h⟩

theorem onTile (s : State) (t : Nat) (f : Tile → Tile) : PassStep s (s.onDev (fun d => d.onTile t f)) := onDev s _ rfl rfl

theorem pack (s : State) (m : SMap (BitVec 12)) :
    PassStep s (s.onDev (fun d => { d with ledg := { d.ledg with toPack := m } })) := onDev s _ rfl rfl

theorem applyPass (s : State) (t k op : Nat) (got : List Nat) : PassStep s (s.applyPass t k op got) := by
  have cells : PassStep s (s.applyPayloads t k op got) := onCells s _
  unfold State.applyPass
  dsimp only
  split
  · exact cells.trans ((onTile ..).trans (pack ..))
  · exact cells.trans (onTile ..)

theorem inbound (s : State) (t k : Nat) (p : Pass) (err : PassErr) : PassStep s (s.inbound t k p err) := by
  unfold State.inbound
  split
  · exact applyPass ..
  · exact onDev s _ rfl rfl

end PassStep

theorem Dev.forwardStatus_frame (d : Dev) (t k : Nat) (sts phs : List Nat) (own : SMap Nat) :
    d.forwardStatus t k sts phs own = { d with diag := (d.forwardStatus t k sts phs own).diag } := by
  unfold Dev.forwardStatus
  split <;> rfl

namespace PassStep

theorem outbound (s : State) (t k : Nat) (p : Pass) (err : PassErr) : PassStep s (s.outbound t k p err) := by
  unfold State.outbound
  split
  · have frame := s.dev.forwardStatus_frame t k ((p.came err).reverse.map (fun e => bits e 16 4)) p.phases p.probes
    exact onDev s _ (by rw [frame]) (by rw [frame])
  · exact onDev s _ rfl rfl

theorem voidReadback (s : State) (t : Nat) : PassStep s (s.onDev (fun d => d.voidReadback t)) :=
  ⟨⟨rfl, rfl, rfl, rfl⟩, rfl, fun t' k' hn => by
    rw [Dev.passOn, List.find?_eq_none] at hn ⊢
    intro p hp
    obtain ⟨q, hq, rfl⟩ := List.mem_map.mp hp
    have := hn q hq
    split <;> exact this⟩

end PassStep

/-- Once it has left its chain no pass runs there (R37). -/
theorem State.passGone_idle (s : State) (t k : Nat) : (s.passGone t k).dev.passOn t k = none := by
  rw [Dev.passOn, List.find?_eq_none]
  intro p hp
  have gone := (List.mem_filter.mp hp).2
  dsimp only at gone
  rw [Bool.not_eq_true'] at gone
  rw [gone]
  exact Bool.false_ne_true

/-- In RUN nothing follows the end of a pass, nor after any pass but a SAFE or a READ pass in START (R51, R52). -/
theorem State.afterStartPass_run (s : State) (t : Nat) (pu : Purpose) (hdr : List HdrErr) (h : s.dev.frm.ticked = true) :
    s.afterStartPass t pu hdr = s := by
  exact if_neg (by simp [Dev.inStart, h])

theorem State.afterStartPass_drive (s : State) (t : Nat) (pu : Purpose) (hdr : List HdrErr) (hs : pu ≠ .safe) (hr : pu ≠ .readback) :
    s.afterStartPass t pu hdr = s := by
  unfold State.afterStartPass
  split
  · cases pu with
    | safe => exact absurd rfl hs
    | readback => exact absurd rfl hr
    | _ => rfl
  · rfl

theorem State.readEnds_other (s : State) (t k : Nat) (p : Pass) (err : PassErr) (h : p.purpose ≠ .readback) :
    s.readEnds t k p err = s := by
  simp [State.readEnds, h]

/-- A READ that brings nothing makes its tile's readback begin anew (R51). -/
theorem State.readEnds_bad (s : State) (t k : Nat) (p : Pass) (err : PassErr) (h : p.good t err = false) :
    s.readEnds t k p err = if p.purpose = .readback ∧ p.void = false then s.onDev (fun d => d.voidReadback t) else s := by
  cases hv : p.void <;> by_cases hr : p.purpose = .readback <;> simp [State.readEnds, h, hv, hr]

/-! ### The cells of the chain (R38, R42) -/

theorem get_applyAll_of_mem (op q v : Nat) (es : List (Nat × Nat)) (m : SMap Cell) (nodup : (es.map (·.1)).Nodup)
    (h : (q, v) ∈ es) : SMap.get {} (applyAll op m es) q = (SMap.get {} m q).apply op (bits v 0 16) :=
  SMap.get_foldl_upd_of_mem {} (fun v c => c.apply op (bits v 0 16)) q v es m nodup h

theorem get_applyAll_of_not_mem (op q : Nat) (es : List (Nat × Nat)) (m : SMap Cell) (h : ∀ e ∈ es, e.1 ≠ q) :
    SMap.get {} (applyAll op m es) q = SMap.get {} m q :=
  SMap.get_foldl_upd_of_not_mem {} (fun v c => c.apply op (bits v 0 16)) q es m h

theorem get_applyAll_read (q : Nat) (es : List (Nat × Nat)) (m : SMap Cell) :
    SMap.get {} (applyAll 5 m es) q = SMap.get {} m q :=
  SMap.get_foldl_upd_id {} (fun v c => c.apply 5 (bits v 0 16)) (fun _ _ => rfl) q es m

theorem payloadsOf_keys (t k : Nat) (got : List Nat) (h : got.length = 1408) :
    (payloadsOf t k got).map (·.1) = (List.range chainLen).map (pixelOnChain t k) :=
  List.map_fst_zip (by simp [chainLen, h])

theorem payloadsOf_mem (t k j : Nat) (got : List Nat) (h : got.length = 1408) (hj : j < 1408) :
    (pixelOnChain t k j, nth 0 got.reverse j) ∈ payloadsOf t k got := by
  have hz : j < (payloadsOf t k got).length := by simp [payloadsOf, chainLen, h, hj]
  refine List.mem_of_getElem (i := j) (h := hz) ?_
  simp only [payloadsOf, List.getElem_zip, List.getElem_map, List.getElem_range]
  rw [nth, List.getD_eq_getElem _ _ (by simpa [h] using hj)]

theorem State.applyPayloads_cell (s : State) (t k op q : Nat) (got : List Nat) :
    (s.applyPayloads t k op got).cell q = SMap.get {} (applyAll op s.cells (payloadsOf t k got)) q := by
  rw [State.cell, State.applyPayloads]

theorem State.applyPayloads_dev (s : State) (t k op : Nat) (got : List Nat) : (s.applyPayloads t k op got).dev = s.dev := by
  rw [State.applyPayloads]

/-- The cell at position `j` of the chain takes payload `j` (R36, R38). -/
theorem State.applyPayloads_cell_on (s : State) (t k op j : Nat) (got : List Nat) (h : got.length = 1408) (hj : j < 1408) :
    (s.applyPayloads t k op got).cell (pixelOnChain t k j) =
      (s.cell (pixelOnChain t k j)).apply op (bits (nth 0 got.reverse j) 0 16) := by
  have nodup := pixelOnChain_nodup t k chainLen
  rw [← payloadsOf_keys t k got h] at nodup
  rw [State.applyPayloads_cell, State.cell]
  exact get_applyAll_of_mem op _ _ _ s.cells nodup (payloadsOf_mem t k j got h hj)

theorem State.applyPayloads_cell_off (s : State) (t k op q : Nat) (got : List Nat) (h : got.length = 1408)
    (hq : ∀ j, j < 1408 → q ≠ pixelOnChain t k j) : (s.applyPayloads t k op got).cell q = s.cell q := by
  rw [State.applyPayloads_cell, State.cell]
  refine get_applyAll_of_not_mem op q _ s.cells (fun e he heq => ?_)
  have hk : e.1 ∈ (payloadsOf t k got).map (·.1) := List.mem_map_of_mem he
  rw [heq, payloadsOf_keys t k got h] at hk
  obtain ⟨j, hj, rfl⟩ := List.mem_map.mp hk
  exact hq j (List.mem_range.mp hj) rfl

/-- A READ pass writes no field (R38). -/
theorem State.applyPayloads_cell_read (s : State) (t k q : Nat) (got : List Nat) : (s.applyPayloads t k 5 got).cell q = s.cell q := by
  rw [State.applyPayloads_cell, State.cell]
  exact get_applyAll_read q _ s.cells

theorem State.applyPass_cells (s : State) (t k op : Nat) (got : List Nat) :
    (s.applyPass t k op got).cells = (s.applyPayloads t k op got).cells := by
  unfold State.applyPass
  dsimp only
  split
  · rw [State.onDev_cells, State.onDev_cells]
  · rw [State.onDev_cells]

theorem State.applyPass_cell (s : State) (t k op q : Nat) (got : List Nat) :
    (s.applyPass t k op got).cell q = (s.applyPayloads t k op got).cell q := by
  rw [State.cell, State.cell, s.applyPass_cells]

theorem Dev.tile_withLedg (d : Dev) (l : Ledg) (t : Nat) : ({ d with ledg := l } : Dev).tile t = d.tile t := rfl

theorem State.applyPass_tile (s : State) (t k op : Nat) (got : List Nat) :
    ∃ left, (s.applyPass t k op got).dev.tile t = (s.dev.tile t).applied op k left := by
  refine ⟨(s.applyPayloads t k op got).isoLeft t k, ?_⟩
  have tile := s.dev.tile_onTile t t (fun x => x.applied op k ((s.applyPayloads t k op got).isoLeft t k))
  rw [if_pos rfl] at tile
  unfold State.applyPass
  dsimp only
  split
  · rw [State.onDev_dev, State.onDev_dev, State.applyPayloads_dev, Dev.tile_withLedg]
    exact tile
  · rw [State.onDev_dev, State.applyPayloads_dev]
    exact tile

/-- Nothing but tiles and the ledger's packing is reached by a pass that applies. -/
theorem State.applyPass_dev (s : State) (t k op : Nat) (got : List Nat) :
    ∃ tiles ledg, (s.applyPass t k op got).dev = { s.dev with tiles := tiles, ledg := ledg } := by
  unfold State.applyPass
  dsimp only
  split
  · rw [State.onDev_dev, State.onDev_dev, State.applyPayloads_dev]
    exact ⟨_, _, rfl⟩
  · rw [State.onDev_dev, State.applyPayloads_dev]
    exact ⟨_, _, rfl⟩

/-! ### A pass that arrives undisturbed -/

theorem flipElems_nil (l : List Nat) : flipElems l [] = l := by
  show l.mapIdx (fun _ e => e) = l
  induction l with
  | nil => rfl
  | cons e l ih => rw [List.mapIdx_cons, ih]

theorem Pass.received_undisturbed (p : Pass) (err : PassErr) (h : err.inb = []) : p.received err = p.data.reverse.map (·.toNat) := by
  rw [Pass.received, h, flipElems_nil]

theorem Pass.inOk_undisturbed (p : Pass) (t : Nat) (err : PassErr) (hh : p.header = p.sent) (hi : err.inb = [])
    (ht : err.inTrailer = 0) : p.inOk t err = true := by
  rw [Pass.inOk, p.received_undisturbed err hi, hh, ht, beq_iff_eq]
  exact (Nat.xor_zero _).symm

theorem Pass.came_undisturbed (p : Pass) (err : PassErr) (h : err.out = []) : p.came err = p.captured.reverse.map (·.toNat) := by
  rw [Pass.came, h, flipElems_nil]

theorem Pass.retOk_undisturbed (p : Pass) (t : Nat) (err : PassErr) (hh : p.header = p.sent) (ho : err.out = [])
    (ht : err.outTrailer = 0) : p.retOk t err = true := by
  rw [Pass.retOk, Pass.came_undisturbed p err ho, hh, ht, beq_iff_eq]
  exact (Nat.xor_zero _).symm

theorem Pass.good_of_inOk (p : Pass) (t : Nat) (err : PassErr) (h : p.inOk t err = true) (hop : p.op ≠ 2) : p.good t err = true := by
  simp [Pass.good, h, hop]

theorem Pass.nth_received (p : Pass) (err : PassErr) (hi : err.inb = []) (j : Nat) (hj : j < p.data.length) :
    nth 0 (p.received err).reverse j = (nth 0 p.data j).toNat := by
  rw [p.received_undisturbed err hi, ← List.map_reverse, List.reverse_reverse, nth, nth,
    List.getD_eq_getElem _ _ (by simpa using hj), List.getD_eq_getElem _ _ hj, List.getElem_map]

theorem bits_word (w : BitVec 16) : bits w.toNat 0 16 = w.toNat := by
  have := w.isLt
  simp only [bits]
  omega

/-! ### Reports, statuses and entries (R42, R43, R172, R454) -/

theorem Dev.failInbound_tile (d : Dev) (t k : Nat) :
    (d.failInbound t k).tile t = { d.tile t with crcFail := satInc 255 (d.tile t).crcFail } :=
  (d.tile_onTile t t (fun x => { x with crcFail := satInc 255 x.crcFail })).trans (if_pos rfl)

theorem Dev.failReturn_tile (d : Dev) (t k : Nat) :
    (d.failReturn t k).tile t = { d.tile t with returnFail := satInc 255 (d.tile t).returnFail } :=
  (d.tile_onTile t t (fun x => { x with returnFail := satInc 255 x.returnFail })).trans (if_pos rfl)

theorem State.passGone_cells (s : State) (t k : Nat) : (s.passGone t k).cells = s.cells := rfl
theorem State.passGone_evt (s : State) (t k : Nat) : (s.passGone t k).dev.evt = s.dev.evt := rfl
theorem State.passGone_keep (s : State) (t k : Nat) : (s.passGone t k).dev.keep = s.dev.keep := rfl
theorem State.passGone_diag (s : State) (t k : Nat) : (s.passGone t k).dev.diag = s.dev.diag := rfl
theorem State.passGone_passFail (s : State) (t k : Nat) : (s.passGone t k).dev.arr.passFail = s.dev.arr.passFail := rfl

theorem Dev.failInbound_evt (d : Dev) (t k : Nat) : (d.failInbound t k).evt = d.evt.raise 78 := rfl
theorem Dev.failInbound_passFail (d : Dev) (t k : Nat) : (d.failInbound t k).arr.passFail = satInc 65535 d.arr.passFail := rfl
theorem Dev.failInbound_keep (d : Dev) (t k : Nat) :
    (d.failInbound t k).keep = { d.keep with transit := d.keep.transit ++ [mkMsg t 0x02 1 (t * 4 + k)] } := rfl

theorem Dev.failReturn_evt (d : Dev) (t k : Nat) : (d.failReturn t k).evt = d.evt.raise 78 := rfl
theorem Dev.failReturn_diag (d : Dev) (t k : Nat) : (d.failReturn t k).diag = d.diag := rfl
theorem Dev.failReturn_passFail (d : Dev) (t k : Nat) : (d.failReturn t k).arr.passFail = satInc 65535 d.arr.passFail := rfl
theorem Dev.failReturn_keep (d : Dev) (t k : Nat) :
    (d.failReturn t k).keep = { d.keep with transit := d.keep.transit ++ [mkMsg t 0x03 0 (t * 4 + k)] } := rfl

theorem Dev.chainEnded_evt (d : Dev) (ty : Nat) : (d.chainEnded ty).evt = d.evt := rfl
theorem Dev.chainEnded_keep (d : Dev) (ty : Nat) : (d.chainEnded ty).keep = d.keep := rfl
theorem Dev.chainEnded_arr (d : Dev) (ty : Nat) : (d.chainEnded ty).arr = d.arr := rfl
theorem Dev.chainEnded_diag (d : Dev) (ty : Nat) : (d.chainEnded ty).diag = d.diag := rfl
theorem Dev.chainEnded_tile (d : Dev) (ty x : Nat) : (d.chainEnded ty).tile x = d.tile x := rfl

theorem Dev.voidReadback_tile (d : Dev) (t : Nat) (h : d.frm.ticked = true) :
    (d.voidReadback t).tile t = { d.tile t with reads := [none, none, none, none], readDue := 15 } := by
  have live : d.inStart = false := by rw [Dev.inStart, h]; rfl
  have onTile : (d.voidReadback t).tile t = (d.onTile t (fun x => { x with
    reads := [none, none, none, none], readDue := if d.inStart then x.readDue else 15 })).tile t := rfl
  rw [onTile, Dev.tile_onTile, if_pos rfl, live]
  rfl

theorem Tile.applied_returnFail (x : Tile) (op k : Nat) (left : Bool) : (x.applied op k left).returnFail = x.returnFail := by
  unfold Tile.applied
  split
  · rfl
  split
  · rfl
  split <;> rfl

theorem State.outbound_cell (s : State) (t k q : Nat) (p : Pass) (err : PassErr) : (s.outbound t k p err).cell q = s.cell q := by
  unfold State.outbound
  split <;> rfl

/-- What comes back reaches of the tile its count of failures alone. -/
theorem State.outbound_tile (s : State) (t k : Nat) (p : Pass) (err : PassErr) :
    ∃ n, (s.outbound t k p err).dev.tile t = { s.dev.tile t with returnFail := n } := by
  unfold State.outbound
  split
  · refine ⟨(s.dev.tile t).returnFail, ?_⟩
    rw [State.onDev_dev, Dev.forwardStatus_frame]
    rfl
  · exact ⟨_, s.dev.failReturn_tile t k⟩

/-- Good statuses reach pixel diagnostics alone (R42). -/
theorem State.outbound_good (s : State) (t k : Nat) (p : Pass) (err : PassErr) (h : p.retOk t err = true) :
    ∃ g, s.outbound t k p err = s.onDev (fun d => { d with diag := g }) :=
  ⟨_, (if_pos h).trans (congrArg (fun d => ({ s with dev := d } : State)) (s.dev.forwardStatus_frame t k _ p.phases p.probes))⟩

theorem State.outbound_bad (s : State) (t k : Nat) (p : Pass) (err : PassErr) (h : p.retOk t err = false) :
    s.outbound t k p err = s.onDev (fun d => d.failReturn t k) :=
  if_neg (by rw [h]; exact Bool.false_ne_true)

/-- After a SAFE pass of START its tile may be read back (R52). -/
theorem OnlyPasses.afterStartPass (s : State) (t : Nat) (pu : Purpose) (hdr : List HdrErr) :
    OnlyPasses s (s.afterStartPass t pu hdr) := by
  unfold State.afterStartPass
  split
  · split
    · exact readPasses s t hdr
    · split
      · exact refl s
      · exact readPasses s t hdr
    · exact refl s
  · exact refl s

/-- In RUN a pass that does not apply gives a READ no verdict, and changes nothing of any other (R51). -/
theorem State.readEnds_bad_run (s : State) (t k : Nat) (p : Pass) (err : PassErr) (h : p.good t err = false)
    (hrun : s.dev.frm.ticked = true) :
    ∃ u, s.readEnds t k p err = u ∧ PassStep s u ∧ u.cells = s.cells ∧ u.dev.evt = s.dev.evt ∧ u.dev.keep = s.dev.keep ∧
      u.dev.arr.passFail = s.dev.arr.passFail ∧
      (∃ reads due, u.dev.tile t = { s.dev.tile t with reads := reads, readDue := due }) ∧
      (p.purpose = .readback → p.void = false → (u.dev.tile t).readDue = 15 ∧ (u.dev.tile t).reads = [none, none, none, none]) := by
  refine ⟨_, s.readEnds_bad t k p err h, ?_⟩
  split
  · have tile := s.dev.voidReadback_tile t hrun
    refine ⟨.voidReadback s t, rfl, rfl, rfl, rfl, ⟨_, _, tile⟩, fun _ _ => ?_⟩
    rw [State.onDev_dev, tile]
    exact ⟨rfl, rfl⟩
  · next hn => exact ⟨.refl s, rfl, rfl, rfl, rfl, ⟨_, _, rfl⟩, fun hr hv => absurd ⟨hr, hv⟩ hn⟩

/-! ### The verdict of a readback in RUN (R51, R320) -/

/-- The verdict stands in the registers of the tile, and its readback is over. -/
def Dev.judged (d : Dev) (t got : Nat) (ok : Bool) : Dev :=
  d.onTile t (fun y => { y with
    readback := got, safeVerified := ok, safeFailed := !ok, reads := [none, none, none, none], readDue := 0 })

/-- A failure of the tile's SAFE path that came with the readback is reported in RUN (R320). -/
def Dev.pathReport (d : Dev) (t : Nat) (pathBad : Bool) : Dev := if pathBad && !d.inStart then d.send 0xCC 0x26 1 t else d

/-- The CRC over the safe bits that the four READ passes of a tile brought (R51). -/
def Tile.gotCrc (x : Tile) (t : Nat) : Nat := safeCrc t (packBits (x.reads.flatMap (fun o => o.getD [])))

theorem State.readbackVerdict_waits (s : State) (t : Nat) (pathBad : Bool) (hdr : List HdrErr)
    (h : (s.dev.tile t).reads.all Option.isSome = false) : s.readbackVerdict t pathBad hdr = s := by
  simp only [State.readbackVerdict, h, Bool.false_eq_true, if_false]

theorem State.readbackVerdict_matches (s : State) (t : Nat) (pathBad : Bool) (hdr : List HdrErr)
    (h : (s.dev.tile t).reads.all Option.isSome = true) (hok : (s.dev.tile t).gotCrc t = s.dev.safeExpected t) :
    s.readbackVerdict t pathBad hdr = (((s.onDev (fun d => d.judged t ((s.dev.tile t).gotCrc t) true)).onDev (fun d =>
      d.onArr (fun a => { a with startDone := a.startDone || (d.inStart && d.startVerified) }))).onDev
        (fun d => d.roundCheck)).onDev (fun d => d.pathReport t pathBad) := by
  unfold State.readbackVerdict
  have ok : (safeCrc t (packBits ((s.dev.tile t).reads.flatMap (fun o => o.getD []))) == s.dev.safeExpected t) = true :=
    beq_iff_eq.mpr hok
  rw [if_pos h]
  dsimp only
  rw [ok, if_pos rfl]
  rfl

theorem State.readbackVerdict_differs (s : State) (t : Nat) (pathBad : Bool) (hdr : List HdrErr)
    (h : (s.dev.tile t).reads.all Option.isSome = true) (hok : (s.dev.tile t).gotCrc t ≠ s.dev.safeExpected t)
    (hrun : s.dev.frm.ticked = true) :
    s.readbackVerdict t pathBad hdr = ((((s.onDev (fun d => d.judged t ((s.dev.tile t).gotCrc t) false)).onDev
      (fun d => d.joinMask t)).onDev (fun d => d.send t 0x07 1 ((s.dev.tile t).gotCrc t))).onDev
        (fun d => d.roundCheck)).onDev (fun d => d.pathReport t pathBad) := by
  unfold State.readbackVerdict
  have ok : (safeCrc t (packBits ((s.dev.tile t).reads.flatMap (fun o => o.getD []))) == s.dev.safeExpected t) = false :=
    beq_eq_false_iff_ne.mpr hok
  have live : (s.dev.onTile t (fun y => { y with
      readback := safeCrc t (packBits ((s.dev.tile t).reads.flatMap (fun o => o.getD [])))
      safeVerified := false, safeFailed := !false, reads := [none, none, none, none], readDue := 0 })).inStart = false := by
    rw [Dev.inStart, Dev.onTile_frm, hrun]; rfl
  rw [if_pos h]
  dsimp only
  rw [ok, if_neg Bool.false_ne_true, live, if_neg Bool.false_ne_true]
  rfl

theorem Dev.judged_tile (d : Dev) (t got : Nat) (ok : Bool) : (d.judged t got ok).tile t = { d.tile t with
    readback := got, safeVerified := ok, safeFailed := !ok, reads := [none, none, none, none], readDue := 0 } :=
  (d.tile_onTile t t (fun y => { y with
    readback := got, safeVerified := ok, safeFailed := !ok, reads := [none, none, none, none], readDue := 0 })).trans (if_pos rfl)

theorem Dev.pathReport_frame (d : Dev) (t : Nat) (pathBad : Bool) :
    d.pathReport t pathBad = { d with keep := (d.pathReport t pathBad).keep } ∧
    ∀ m ∈ d.keep.transit, m ∈ (d.pathReport t pathBad).keep.transit := by
  unfold Dev.pathReport
  split
  · exact ⟨rfl, fun m hm => by simp [hm]⟩
  · exact ⟨rfl, fun _ h => h⟩

theorem Dev.pathReport_tile (d : Dev) (t x : Nat) (pathBad : Bool) : (d.pathReport t pathBad).tile x = d.tile x := by
  rw [(d.pathReport_frame t pathBad).1]
  rfl

theorem Dev.roundCheck_tile (d : Dev) (x : Nat) : d.roundCheck.tile x = d.tile x := by
  rw [d.roundCheck_frame]
  rfl

theorem Dev.roundCheck_keep (d : Dev) : d.roundCheck.keep = d.keep := by rw [d.roundCheck_frame]

theorem Dev.roundCheck_test (d : Dev) : d.roundCheck.test = d.test := by rw [d.roundCheck_frame]

theorem Dev.roundCheck_passes (d : Dev) : d.roundCheck.arr.passes = d.arr.passes := by
  unfold Dev.roundCheck
  split <;> rfl

namespace PassStep

theorem judged (s : State) (t got : Nat) (ok : Bool) : PassStep s (s.onDev (fun d => d.judged t got ok)) := onTile ..

theorem startDone (s : State) (b : Dev → Bool) :
    PassStep s (s.onDev (fun d => d.onArr (fun a => { a with startDone := a.startDone || b d }))) := onDev s _ rfl rfl

theorem roundCheck (s : State) : PassStep s (s.onDev (fun d => d.roundCheck)) :=
  onDev s _ (by rw [Dev.roundCheck_frame]) s.dev.roundCheck_passes

theorem pathReport (s : State) (t : Nat) (pathBad : Bool) : PassStep s (s.onDev (fun d => d.pathReport t pathBad)) := by
  obtain ⟨frame, -⟩ := s.dev.pathReport_frame t pathBad
  exact onDev s _ (by rw [frame]) (by rw [frame])

theorem joinMask (s : State) (t : Nat) : PassStep s (s.onDev (fun d => d.joinMask t)) := by
  unfold Dev.joinMask Dev.exclude
  refine onDev s _ ?_ ?_
  · split
    · split <;> rfl
    · rfl
  · split
    · split <;> rfl
    · rfl

end PassStep

/-- The tile is in the exclusion mask, or will be once the clock of the leading-light control runs; its verdict stands (R16). -/
theorem Dev.joinMask_spec (d : Dev) (t : Nat) : (d.joinMask t).keep = d.keep ∧
    (∃ x, (d.joinMask t).tile t = { d.tile t with excluded := x }) ∧
    (d.keeperRuns = true → ((d.joinMask t).tile t).excluded = true) ∧
    (d.keeperRuns = false → (d.joinMask t).test.later = d.test.later ++ [.exclude t]) := by
  unfold Dev.joinMask
  split
  · next hk =>
    have tile := d.exclude_tile t
    exact ⟨(KeepsChanger.exclude d t).keep, ⟨true, tile⟩, fun _ => by rw [tile], fun h => absurd (hk.symm.trans h) (by decide)⟩
  · next hk => exact ⟨rfl, ⟨_, rfl⟩, fun h => absurd h hk, fun _ => rfl⟩

/-- A match: the mask of the tile is verified (R51). -/
def Dev.readMatches (d : Dev) (t got : Nat) (pathBad : Bool) : Dev :=
  ((d.judged t got true).onArr (fun a =>
    { a with startDone := a.startDone || ((d.judged t got true).inStart && (d.judged t got true).startVerified) })).roundCheck.pathReport
      t pathBad

/-- A mismatch in RUN: the tile joins the exclusion mask, and message 0x07 reports it (R51). -/
def Dev.readDiffers (d : Dev) (t got : Nat) (pathBad : Bool) : Dev :=
  ((((d.judged t got false).joinMask t).send t 0x07 1 got).roundCheck).pathReport t pathBad

theorem Dev.pathReport_test (d : Dev) (t : Nat) (pathBad : Bool) : (d.pathReport t pathBad).test = d.test := by
  rw [(d.pathReport_frame t pathBad).1]

theorem Dev.pathReport_transit {d : Dev} (t : Nat) (pathBad : Bool) {m : Msg} (h : m ∈ d.keep.transit) :
    m ∈ (d.pathReport t pathBad).keep.transit :=
  (d.pathReport_frame t pathBad).2 m h

theorem Dev.onArr_tile (d : Dev) (f : Arr → Arr) (x : Nat) : (d.onArr f).tile x = d.tile x := rfl

theorem Dev.send_tile (d : Dev) (source kind sev addr x : Nat) : (d.send source kind sev addr).tile x = d.tile x := rfl

theorem State.readMatches_eq (s : State) (t got : Nat) (pathBad : Bool) (hdr : List HdrErr)
    (hall : (s.dev.tile t).reads.all Option.isSome = true) (hgot : (s.dev.tile t).gotCrc t = got) (hok : got = s.dev.safeExpected t) :
    s.readbackVerdict t pathBad hdr = s.onDev (fun d => d.readMatches t got pathBad) := by
  rw [s.readbackVerdict_matches t pathBad hdr hall (hgot.trans hok), hgot]
  simp only [State.onDev_onDev, Dev.readMatches]

theorem State.readDiffers_eq (s : State) (t got : Nat) (pathBad : Bool) (hdr : List HdrErr) (hrun : s.dev.frm.ticked = true)
    (hall : (s.dev.tile t).reads.all Option.isSome = true) (hgot : (s.dev.tile t).gotCrc t = got) (hok : got ≠ s.dev.safeExpected t) :
    s.readbackVerdict t pathBad hdr = s.onDev (fun d => d.readDiffers t got pathBad) := by
  rw [s.readbackVerdict_differs t pathBad hdr hall (by rw [hgot]; exact hok) hrun, hgot]
  simp only [State.onDev_onDev, Dev.readDiffers]

theorem PassStep.readMatches (s : State) (t got : Nat) (pathBad : Bool) : PassStep s (s.onDev (fun d => d.readMatches t got pathBad)) := by
  have step := (PassStep.judged s t got true).trans (((PassStep.startDone _ (fun d => d.inStart && d.startVerified)).trans
    (.roundCheck _)).trans (.pathReport _ t pathBad))
  simp only [State.onDev_onDev] at step
  simpa only [Dev.readMatches] using step

theorem PassStep.readDiffers (s : State) (t got : Nat) (pathBad : Bool) : PassStep s (s.onDev (fun d => d.readDiffers t got pathBad)) := by
  have step := (PassStep.judged s t got false).trans ((((PassStep.joinMask _ t).trans
    (.onDev _ (fun d => d.send t 0x07 1 got) rfl rfl)).trans (.roundCheck _)).trans (.pathReport _ t pathBad))
  simp only [State.onDev_onDev] at step
  simpa only [Dev.readDiffers] using step

theorem Dev.readMatches_tile (d : Dev) (t got : Nat) (pathBad : Bool) : (d.readMatches t got pathBad).tile t = { d.tile t with
    readback := got, safeVerified := true, safeFailed := false, reads := [none, none, none, none], readDue := 0 } := by
  rw [Dev.readMatches, Dev.pathReport_tile, Dev.roundCheck_tile, Dev.onArr_tile, Dev.judged_tile]
  rfl

/-- The verdict of a mismatch stands, its message is on its way, and its exclusion done or held for the KEEP clock (R16, R51). -/
theorem Dev.readDiffers_spec (d : Dev) (t got : Nat) (pathBad : Bool) :
    (∃ x, (d.readDiffers t got pathBad).tile t = { d.tile t with
      readback := got, safeVerified := false, safeFailed := true, reads := [none, none, none, none], readDue := 0, excluded := x }) ∧
    mkMsg t 0x07 1 got ∈ (d.readDiffers t got pathBad).keep.transit ∧
    (d.keeperRuns = true → ((d.readDiffers t got pathBad).tile t).excluded = true) ∧
    (d.keeperRuns = false → (d.readDiffers t got pathBad).test.later = d.test.later ++ [.exclude t]) := by
  obtain ⟨-, ⟨x, tile⟩, now, later⟩ := (d.judged t got false).joinMask_spec t
  have utile : (d.readDiffers t got pathBad).tile t = ((d.judged t got false).joinMask t).tile t := by
    rw [Dev.readDiffers, Dev.pathReport_tile, Dev.roundCheck_tile, Dev.send_tile]
  have utest : (d.readDiffers t got pathBad).test = ((d.judged t got false).joinMask t).test := by
    rw [Dev.readDiffers, Dev.pathReport_test, Dev.roundCheck_test, Dev.send_test]
  refine ⟨⟨x, ?_⟩, ?_, fun h => ?_, fun h => ?_⟩
  · rw [utile, tile, Dev.judged_tile]
    rfl
  · rw [Dev.readDiffers]
    refine Dev.pathReport_transit t pathBad ?_
    rw [Dev.roundCheck_keep, Dev.send_keep]
    exact List.mem_append_right _ (List.mem_singleton_self _)
  · rw [utile]
    exact now h
  · rw [utest]
    exact later h

/-- The verdict on the tile whose four READ passes have returned in RUN: a match verifies the mask, a mismatch excludes the tile, once
the clock of the leading-light control runs, and is reported (R16, R51). -/
theorem State.readbackVerdict_run (s : State) (t got : Nat) (pathBad : Bool) (hdr : List HdrErr) (hrun : s.dev.frm.ticked = true)
    (hall : (s.dev.tile t).reads.all Option.isSome = true) (hgot : (s.dev.tile t).gotCrc t = got) :
    ∃ f : Dev → Dev, s.readbackVerdict t pathBad hdr = s.onDev f ∧ PassStep s (s.onDev f) ∧
      (∃ x, (f s.dev).tile t = { s.dev.tile t with
        readback := got, safeVerified := decide (got = s.dev.safeExpected t), safeFailed := decide (got ≠ s.dev.safeExpected t)
        reads := [none, none, none, none], readDue := 0, excluded := x }) ∧
      (got ≠ s.dev.safeExpected t → mkMsg t 0x07 1 got ∈ (f s.dev).keep.transit ∧
        (s.dev.keeperRuns = true → ((f s.dev).tile t).excluded = true) ∧
        (s.dev.keeperRuns = false → (f s.dev).test.later = s.dev.test.later ++ [.exclude t])) := by
  by_cases hok : got = s.dev.safeExpected t
  · refine ⟨_, s.readMatches_eq t got pathBad hdr hall hgot hok, .readMatches s t got pathBad, ⟨(s.dev.tile t).excluded, ?_⟩,
      fun h => absurd hok h⟩
    rw [Dev.readMatches_tile, decide_eq_true hok, decide_eq_false (not_not.mpr hok)]
  · obtain ⟨⟨x, tile⟩, sends, now, later⟩ := s.dev.readDiffers_spec t got pathBad
    refine ⟨_, s.readDiffers_eq t got pathBad hdr hrun hall hgot hok, .readDiffers s t got pathBad, ⟨x, ?_⟩,
      fun _ => ⟨sends, now, later⟩⟩
    rw [tile, decide_eq_false hok, decide_eq_true hok]

/-- A READ pass applies nothing (R38). -/
theorem State.applyPass_read (s : State) (t k : Nat) (got : List Nat) :
    (∀ q, (s.applyPass t k 5 got).cell q = s.cell q) ∧ (s.applyPass t k 5 got).dev.tile t = s.dev.tile t := by
  refine ⟨fun q => ?_, ?_⟩
  · rw [State.applyPass_cell, State.applyPayloads_cell_read]
  · obtain ⟨left, tile⟩ := s.applyPass_tile t k 5 got
    rw [tile]
    rfl

theorem Dev.recordRead_tile (d : Dev) (t k : Nat) (b : List Bool) : (d.recordRead t k b).tile t = { d.tile t with
    reads := setNth (d.tile t).reads k (some b), readDue := (d.tile t).readDue &&& ~~~(1#4 <<< k) } :=
  (d.tile_onTile t t _).trans (if_pos rfl)

theorem PassStep.recordRead (s : State) (t k : Nat) (b : List Bool) : PassStep s (s.onDev (fun d => d.recordRead t k b)) := onTile ..

theorem State.readEnds_good (s : State) (t k : Nat) (p : Pass) (err : PassErr) (hr : p.purpose = .readback) (hv : p.void = false)
    (hg : p.good t err = true) (ho : p.retOk t err = true) : s.readEnds t k p err =
      (s.onDev (fun d => d.recordRead t k (safeBits (p.came err)))).readbackVerdict t err.pathBad err.hdr := by
  rw [State.readEnds, hv, hr, hg, ho]
  rfl

end Sys2Proof.Machine

namespace Sys2Proof.Proofs

open Sys2Proof Sys2Proof.Machine Sys2Proof.Claims

theorem exec_passApply {s : State} {t k : Nat} {p : Pass} (err : PassErr) (h : Ends s t k p) : exec (.passApply t k err) s =
    .next ((((((s.passGone t k).inbound t k p err).outbound t k p err).readEnds t k p err).afterStartPass t p.purpose
      err.hdr).onDev (fun d => d.chainEnded (t / 24))) := by
  obtain ⟨hon, -, -, hp, -⟩ := h
  exact congrArg _ (s.endPass_eq t k err p hon hp)

theorem op_of_ends {s : State} {t k : Nat} {p : Pass} (h : Ends s t k p) : p.op = p.purpose.op := by
  obtain ⟨-, -, -, -, -, hop, -⟩ := h
  exact hop

theorem inOk_iff (p : Pass) (t : Nat) (err : PassErr) : p.inOk t err = true ↔ InboundOk t p err := beq_iff_eq

theorem retOk_iff (p : Pass) (t : Nat) (err : PassErr) : p.retOk t err = true ↔ ReturnOk t p err := beq_iff_eq

/-- Steps that follow the departure of a pass start none on its chain. -/
theorem passLeft_of_passStep {s x : State} {t k : Nat} (ty : Nat) (h : PassStep (s.passGone t k) x) :
    PassLeft s (x.onDev (fun d => d.chainEnded ty)) t k := by
  obtain ⟨pending, otp, mem, lat⟩ := h.stores
  exact ⟨h.idle t k (s.passGone_idle t k), mem, otp, lat, pending⟩

/-! ### Passes that arrive undisturbed -/

/-- The cells of a chain whose pass arrives undisturbed take the payloads sent to them (R38, R42). -/
theorem applies_undisturbed {s u : State} {t k : Nat} {p : Pass} {err : PassErr} {f : Cell → BitVec 16 → Cell} (h : Ends s t k p)
    (hi : err.inb = []) (hf : ∀ c w, Cell.apply c p.op w.toNat = f c w)
    (hu : ∀ q, u.cell q = ((s.passGone t k).applyPayloads t k p.op (p.received err)).cell q) : Applies s u t k p f := by
  obtain ⟨-, -, -, -, -, -, hlen⟩ := h
  have hgot : (p.received err).length = 1408 := by rw [p.received_undisturbed err hi]; simp [hlen]
  refine ⟨fun j hj => ?_, fun q hq => ?_⟩
  · rw [hu, State.applyPayloads_cell_on _ t k p.op j _ hgot hj, p.nth_received err hi j (by rw [hlen]; exact hj), bits_word, hf]
    rfl
  · rw [hu, State.applyPayloads_cell_off _ t k p.op q _ hgot hq]
    rfl

/-- A good pass of DRIVE, TRIM or ISOLATE: what its cells and its tile take, whatever comes back (R42, R43, R45). -/
theorem goodPass_ends {s : State} {t k : Nat} {p : Pass} {err : PassErr} (h : Ends s t k p) (hg : p.good t err = true)
    (hs : p.purpose ≠ .safe) (hr : p.purpose ≠ .readback) (P : State → Prop)
    (hP : ∀ u left, (∀ q, u.cell q = ((s.passGone t k).applyPayloads t k p.op (p.received err)).cell q) →
      (∃ n, u.dev.tile t = { (s.dev.tile t).applied p.op k left with returnFail := n }) → PassLeft s u t k → P u) :
    Next (.passApply t k err) s P := by
  have run := exec_passApply err h
  have good : (s.passGone t k).inbound t k p err = (s.passGone t k).applyPass t k p.op (p.received err) := if_pos hg
  rw [good, State.readEnds_other _ t k p err hr, State.afterStartPass_drive _ t _ _ hs hr] at run
  refine ⟨_, run, ?_⟩
  obtain ⟨left, tile⟩ := (s.passGone t k).applyPass_tile t k p.op (p.received err)
  have step := (PassStep.applyPass (s.passGone t k) t k p.op (p.received err)).trans (.outbound _ t k p err)
  obtain ⟨n, back⟩ := ((s.passGone t k).applyPass t k p.op (p.received err)).outbound_tile t k p err
  rw [tile] at back
  refine hP _ left (fun q => ?_) ⟨n, back⟩ (passLeft_of_passStep (t / 24) step)
  exact (State.outbound_cell _ t k q p err).trans (State.applyPass_cell ..)

theorem payload_bit (w : BitVec 16) : bit w.toNat 0 = w.getLsbD 0 := by
  simp only [bit, Nat.pow_zero, Nat.div_one, BitVec.getLsbD, Nat.testBit_zero]
  rfl

theorem getLsbD_or_one (x : BitVec 4) (k : Nat) (hk : k < 4) : (x ||| (1#4 <<< k)).getLsbD k = true := by
  simp [hk]

theorem getLsbD_and_not_one (x : BitVec 4) (k : Nat) (hk : k < 4) : (x &&& ~~~(1#4 <<< k)).getLsbD k = false := by
  simp [hk]

theorem drivePass_clause {s : State} {t k : Nat} {p : Pass} {err : PassErr} (h : Ends s t k p) (hi : err.inb = [])
    (hg : p.good t err = true) (hp : p.purpose = .drive) : Next (.passApply t k err) s (fun u =>
      Applies s u t k p (fun c w => { c with shadow := w }) ∧ (u.dev.tile t).drive.getLsbD k = true ∧ PassLeft s u t k) := by
  have hop : p.op = 1 := (op_of_ends h).trans (by rw [hp]; rfl)
  obtain ⟨-, -, hk, -⟩ := id h
  refine goodPass_ends h hg (by rw [hp]; nofun) (by rw [hp]; nofun) _ (fun u left cells ⟨n, tile⟩ gone => ⟨?_, ?_, gone⟩)
  · refine applies_undisturbed h hi (fun c w => ?_) cells
    rw [hop]
    exact congrArg (fun x => { c with shadow := x }) (BitVec.ofNat_toNat 16 w |>.trans (BitVec.setWidth_eq w))
  · rw [tile, hop]
    exact getLsbD_or_one _ k hk

theorem trimPass_clause {s : State} {t k : Nat} {p : Pass} {err : PassErr} (h : Ends s t k p) (hi : err.inb = [])
    (hg : p.good t err = true) (hp : p.purpose = .trim) : Next (.passApply t k err) s (fun u =>
      Applies s u t k p (fun c w => { c with shadowTrim := w.setWidth 12 }) ∧
      (u.dev.tile t).trim.getLsbD k = true ∧ (u.dev.tile t).trimDue.getLsbD k = false ∧ PassLeft s u t k) := by
  have hop : p.op = 2 := (op_of_ends h).trans (by rw [hp]; rfl)
  obtain ⟨-, -, hk, -⟩ := id h
  refine goodPass_ends h hg (by rw [hp]; nofun) (by rw [hp]; nofun) _ (fun u left cells ⟨n, tile⟩ gone => ⟨?_, ?_, ?_, gone⟩)
  · refine applies_undisturbed h hi (fun c w => ?_) cells
    rw [hop]
    exact congrArg (fun x => { c with shadowTrim := x }) (BitVec.ofNat_toNat 12 w)
  · rw [tile, hop]
    exact getLsbD_or_one _ k hk
  · rw [tile, hop]
    exact getLsbD_and_not_one _ k hk

theorem isolatePass_clause {s : State} {t k : Nat} {p : Pass} {err : PassErr} (h : Ends s t k p) (hi : err.inb = [])
    (hg : p.good t err = true) (hp : p.purpose = .isolate) : Next (.passApply t k err) s (fun u =>
      Applies s u t k p (fun c w => { c with isolate := c.isolate || w.getLsbD 0 }) ∧ PassLeft s u t k) := by
  have hop : p.op = 3 := (op_of_ends h).trans (by rw [hp]; rfl)
  refine goodPass_ends h hg (by rw [hp]; nofun) (by rw [hp]; nofun) _ (fun u left cells _ gone => ⟨?_, gone⟩)
  refine applies_undisturbed h hi (fun c w => ?_) cells
  rw [hop]
  exact congrArg (fun x => { c with isolate := c.isolate || x }) (payload_bit w)

/-- A good TRIM pass needs its masks valid besides (R43). -/
theorem good_of_masks {t : Nat} {p : Pass} {err : PassErr} (hi : err.inb = []) (hin : p.inOk t err = true)
    (masks : ∀ w ∈ p.data, popcount 12 w.toNat = 10 ∧ bits w.toNat 12 4 = 0) : p.good t err = true := by
  have valid : (p.received err).all (fun e => popcount 12 e == 10 && bits e 12 4 == 0) = true := by
    rw [p.received_undisturbed err hi, List.all_eq_true]
    intro e he
    obtain ⟨w, hw, rfl⟩ := List.mem_map.mp he
    obtain ⟨ten, high⟩ := masks w (List.mem_reverse.mp hw)
    simp [ten, high]
  rw [Pass.good, hin, valid, Bool.or_true, Bool.and_true]

/-- What a cell drives and may be driven with, its safe bit apart, is the same (R30). -/
def SameDrive (c c' : Cell) : Prop :=
  c'.active = c.active ∧ c'.shadow = c.shadow ∧ c'.trim = c.trim ∧ c'.shadowTrim = c.shadowTrim ∧ c'.isolate = c.isolate

theorem SameDrive.trans {a b c : Cell} (h : SameDrive a b) (h' : SameDrive b c) : SameDrive a c := by
  obtain ⟨active, shadow, trim, shadowTrim, isolate⟩ := h
  obtain ⟨active', shadow', trim', shadowTrim', isolate'⟩ := h'
  exact ⟨active'.trans active, shadow'.trans shadow, trim'.trans trim, shadowTrim'.trans shadowTrim, isolate'.trans isolate⟩

/-- A SAFE pass sets the safe bits of its chain and nothing else of any cell (R38, R49, R52). -/
theorem safePass_clause {s : State} {t k : Nat} {p : Pass} {err : PassErr} (h : Ends s t k p) (hi : err.inb = [])
    (hg : p.good t err = true) (hp : p.purpose = .safe) : Next (.passApply t k err) s (fun u =>
        (∀ j, j < 1408 → (u.cell (pixelOnChain t k j)).safe = (nth 0 p.data j).getLsbD 0) ∧
        (∀ q, (∀ j, j < 1408 → q ≠ pixelOnChain t k j) → (u.cell q).safe = (s.cell q).safe) ∧
        (∀ q, (u.cell q).active = (s.cell q).active ∧ (u.cell q).shadow = (s.cell q).shadow ∧ (u.cell q).trim = (s.cell q).trim ∧
          (u.cell q).shadowTrim = (s.cell q).shadowTrim ∧ (u.cell q).isolate = (s.cell q).isolate) ∧
        u.mem = s.mem ∧ u.otp = s.otp ∧ u.lat = s.lat ∧ u.pending = s.pending) := by
  have hop : p.op = 4 := (op_of_ends h).trans (by rw [hp]; rfl)
  have run := exec_passApply err h
  have good : (s.passGone t k).inbound t k p err = (s.passGone t k).applyPass t k p.op (p.received err) := if_pos hg
  rw [good, State.readEnds_other _ t k p err (by rw [hp]; nofun)] at run
  have step := (PassStep.passGone s t k).trans
    ((PassStep.applyPass (s.passGone t k) t k p.op (p.received err)).trans (.outbound _ t k p err))
  generalize hy : ((s.passGone t k).applyPass t k p.op (p.received err)).outbound t k p err = y at run step
  have applies : Applies s y t k p (fun c w => { c with safe := w.getLsbD 0 }) := by
    refine applies_undisturbed h hi (fun c w => ?_) (fun q => ?_)
    · rw [hop]
      exact congrArg (fun x => { c with safe := x }) (payload_bit w)
    · rw [← hy]
      exact (State.outbound_cell _ t k q p err).trans (State.applyPass_cell ..)
  obtain ⟨on, off⟩ := applies
  have after := OnlyPasses.afterStartPass y t p.purpose err.hdr
  obtain ⟨pending, otp, mem, lat⟩ := step.stores
  obtain ⟨pending', otp', mem', lat'⟩ := after.stores
  have fields : ∀ q, ((y.afterStartPass t p.purpose err.hdr).cell q).safe = (y.cell q).safe ∧
      SameDrive (y.cell q) ((y.afterStartPass t p.purpose err.hdr).cell q) := by
    intro q
    rcases after.cells q with e | e <;> rw [e] <;> exact ⟨rfl, rfl, rfl, rfl, rfl, rfl⟩
  have kept : ∀ q, SameDrive (s.cell q) (y.cell q) := by
    intro q
    by_cases hq : ∃ j, j < 1408 ∧ q = pixelOnChain t k j
    · obtain ⟨j, hj, rfl⟩ := hq
      rw [on j hj]
      exact ⟨rfl, rfl, rfl, rfl, rfl⟩
    · rw [off q (fun j hj e => hq ⟨j, hj, e⟩)]
      exact ⟨rfl, rfl, rfl, rfl, rfl⟩
  refine ⟨_, run, fun j hj => ?_, fun q hq => ?_, fun q => (kept q).trans (fields q).2, mem'.trans mem, otp'.trans otp, lat'.trans lat,
    pending'.trans pending⟩
  · exact (fields _).1.trans (by rw [on j hj])
  · exact (fields q).1.trans (by rw [off q hq])

/-! ### Passes that fail in RUN -/

theorem raises_one {s t : State} {n : Nat} (h : t.dev.evt = s.dev.evt.raise n) (hn : reservedEvent n = false) : Raises s t [n] :=
  raises_of_evt (by rw [List.forall_mem_singleton]; exact hn) h

theorem op_ne_two {s : State} {t k : Nat} {p : Pass} (h : Ends s t k p) (hp : p.purpose ≠ .trim) : p.op ≠ 2 := by
  rw [op_of_ends h]
  cases hpu : p.purpose with
  | trim => exact absurd hpu hp
  | _ => decide

/-- In RUN a pass whose inbound CRC fails applies nothing and is reported (R42, R51, R454). -/
theorem inboundFails_clause {s : State} {t k : Nat} {p : Pass} {err : PassErr} (h : Ends s t k p)
    (hrun : s.dev.frm.ticked = true) (hin : ¬ InboundOk t p err) (hret : ReturnOk t p err) : Next (.passApply t k err) s (fun u =>
      u.cells = s.cells ∧ PassLeft s u t k ∧ Raises s u [78] ∧ Sends s u [mkMsg t 0x02 1 (t * 4 + k)] ∧
      (u.dev.tile t).crcFail = Nat.min 255 ((s.dev.tile t).crcFail + 1) ∧ u.dev.arr.passFail = Nat.min 65535 (s.dev.arr.passFail + 1) ∧
      (u.dev.tile t).drive = (s.dev.tile t).drive ∧ (u.dev.tile t).trim = (s.dev.tile t).trim ∧
      (p.purpose = .readback → p.void = false → (u.dev.tile t).readDue = 15 ∧ (u.dev.tile t).reads = [none, none, none, none])) := by
  have run := exec_passApply err h
  have bad : p.good t err = false := by
    have : p.inOk t err = false := by rw [← Bool.not_eq_true, inOk_iff]; exact hin
    rw [Pass.good, this, Bool.false_and]
  have inbound : (s.passGone t k).inbound t k p err = (s.passGone t k).onDev (fun d => d.failInbound t k) :=
    if_neg (by rw [bad]; exact Bool.false_ne_true)
  obtain ⟨g, outbound⟩ :=
    ((s.passGone t k).onDev (fun d => d.failInbound t k)).outbound_good t k p err ((retOk_iff p t err).mpr hret)
  rw [State.onDev_onDev] at outbound
  have step := (PassStep.inbound (s.passGone t k) t k p err).trans (.outbound _ t k p err)
  have tile := (s.passGone t k).dev.failInbound_tile t k
  rw [inbound, outbound] at run step
  generalize hy : (s.passGone t k).onDev (fun d => { d.failInbound t k with diag := g }) = y at run step
  have ytile : y.dev.tile t = { s.dev.tile t with crcFail := satInc 255 (s.dev.tile t).crcFail } := by rw [← hy]; exact tile
  have yrun : y.dev.frm.ticked = true := by rw [← hy]; exact hrun
  obtain ⟨u, ends, ustep, cells, evt, keep, fail, ⟨reads, due, utile⟩, again⟩ := y.readEnds_bad_run t k p err bad yrun
  have urun : u.dev.frm.ticked = true := by rw [ustep.dev]; exact yrun
  rw [ends, u.afterStartPass_run t _ _ urun] at run
  rw [ytile] at utile
  refine ⟨_, run, ?_, passLeft_of_passStep (t / 24) (step.trans ustep), ?_, ?_, ?_, ?_, ?_, ?_, again⟩
  · rw [State.onDev_cells, cells, ← hy, State.onDev_cells, State.passGone_cells]
  · refine raises_one ?_ rfl
    rw [State.onDev_dev, Dev.chainEnded_evt, evt, ← hy, State.onDev_dev, Dev.failInbound_evt, State.passGone_evt]
  · rw [Sends, State.onDev_dev, Dev.chainEnded_keep, keep, ← hy, State.onDev_dev, Dev.failInbound_keep, State.passGone_keep]
  · rw [State.onDev_dev, Dev.chainEnded_tile, utile]
    exact satInc_eq_min ..
  · rw [State.onDev_dev, Dev.chainEnded_arr, fail, ← hy, State.onDev_dev, Dev.failInbound_passFail, State.passGone_passFail]
    exact satInc_eq_min ..
  · rw [State.onDev_dev, Dev.chainEnded_tile, utile]
  · rw [State.onDev_dev, Dev.chainEnded_tile, utile]

/-- One whose return CRC fails applies, and its statuses are not forwarded (R43, R454). -/
theorem returnFails_clause {s : State} {t k : Nat} {p : Pass} {err : PassErr} (h : Ends s t k p)
    (hrun : s.dev.frm.ticked = true) (hin : InboundOk t p err) (htrim : p.purpose ≠ .trim) (hread : p.purpose ≠ .readback)
    (hret : ¬ ReturnOk t p err) : Next (.passApply t k err) s (fun u =>
      PassLeft s u t k ∧ Raises s u [78] ∧ Sends s u [mkMsg t 0x03 0 (t * 4 + k)] ∧
        (u.dev.tile t).returnFail = Nat.min 255 ((s.dev.tile t).returnFail + 1) ∧
        u.dev.arr.passFail = Nat.min 65535 (s.dev.arr.passFail + 1) ∧ u.dev.diag = s.dev.diag) := by
  have run := exec_passApply err h
  have good := p.good_of_inOk t err ((inOk_iff p t err).mpr hin) (op_ne_two h htrim)
  have inbound : (s.passGone t k).inbound t k p err = (s.passGone t k).applyPass t k p.op (p.received err) := if_pos good
  have outbound := ((s.passGone t k).applyPass t k p.op (p.received err)).outbound_bad t k p err (by
    rw [← Bool.not_eq_true, retOk_iff]; exact hret)
  have step := (PassStep.inbound (s.passGone t k) t k p err).trans (.outbound _ t k p err)
  obtain ⟨left, tile⟩ := (s.passGone t k).applyPass_tile t k p.op (p.received err)
  obtain ⟨tiles, ledg, dev⟩ := (s.passGone t k).applyPass_dev t k p.op (p.received err)
  rw [State.readEnds_other _ t k p err hread, inbound, outbound] at run
  rw [inbound, outbound] at step
  generalize (s.passGone t k).applyPass t k p.op (p.received err) = y at run step tile dev
  have yrun : (y.onDev (fun d => d.failReturn t k)).dev.frm.ticked = true := by
    rw [step.dev]; exact hrun
  rw [State.afterStartPass_run _ t _ _ yrun] at run
  have ytile := y.dev.failReturn_tile t k
  refine ⟨_, run, passLeft_of_passStep (t / 24) step, ?_, ?_, ?_, ?_, ?_⟩
  · refine raises_one ?_ rfl
    rw [State.onDev_dev, Dev.chainEnded_evt, State.onDev_dev, Dev.failReturn_evt, dev, ← s.passGone_evt t k]
  · rw [Sends, State.onDev_dev, Dev.chainEnded_keep, State.onDev_dev, Dev.failReturn_keep, dev, ← s.passGone_keep t k]
  · rw [State.onDev_dev, Dev.chainEnded_tile, State.onDev_dev, ytile, tile, Tile.applied_returnFail]
    exact satInc_eq_min ..
  · rw [State.onDev_dev, Dev.chainEnded_arr, State.onDev_dev, Dev.failReturn_passFail, dev, ← s.passGone_passFail t k]
    exact satInc_eq_min ..
  · rw [State.onDev_dev, Dev.chainEnded_diag, State.onDev_dev, Dev.failReturn_diag, dev, ← s.passGone_diag t k]

/-! ### READ passes in RUN (R51, R320) -/

/-- The state in which a good READ is judged: nothing is applied, its statuses are forwarded and its safe bits recorded (R42, R51). -/
theorem goodRead_recorded {s : State} {t k : Nat} {p : Pass} {err : PassErr} (h : Ends s t k p) (hr : p.purpose = .readback)
    (hv : p.void = false) (hin : InboundOk t p err) (ho : err.out = []) (ht : err.outTrailer = 0) :
    ∃ y, PassStep (s.passGone t k) y ∧ (∀ q, y.cell q = s.cell q) ∧ y.dev.test = s.dev.test ∧ y.dev.keep = s.dev.keep ∧
      y.dev.tile t = { s.dev.tile t with
        reads := setNth (s.dev.tile t).reads k (some (safeBits (p.captured.reverse.map (·.toNat))))
        readDue := (s.dev.tile t).readDue &&& ~~~(1#4 <<< k) } ∧
      exec (.passApply t k err) s =
        .next (((y.readbackVerdict t err.pathBad err.hdr).afterStartPass t p.purpose err.hdr).onDev (fun d => d.chainEnded (t / 24))) := by
  have run := exec_passApply err h
  have hop : p.op = 5 := (op_of_ends h).trans (by rw [hr]; rfl)
  obtain ⟨-, -, -, -, sent, -⟩ := id h
  have good := p.good_of_inOk t err ((inOk_iff p t err).mpr hin) (by rw [hop]; decide)
  have back := Pass.retOk_undisturbed p t err sent ho ht
  have inbound : (s.passGone t k).inbound t k p err = (s.passGone t k).applyPass t k 5 (p.received err) :=
    (if_pos good).trans (by rw [hop])
  obtain ⟨cells, tile⟩ := (s.passGone t k).applyPass_read t k (p.received err)
  obtain ⟨tiles, ledg, dev⟩ := (s.passGone t k).applyPass_dev t k 5 (p.received err)
  have step := PassStep.applyPass (s.passGone t k) t k 5 (p.received err)
  rw [inbound] at run
  generalize (s.passGone t k).applyPass t k 5 (p.received err) = x at run step tile dev cells
  obtain ⟨g, outbound⟩ := x.outbound_good t k p err back
  have outStep := PassStep.outbound x t k p err
  rw [outbound] at run outStep
  rw [State.readEnds_good _ t k p err hr hv good back, Pass.came_undisturbed p err ho] at run
  refine ⟨_, step.trans (outStep.trans (.recordRead _ t k _)), fun q => ?_, ?_, ?_, ?_, run⟩
  · rw [State.onDev_cell, State.onDev_cell, cells]
    rfl
  · rw [State.onDev_dev, Dev.recordRead, Dev.onTile_test, State.onDev_dev, dev]
    rfl
  · rw [State.onDev_dev, Dev.recordRead, Dev.onTile_keep, State.onDev_dev, dev]
    rfl
  · rw [State.onDev_dev, Dev.recordRead_tile, State.onDev_dev]
    have diag : ({ x.dev with diag := g } : Dev).tile t = s.dev.tile t := tile
    rw [diag]

theorem readPass_clause {s : State} {t k : Nat} {p : Pass} {err : PassErr} (h : Ends s t k p) (hrun : s.dev.frm.ticked = true)
    (hr : p.purpose = .readback) (hv : p.void = false) (hin : InboundOk t p err) (ho : err.out = []) (ht : err.outTrailer = 0)
    (reads : List (Option (List Bool)))
    (hreads : reads = setNth (s.dev.tile t).reads k (some (safeBits (p.captured.reverse.map (·.toNat))))) :
      Next (.passApply t k err) s (fun u => (∀ q, u.cell q = s.cell q) ∧ PassLeft s u t k ∧
        (reads.all Option.isSome = false → (u.dev.tile t).reads = reads ∧ (u.dev.tile t).readDue.getLsbD k = false) ∧
        (reads.all Option.isSome = true → ∃ got, got = safeCrc t (packBits (reads.flatMap (fun o => o.getD []))) ∧
          (u.dev.tile t).readback = got ∧ (u.dev.tile t).readDue = 0 ∧ (u.dev.tile t).reads = [none, none, none, none] ∧
          (u.dev.tile t).safeVerified = decide (got = s.dev.safeExpected t) ∧
          (u.dev.tile t).safeFailed = decide (got ≠ s.dev.safeExpected t) ∧
          (got ≠ s.dev.safeExpected t → mkMsg t 0x07 1 got ∈ u.dev.keep.transit ∧
            (s.dev.keeperRuns = true → (u.dev.tile t).excluded = true) ∧
            (s.dev.keeperRuns = false → u.dev.test.later = s.dev.test.later ++ [.exclude t])))) := by
  obtain ⟨-, -, hk, -⟩ := id h
  obtain ⟨y, step, cells, test, keep, tile, run⟩ := goodRead_recorded h hr hv hin ho ht
  rw [← hreads] at tile
  have yrun : y.dev.frm.ticked = true := by rw [step.dev]; exact hrun
  have yreads : (y.dev.tile t).reads = reads := by rw [tile]
  cases hall : reads.all Option.isSome with
  | false =>
    rw [y.readbackVerdict_waits t _ _ (by rw [yreads]; exact hall), y.afterStartPass_run t _ _ yrun] at run
    refine ⟨_, run, fun q => (State.onDev_cell ..).trans (cells q), passLeft_of_passStep (t / 24) step,
      fun _ => ⟨yreads, ?_⟩, nofun⟩
    have due : (y.dev.tile t).readDue = (s.dev.tile t).readDue &&& ~~~(1#4 <<< k) := by rw [tile]
    exact (congrArg (fun b => b.getLsbD k) due).trans (getLsbD_and_not_one _ k hk)
  | true =>
    have expected : y.dev.safeExpected t = s.dev.safeExpected t := by rw [step.dev]; rfl
    have keeper : y.dev.keeperRuns = s.dev.keeperRuns := by rw [Dev.keeperRuns, keep, step.dev]; rfl
    have ygot : (y.dev.tile t).gotCrc t = safeCrc t (packBits (reads.flatMap (fun o => o.getD []))) := by rw [Tile.gotCrc, yreads]
    obtain ⟨f, verdict, fstep, ⟨x, utile⟩, mismatch⟩ :=
      y.readbackVerdict_run t _ err.pathBad err.hdr yrun (by rw [yreads]; exact hall) ygot
    have urun : (y.onDev f).dev.frm.ticked = true := by rw [fstep.dev]; exact yrun
    rw [verdict, State.afterStartPass_run _ t _ _ urun] at run
    rw [expected] at utile mismatch
    rw [keeper, test] at mismatch
    refine ⟨_, run, fun q => ?_, passLeft_of_passStep (t / 24) (step.trans fstep), nofun, fun _ => ⟨_, rfl, ?_⟩⟩
    · rw [State.onDev_cell, State.onDev_cell]
      exact cells q
    generalize safeCrc t (packBits (reads.flatMap (fun o => o.getD []))) = got at utile mismatch
    generalize hz : y.onDev f = z at *
    have zdev : f y.dev = z.dev := by rw [← hz, State.onDev_dev]
    rw [zdev] at utile mismatch
    have after : (z.onDev (fun d => d.chainEnded (t / 24))).dev.tile t = z.dev.tile t := rfl
    rw [after, utile]
    exact ⟨rfl, rfl, rfl, rfl, rfl, fun hne => by rw [utile] at mismatch; exact mismatch hne⟩

/-- Settles O38: the end of a pass is the departure of the pass, what its inbound side does, what its return side does, what a READ
does for the readback and what follows in START, each with what it reaches. -/
theorem drivePassApplies : Obligations.DrivePassApplies := by
  unfold Obligations.DrivePassApplies
  intro s t k p err h
  obtain ⟨-, -, -, -, sent, -⟩ := id h
  refine ⟨fun hi ht => ?_, fun hrun hin hret => inboundFails_clause h hrun hin hret,
    fun hrun hin htrim hread hret => returnFails_clause h hrun hin htrim hread hret,
    fun hrun hr hv hin ho ht reads hreads => readPass_clause h hrun hr hv hin ho ht reads hreads⟩
  have inOk := p.inOk_undisturbed t err sent hi ht
  have good : p.purpose ≠ .trim → p.good t err = true := fun hp => p.good_of_inOk t err inOk (op_ne_two h hp)
  exact ⟨fun hp => drivePass_clause h hi (good (by rw [hp]; nofun)) hp,
    fun hp masks => trimPass_clause h hi (good_of_masks hi inOk masks) hp,
    fun hp => isolatePass_clause h hi (good (by rw [hp]; nofun)) hp, fun hp => safePass_clause h hi (good (by rw [hp]; nofun)) hp⟩

end Sys2Proof.Proofs

/-! ## The violations of the last 64 blocks (R192) -/

namespace Sys2Proof.Proofs

open Sys2Proof Sys2Proof.Machine Sys2Proof.Claims

/-- A lane that holds the counts of 65 blocks, the oldest of them 8. `Lane.count` keeps 64, so that no run of the model makes it; a state
of the model may hold it. -/
def overfullLane : Lane := { locked := true, recent := List.replicate 64 0 ++ [8] }

/-- The reset state with that lane as lane 0. -/
def overfull : State := State.reset.onDev (fun d => d.onLink (fun l => { l with lanes := [overfullLane] }))

theorem overfull_lane : overfull.dev.link.lane 0 = overfullLane := rfl

/-- With no block received since, the model judges by every count that the lane holds. -/
theorem overfull_loses : overfull.dev.link.loses 0 (.violations []) = true := by
  simp only [Link.loses, overfull_lane]
  decide

/-- The 64 newest of those counts are 0. -/
theorem overfull_newest : sumNat (overfullLane.recent.take 64) = 0 := by decide

/-- Refutes O48: its clause on the eighth violation in 64 blocks takes in no block at all, and says of every state that the lane is then
judged by the newest 64 of the counts it holds; the model sums all it holds, and in a state whose lane holds 65 they differ. -/
theorem not_clockAndLaneEvents : ¬ Obligations.ClockAndLaneEvents := by
  unfold Obligations.ClockAndLaneEvents
  intro h
  obtain ⟨-, -, -, -, -, -, -, -, -, -, loses, -⟩ := h overfull
  obtain ⟨-, -, violations⟩ := loses 0
  have eight := (violations [] (Nat.zero_le 64)).mp overfull_loses
  rw [overfull_lane, violationsOf, List.length_nil, overfull_newest] at eight
  exact absurd eight (by decide)

end Sys2Proof.Proofs

/-! ## A calibration record held twice (R273) -/

namespace Sys2Proof.Proofs

open Sys2Proof Sys2Proof.Machine Sys2Proof.Claims

/-- Calibration records of which tile 0 has two, the second never read. No run of the model makes such a map: it holds the key 0 twice, and
under it the value that an unlisted key reads as. A state of the model may hold it. -/
def twiceListed : SMap CalTile := [(0, {}), (0, { wear := 5000 })]

/-- RUN at a trim-commit tick, the first after START, no tile staged, with those records. -/
def commitTwiceListed : State := { State.reset with
  dev := { State.reset.dev with
    pwr := { State.reset.dev.pwr with locked := true }
    frm := { State.reset.dev.frm with ticked := true }
    cal := { State.reset.dev.cal with commitDue := true, commitFirst := true, tiles := twiceListed } } }

theorem commitTwiceListed_wear : (commitTwiceListed.dev.calTile 0).wear = 4096 := by decide

/-- The new sweep makes of the first record of tile 0 the default, which the map then drops, so that the second one is read. -/
theorem commitTwiceListed_wear_after : (commitTwiceListed.trimCommit.dev.calTile 0).wear = 5000 := by decide +kernel

/-- Refutes O46: its clause on trim commits says of every state that a tile which was not staged keeps its wear factor, and asks the
canonical form of the cells alone, not of the calibration records. In a state whose records list tile 0 twice the tile's wear factor goes
from 4,096 to 5,000. -/
theorem not_calibrationProceeds : ¬ Obligations.CalibrationProceeds := by
  unfold Obligations.CalibrationProceeds
  rintro ⟨-, -, -, -, -, commit⟩
  obtain ⟨t, run, -, -, -, -, missed, -⟩ := commit commitTwiceListed (by decide) (by decide) rfl rfl rfl
  obtain ⟨-, wear, -⟩ := missed 0 (by decide) (by decide) (by decide)
  have t_eq : commitTwiceListed.trimCommit = t := Host.Outcome.next.inj run
  rw [← t_eq, commitTwiceListed_wear_after, commitTwiceListed_wear] at wear
  exact absurd wear (by decide)

end Sys2Proof.Proofs

/-! ## Pixels of a tile and runs of changes -/

namespace Sys2Proof.Machine

/-- Some step of a run brings a property about, and every step keeps it. -/
theorem foldl_reaches {α β : Type} {f : β → α → β} {P : β → Prop} {x : α} (brings : ∀ b, P (f b x))
    (keeps : ∀ b a, P b → P (f b a)) : ∀ (l : List α) (b : β), x ∈ l → P (l.foldl f b)
  | a :: l, b, h => by
    rw [List.foldl_cons]
    rcases List.mem_cons.mp h with rfl | h
    · exact List.foldlRecOn l f (brings b) (fun b' hb a' _ => keeps b' a' hb)
    · exact foldl_reaches brings keeps l _ h

theorem SMap.get_updAll_of_not_mem {α : Type} [DecidableEq α] (dflt : α) (f : Nat → α → α) {j : Nat} {ks : List Nat} (m : SMap α)
    (h : j ∉ ks) : SMap.get dflt (SMap.updAll dflt m ks f) j = SMap.get dflt m j := by
  refine List.foldlRecOn ks _ (motive := fun m' => SMap.get dflt m' j = SMap.get dflt m j) rfl (fun m' hm k hk => ?_)
  have ne : j ≠ k := by
    rintro rfl
    exact h hk
  rw [SMap.get_upd, if_neg ne, hm]

/-- What a change brings about and keeps holds at every key of the list, repeated or not. -/
theorem SMap.get_updAll_of_mem {α : Type} [DecidableEq α] (dflt : α) (f : Nat → α → α) (P : α → Prop) {j : Nat} {ks : List Nat}
    (m : SMap α) (hf : ∀ x, P (f j x)) (h : j ∈ ks) : P (SMap.get dflt (SMap.updAll dflt m ks f) j) := by
  refine foldl_reaches (P := fun m' => P (SMap.get dflt m' j)) (fun m' => ?_) (fun m' k hm => ?_) ks m h
  · rw [SMap.get_upd, if_pos rfl]
    exact hf _
  · rw [SMap.get_upd]
    split
    · next e =>
      subst e
      exact hf _
    · exact hm

theorem tileOf_pixelAt (t : Nat) {i : Nat} (h : i < 5632) : tileOf (pixelAt t i) = t := by
  simp only [tileOf, pixelAt, pixelIdx]
  omega

/-! ## The service slots of the last base period (R58, R284, R285) -/

/-- The frames run: tick 0 has fallen, the leading light is not lit, and nothing clamps the pixels (R310, R322, R399, R416). -/
theorem State.running_spec {s : State} (h : s.running = true) : s.dev.frm.ticked = true ∧ s.lat.safe = false ∧
    s.clamped = false ∧ s.dev.pwr.state ≠ .entry ∧ s.dev.pwr.state ≠ .wake := by
  simp only [State.running, Bool.and_eq_true, Bool.not_eq_true', bne_iff_ne, Pwr.mainOn] at h
  obtain ⟨⟨⟨⟨ticked, safe⟩, -, parked⟩, entry⟩, wake⟩ := h
  exact ⟨ticked, safe, by simp [State.clamped, Dev.inStart, ticked, parked], entry, wake⟩

theorem State.tileRuns_spec {s : State} {t : Nat} (h : s.tileRuns t = true) : s.lat.safe = false ∧ s.clamped = false := by
  simp only [State.tileRuns, Bool.or_eq_true] at h
  rcases h with h | h
  · obtain ⟨-, safe, clamped, -⟩ := State.running_spec h
    exact ⟨safe, clamped⟩
  · simp only [Bool.and_eq_true, Bool.not_eq_true', Pwr.mainOn] at h
    obtain ⟨⟨⟨⟨ticked, safe⟩, -, parked⟩, -⟩, -⟩ := h
    exact ⟨safe, by simp [State.clamped, Dev.inStart, ticked, parked]⟩

theorem State.windowRuns_spec {s : State} {t : Nat} (h : s.windowRuns t = true) :
    s.tileRuns t = true ∧ t < 192 ∧ (s.dev.tile t).dark = false := by
  simp only [State.windowRuns, Bool.and_eq_true, decide_eq_true_eq, Bool.not_eq_true'] at h
  obtain ⟨⟨⟨⟨runs, lt⟩, -⟩, dark⟩, -⟩ := h
  exact ⟨runs, lt, dark⟩

/-- A service slot of a tile that runs its periods drives what calibration and diagnostics give (R58). -/
theorem State.drive_service {s : State} {p n : Nat} (runs : s.tileRuns (tileOf p) = true) (dark : (s.dev.tile (tileOf p)).dark = false)
    (iso : (s.cell p).isolate = false) (lo : 1024 ≤ n) (hi : n < 1040) : s.drive p n = s.serviceDrive p n := by
  obtain ⟨safe, clamped⟩ := State.tileRuns_spec runs
  have slots : ¬ 1040 ≤ n := by omega
  have service : ¬ n < 1024 := by omega
  simp [State.drive, safe, clamped, dark, iso, slots, service]

/-- In the windows the pixels of the probe conduct, then those of the checker's driven set, and no other (R284, R285). -/
theorem State.serviceDrive_window {s : State} {p n : Nat} (runs : s.windowRuns (tileOf p) = true)
    (conv : s.converts (tileOf p) (4 * (s.dev.groupPeriod (tileOf p % 16)).1 + (n - 1024) / 4) = false) :
    (s.serviceDrive p n).1 = if n < 1027 ∧ p ∈ s.probeSet (tileOf p) then 4
      else if 1028 ≤ n ∧ n < 1031 ∧ s.checkerDrives p = true then 1 else 0 := by
  simp only [State.serviceDrive, conv, runs, Bool.false_eq_true, Bool.not_true, if_false]
  by_cases probe : n ≤ 1026
  · have early : n < 1027 := by omega
    have late : ¬ 1028 ≤ n := by omega
    by_cases mem : p ∈ s.probeSet (tileOf p) <;> simp [probe, early, late, mem]
  · have early : ¬ n < 1027 := by omega
    by_cases check : 1028 ≤ n ∧ n ≤ 1030
    · have late : n < 1031 := by omega
      rw [if_neg probe, if_pos check]
      simp only [early, check.1, late, false_and, true_and, if_false]
    · have late : ¬ (1028 ≤ n ∧ n < 1031 ∧ s.checkerDrives p = true) := by omega
      simp only [if_neg probe, if_neg check, early, false_and, if_false, if_neg late]

/-! ## Drive pulses (R81 to R83, R282) -/

/-- The lowest sample of the frame, of equals that of the lowest tile and the earliest (R82). -/
def lowerSample (old : Option (Nat × Nat × Nat)) (new : Nat × Nat × Nat) : Nat × Nat × Nat :=
  match old with
  | some x => if new.1 < x.1 ∨ (new.1 = x.1 ∧ new.2.1 < x.2.1) then new else x
  | none => new

theorem Dev.headroom_sample (d : Dev) (t vled mv : Nat) :
    (d.headroom t vled mv).arr.sample = some (lowerSample d.arr.sample (mv, t, vled)) := by
  have sample : (d.headroom t vled mv).arr.sample = (match d.arr.sample with
      | some (c, u, v) => if mv < c ∨ (mv = c ∧ t < u) then some (mv, t, vled) else some (c, u, v)
      | none => some (mv, t, vled)) := by
    unfold Dev.headroom
    dsimp only
    split <;> rfl
  rw [sample]
  cases d.arr.sample with
  | none => rfl
  | some x => exact (apply_ite some _ _ _).symm

theorem Dev.headroom_low (d : Dev) (t vled mv : Nat) (h : mv < 180) : (d.headroom t vled mv).evt.pend.getLsbD 74 = true ∧
    ((d.headroom t vled mv).tile t).lowMv.isSome = true := by
  unfold Dev.headroom
  dsimp only
  rw [if_pos h]
  refine ⟨Evt.raise_self _ _ rfl, ?_⟩
  rw [Dev.tile_raise, Dev.tile_onTile, if_pos rfl]
  rfl

/-- The sample reaches of a tile its lowest cell voltage alone, and of the blocks that a judgement reads nothing (R83). -/
theorem Dev.headroom_frame (d : Dev) (t vled mv : Nat) :
    (d.headroom t vled mv) = { d with
      arr := (d.headroom t vled mv).arr, tiles := (d.headroom t vled mv).tiles, evt := (d.headroom t vled mv).evt } ∧
    ∀ i, ∃ m, (d.headroom t vled mv).tile i = { d.tile i with lowMv := m } := by
  unfold Dev.headroom
  dsimp only
  split
  · refine ⟨rfl, fun i => ?_⟩
    rw [Dev.tile_raise, Dev.tile_onTile]
    split
    · next h => exact ⟨_, by rw [h]; rfl⟩
    · exact ⟨_, rfl⟩
  · exact ⟨rfl, fun i => ⟨_, rfl⟩⟩

theorem Dev.pulseFull_headroom (d : Dev) (t vled mv p : Nat) (c : Cell) :
    (d.headroom t vled mv).pulseFull p c = d.pulseFull p c := by
  obtain ⟨frame, tiles⟩ := d.headroom_frame t vled mv
  obtain ⟨m, tile⟩ := tiles (tileOf p)
  have chg : (d.headroom t vled mv).chg = d.chg := by rw [frame]
  have cfg : (d.headroom t vled mv).cfg = d.cfg := by rw [frame]
  have cells : (d.headroom t vled mv).activeCells (tileOf p) = d.activeCells (tileOf p) := by
    rw [Dev.activeCells, tile, chg]
    rfl
  have factor : (d.headroom t vled mv).refFactor (tileOf p) = d.refFactor (tileOf p) := by
    rw [Dev.refFactor, cells, chg]
    rfl
  have unit : (d.headroom t vled mv).iuNa (tileOf p) = d.iuNa (tileOf p) := by rw [frame]; rfl
  rw [Dev.pulseFull, Dev.pixelParts, factor, unit]
  rfl

/-- The cells after a drive pulse of tile `t` that is judged. -/
def State.judgedCells (s : State) (t : Nat) (samples : List PixSample) : SMap Cell :=
  SMap.mapAll {} (fun p c =>
    if tileOf p = t ∧ c.conducts then c.judge (findingsOf samples (localOf p) (s.dev.pulseFull p c)) else c) s.cells

/-- A tile that conducts is sampled; unless judgements are discarded or diagnostics is stopped, its pixels are judged. -/
theorem State.drivePulse_eq (s : State) (t vled mv : Nat) (samples : List PixSample) (run : s.running = true) (lt : t < 192)
    (lit : s.dev.isDark t = false) (any : ∃ e ∈ s.cells, tileOf e.1 = t ∧ e.2.conducts = true) :
    s.drivePulse t vled mv samples = { s.onDev (fun d => d.headroom t vled (mv / 4 * 4)) with
      cells := if s.dev.discards || s.dev.diag.stopped then s.cells else s.judgedCells t samples } := by
  have conducts : s.cells.any (fun e => tileOf e.1 == t && e.2.conducts) = true := by
    simpa [List.any_eq_true] using any
  obtain ⟨frame, -⟩ := s.dev.headroom_frame t vled (mv / 4 * 4)
  have discards : (s.dev.headroom t vled (mv / 4 * 4)).discards = s.dev.discards := by rw [frame]; rfl
  have stopped : (s.dev.headroom t vled (mv / 4 * 4)).diag.stopped = s.dev.diag.stopped := by rw [frame]
  simp only [State.drivePulse, run, lt, lit, conducts, decide_true, Bool.not_false, Bool.and_self, Bool.not_true, Bool.false_eq_true,
    if_false, State.onDev_dev, discards, stopped, Dev.pulseFull_headroom, State.onDev_cells]
  split <;> rfl

theorem State.judgedCells_get (s : State) (t : Nat) (samples : List PixSample) (wf : SMap.wf {} s.cells = true) (p : Nat) :
    SMap.get {} (s.judgedCells t samples) p = if tileOf p = t ∧ (s.cell p).conducts = true then
      (s.cell p).judge (findingsOf samples (localOf p) (s.dev.pulseFull p (s.cell p))) else s.cell p := by
  refine SMap.get_mapAll {} _ (fun k => ?_) s.cells 0 p ((SMap.wf_iff _ _).mp wf).1
  have dark : ({} : Cell).conducts = false := by decide
  rw [dark]
  simp

theorem Cell.flag_open (c : Cell) (f : Bool × Bool) (h : f.1 = true) : (c.flag f).status.getLsbD 0 = true := by
  obtain ⟨f1, f2⟩ := f
  subst h
  cases f2 <;> simp [Cell.flag]

theorem Cell.flag_short (c : Cell) (f : Bool × Bool) (h : f.2 = true) : (c.flag f).status.getLsbD 1 = true := by
  obtain ⟨f1, f2⟩ := f
  subst h
  cases f1 <;> simp [Cell.flag]

/-! ## Probe and checker windows (R283 to R285, R294) -/

/-- What the windows of tile `t` reach: the cells of the tile and the records of its pixels. -/
structure OnlyPixels (s u : State) (t : Nat) : Prop where
  stores : u.mem = s.mem ∧ u.otp = s.otp ∧ u.lat = s.lat
  dtiles : u.dev.diag.tiles = s.dev.diag.tiles
  cells : ∀ q, tileOf q ≠ t → u.cell q = s.cell q

/-- Pixels that the sector policy passes over in a window: their records are marked. -/
def Dev.passedOver (d : Dev) (checker : Bool) (ps : List Nat) : Dev := ps.foldl (fun d p => d.onPix p (fun x => x.skip checker)) d

theorem Dev.passedOver_discards (d : Dev) (checker : Bool) (ps : List Nat) : (d.passedOver checker ps).discards = d.discards :=
  List.foldlRecOn ps (fun (d : Dev) p => d.onPix p (fun x => x.skip checker)) (motive := fun d' : Dev => d'.discards = d.discards) rfl
    (fun _ h _ _ => h)

theorem Dev.onDtile_discards (d : Dev) (t : Nat) (f : DiagTile → DiagTile) : (d.onDtile t f).discards = d.discards := rfl

theorem Dev.dtile_onDtile (d : Dev) (t : Nat) (f : DiagTile → DiagTile) : (d.onDtile t f).dtile t = f (d.dtile t) :=
  (SMap.get_upd ..).trans (if_pos rfl)

theorem State.probe_cell (s : State) (samples : List PixSample) (p q : Nat) : (s.probe samples p).cell q =
    if q = p then (s.cell p).probe (findingsOf samples (localOf p) (s.dev.pixelParts p 4 (s.cell p).trim)) else s.cell q := by
  have cells : (s.probe samples p).cells = SMap.upd {} s.cells p
      (fun c => c.probe (findingsOf samples (localOf p) (s.dev.pixelParts p 4 (s.cell p).trim))) := by
    unfold State.probe
    dsimp only
    split <;> rfl
  rw [State.cell, cells]
  exact SMap.get_upd ..

theorem OnlyPixels.probe {s u : State} {t : Nat} (h : OnlyPixels s u t) (samples : List PixSample) {p : Nat} (hp : tileOf p = t) :
    OnlyPixels s (u.probe samples p) t := by
  obtain ⟨⟨mem, otp, lat⟩, dtiles, cells⟩ := h
  refine ⟨?_, ?_, fun q hq => ?_⟩
  · unfold State.probe
    dsimp only
    split <;> exact ⟨mem, otp, lat⟩
  · unfold State.probe
    dsimp only
    split <;> exact dtiles
  · have ne : q ≠ p := by
      rintro rfl
      exact hq hp
    rw [State.probe_cell, if_neg ne, cells q hq]

theorem Cell.probe_judges (c : Cell) (f : Bool × Bool) : (c.probe f).probed = true ∧ (c.probe f).judgedNow = true := ⟨rfl, rfl⟩

theorem State.probe_judges (s : State) (samples : List PixSample) (p q : Nat)
    (h : q = p ∨ ((s.cell q).probed = true ∧ (s.cell q).judgedNow = true)) :
    ((s.probe samples p).cell q).probed = true ∧ ((s.probe samples p).cell q).judgedNow = true := by
  rw [State.probe_cell]
  split
  · exact Cell.probe_judges ..
  · next hne => exact h.resolve_left hne

theorem tileOf_of_mem_pixels {t p : Nat} {P : Nat → Bool} (h : p ∈ ((List.range 5632).map (pixelAt t)).filter P) : tileOf p = t := by
  obtain ⟨i, hi, rfl⟩ := List.mem_map.mp (List.mem_filter.mp h).1
  exact tileOf_pixelAt t (List.mem_range.mp hi)

theorem State.tileOf_of_mem_probeTurn {s : State} {t p : Nat} (h : p ∈ s.probeTurn t) : tileOf p = t := by
  unfold State.probeTurn at h
  exact tileOf_of_mem_pixels h

theorem State.tileOf_of_mem_probeExtra {s : State} {t p : Nat} (h : p ∈ s.probeExtra t) : tileOf p = t := by
  unfold State.probeExtra at h
  exact tileOf_of_mem_pixels (List.mem_of_mem_take h)

theorem State.tileOf_of_mem_probeSet {s : State} {t p : Nat} (h : p ∈ s.probeSet t) : tileOf p = t := by
  rcases List.mem_append.mp (List.mem_filter.mp h).1 with turn | extra
  · exact State.tileOf_of_mem_probeTurn turn
  · exact State.tileOf_of_mem_probeExtra (List.mem_filter.mp extra).1

theorem State.mem_probeSet {s : State} {t p : Nat} (turn : p ∈ s.probeTurn t) (runs : s.dev.probeSkips p = false) : p ∈ s.probeSet t :=
  List.mem_filter.mpr ⟨List.mem_append_left _ turn, by rw [runs]; rfl⟩

/-- The state in which the probes of a window are made: the pixels that the sector policy skips are marked, the window is done. -/
def State.probesSkipped (s : State) (t : Nat) : State :=
  s.onDev (fun d => (d.passedOver false ((s.probeTurn t).filter s.dev.probeSkips)).onDtile t (fun y => { y with probed := true }))

theorem State.probesSkipped_discards (s : State) (t : Nat) : (s.probesSkipped t).dev.discards = s.dev.discards := by
  rw [State.probesSkipped, State.onDev_dev, Dev.onDtile_discards, Dev.passedOver_discards]

theorem State.probeWindow_eq (s : State) (t : Nat) (samples : List PixSample) (runs : s.windowRuns t = true)
    (judged : s.dev.discards = false) (due : (s.dev.dtile t).probed = false) :
    s.probeWindow t samples = (s.probeSet t).foldl (fun s p => s.probe samples p) (s.probesSkipped t) := by
  have begins : ¬ (!s.windowRuns t || (s.dev.dtile t).probed) = true := by
    rw [runs, due]
    exact Bool.false_ne_true
  have stays : ¬ (s.probesSkipped t).dev.discards = true := by
    rw [State.probesSkipped_discards, judged]
    exact Bool.false_ne_true
  exact (if_neg begins).trans (if_neg stays)

theorem State.probesSkipped_stores (s : State) (t : Nat) : (s.probesSkipped t).mem = s.mem ∧ (s.probesSkipped t).otp = s.otp ∧
    (s.probesSkipped t).lat = s.lat := ⟨State.onDev_mem .., State.onDev_otp .., State.onDev_lat ..⟩

theorem State.probesSkipped_cell (s : State) (t p : Nat) : (s.probesSkipped t).cell p = s.cell p :=
  State.onDev_cell ..

theorem State.probesSkipped_dtile (s : State) (t : Nat) : ((s.probesSkipped t).dev.dtile t).probed = true :=
  congrArg DiagTile.probed (Dev.dtile_onDtile ..)

theorem State.probeWindow_done (s : State) (t : Nat) (samples : List PixSample) (done : (s.dev.dtile t).probed = true) :
    s.probeWindow t samples = s := if_pos (by rw [done, Bool.or_true])

theorem State.checkerWindow_done (s : State) (t : Nat) (above : List Nat) (done : (s.dev.dtile t).checked = true) :
    s.checkerWindow t above = s := if_pos (by rw [done, Bool.or_true])

/-- The cell's flag of a checker window (R285). -/
def Cell.flagAbove (c : Cell) : Cell := { c with status := c.status ||| 4 }

theorem Cell.flagAbove_status (c : Cell) : c.flagAbove.status.getLsbD 2 = true := by
  rw [Cell.flagAbove, BitVec.getLsbD_or]
  exact Bool.or_true _

/-- The pixels that a checker window flags: those above 0.80 V that its phase does not drive (R285). -/
def State.checkerFlags (s : State) (t : Nat) (above : List Nat) : List Nat :=
  ((above.filter (fun i => decide (i < 5632))).map (pixelAt t)).filter (fun p =>
    !checkerDriven (s.dev.ndOf t % 4) p && !s.isIsolated p && !s.dev.checkerSkips p)

/-- The pixels of tile `t` that a checker window passes over by the sector policy. -/
def State.checkerSkipped (s : State) (t : Nat) : List Nat :=
  ((List.range 5632).map (pixelAt t)).filter (fun p => s.dev.checkerSkips p && !s.isIsolated p)

/-- The records once the checker window of tile `t` is done: the pixels passed over and the phase are marked. -/
def State.checkerDone (s : State) (t : Nat) (d : Dev) : Dev :=
  (d.passedOver true (s.checkerSkipped t)).onDtile t
    (fun y => { y with phases := y.phases.map (fun l => l ++ [s.dev.ndOf t % 4]), checked := true })

/-- A checker window flags its pixels and reaches no other cell, and the records of pixels and of the tile. -/
theorem State.checkerWindow_eq (s : State) (t : Nat) (above : List Nat) (runs : s.windowRuns t = true)
    (judged : s.dev.discards = false) (due : (s.dev.dtile t).checked = false) :
    s.checkerWindow t above = { s.onDev (s.checkerDone t) with
      cells := SMap.updAll {} s.cells (s.checkerFlags t above) (fun _ c => c.flagAbove) } := by
  have begins : ¬ (!s.windowRuns t || (s.dev.dtile t).checked) = true := by
    rw [runs, due]
    exact Bool.false_ne_true
  unfold State.checkerWindow State.checkerDone State.checkerSkipped State.checkerFlags Dev.passedOver
  rw [if_neg begins, judged]
  simp only [Bool.false_eq_true, if_false]
  generalize (List.range 5632).map (pixelAt t) = ps
  rfl

theorem State.checkerDone_checked (s : State) (t : Nat) (d : Dev) : ((s.checkerDone t d).dtile t).checked = true :=
  congrArg DiagTile.checked (Dev.dtile_onDtile ..)

theorem State.mem_checkerFlags_iff {s : State} {t p : Nat} {above : List Nat} : p ∈ s.checkerFlags t above ↔
    (∃ n, (n ∈ above ∧ n < 5632) ∧ pixelAt t n = p) ∧
      checkerDriven (s.dev.ndOf t % 4) p = false ∧ s.isIsolated p = false ∧ s.dev.checkerSkips p = false := by
  unfold State.checkerFlags
  simp only [List.mem_filter, List.mem_map, decide_eq_true_eq, Bool.and_eq_true, Bool.not_eq_true', and_assoc]

theorem State.tileOf_of_mem_checkerFlags {s : State} {t p : Nat} {above : List Nat} (h : p ∈ s.checkerFlags t above) :
    tileOf p = t := by
  obtain ⟨⟨n, ⟨-, lt⟩, rfl⟩, -⟩ := State.mem_checkerFlags_iff.mp h
  exact tileOf_pixelAt t lt

/-! ## What each command of the family does -/

/-- What a judgement of a drive pulse says of a conducting pixel with a sample (R35, R282). -/
theorem Cell.judge_sample (c : Cell) (full : Nat) {samples : List PixSample} {i : Nat} {x : PixSample}
    (found : samples.find? (fun x => x.idx == i) = some x) :
    (c.judge (findingsOf samples i full)).judgedNow = true ∧
    (4 * x.cur * naParts < full → (c.judge (findingsOf samples i full)).status.getLsbD 0 = true) ∧
    (x.emitter < 1200 → 3 * full ≤ 4 * x.cur * naParts → (c.judge (findingsOf samples i full)).status.getLsbD 1 = true) := by
  have findings : findingsOf samples i full = (pixOpen full x, pixShort full x) := by
    unfold findingsOf
    rw [found]
  rw [findings]
  refine ⟨rfl, fun low => Cell.flag_open c _ ?_, fun low high => Cell.flag_short c _ ?_⟩
  · simpa [pixOpen] using low
  · simpa [pixShort] using ⟨low, high⟩

theorem State.drivePulse_cell_judged (s : State) (i vled mv : Nat) (samples : List PixSample) (run : s.running = true) (lt : i < 192)
    (lit : s.dev.isDark i = false) (any : ∃ e ∈ s.cells, tileOf e.1 = i ∧ e.2.conducts = true)
    (wf : SMap.wf {} s.cells = true) (judged : s.dev.discards = false) (going : s.dev.diag.stopped = false) {p : Nat}
    (tile : tileOf p = i) (conducts : (s.cell p).conducts = true) :
    (s.drivePulse i vled mv samples).cell p =
      (s.cell p).judge (findingsOf samples (localOf p) (s.dev.pulseFull p (s.cell p))) := by
  have cell := s.judgedCells_get i samples wf p
  rw [if_pos ⟨tile, conducts⟩] at cell
  rw [s.drivePulse_eq i vled mv samples run lt lit any, judged, going]
  exact cell

theorem State.drivePulse_cell_other (s : State) (i vled mv : Nat) (samples : List PixSample) (run : s.running = true) (lt : i < 192)
    (lit : s.dev.isDark i = false) (any : ∃ e ∈ s.cells, tileOf e.1 = i ∧ e.2.conducts = true)
    (wf : SMap.wf {} s.cells = true) {p : Nat} (other : tileOf p ≠ i) : (s.drivePulse i vled mv samples).cell p = s.cell p := by
  have cell := s.judgedCells_get i samples wf p
  rw [if_neg (fun h => other h.1)] at cell
  rw [s.drivePulse_eq i vled mv samples run lt lit any]
  unfold State.cell
  dsimp only
  split
  · rfl
  · exact cell

theorem State.probesOnly (s : State) (t : Nat) (samples : List PixSample) :
    OnlyPixels (s.probesSkipped t) ((s.probeSet t).foldl (fun s p => s.probe samples p) (s.probesSkipped t)) t :=
  List.foldlRecOn (s.probeSet t) (fun s p => s.probe samples p) (motive := fun u => OnlyPixels (s.probesSkipped t) u t)
    ⟨⟨rfl, rfl, rfl⟩, rfl, fun _ _ => rfl⟩ (fun _ h _ mem => h.probe samples (State.tileOf_of_mem_probeSet mem))

theorem State.probeWindow_judges (s : State) (t : Nat) (samples : List PixSample) (runs : s.windowRuns t = true)
    (judged : s.dev.discards = false) (due : (s.dev.dtile t).probed = false) {p : Nat} (mem : p ∈ s.probeSet t) :
    ((s.probeWindow t samples).cell p).probed = true ∧ ((s.probeWindow t samples).cell p).judgedNow = true := by
  rw [s.probeWindow_eq t samples runs judged due]
  exact foldl_reaches (P := fun u : State => (u.cell p).probed = true ∧ (u.cell p).judgedNow = true)
    (fun u => u.probe_judges samples p p (.inl rfl)) (fun u q h => u.probe_judges samples q p (.inr h)) (s.probeSet t)
    (s.probesSkipped t) mem

theorem State.checkerWindow_stores (s : State) (t : Nat) (above : List Nat) (runs : s.windowRuns t = true)
    (judged : s.dev.discards = false) (due : (s.dev.dtile t).checked = false) :
    (s.checkerWindow t above).mem = s.mem ∧ (s.checkerWindow t above).otp = s.otp ∧ (s.checkerWindow t above).lat = s.lat := by
  rw [s.checkerWindow_eq t above runs judged due]
  simp only [State.onDev_mem, State.onDev_otp, State.onDev_lat, and_self]

theorem State.checkerWindow_cell (s : State) (t : Nat) (above : List Nat) (runs : s.windowRuns t = true)
    (judged : s.dev.discards = false) (due : (s.dev.dtile t).checked = false) (p : Nat) : (s.checkerWindow t above).cell p =
      SMap.get {} (SMap.updAll {} s.cells (s.checkerFlags t above) (fun _ c => c.flagAbove)) p := by
  rw [s.checkerWindow_eq t above runs judged due]
  rfl

theorem State.checkerWindow_flags (s : State) (t : Nat) (above : List Nat) (runs : s.windowRuns t = true)
    (judged : s.dev.discards = false) (due : (s.dev.dtile t).checked = false) {p : Nat} (mem : p ∈ s.checkerFlags t above) :
    ((s.checkerWindow t above).cell p).status.getLsbD 2 = true := by
  rw [s.checkerWindow_cell t above runs judged due]
  have flagged := SMap.get_updAll_of_mem {} (fun _ c => c.flagAbove) (fun c : Cell => c.status.getLsbD 2 = true) s.cells
    Cell.flagAbove_status mem
  exact flagged

theorem State.checkerWindow_other (s : State) (t : Nat) (above : List Nat) (runs : s.windowRuns t = true)
    (judged : s.dev.discards = false) (due : (s.dev.dtile t).checked = false) {p : Nat} (other : tileOf p ≠ t) :
    (s.checkerWindow t above).cell p = s.cell p := by
  rw [s.checkerWindow_cell t above runs judged due]
  exact SMap.get_updAll_of_not_mem {} (fun _ c => c.flagAbove) s.cells (fun mem => other (State.tileOf_of_mem_checkerFlags mem))

/-- A tile's record after a readback round begins: one that is not dark owes a READ on each chain (R52). -/
def Tile.roundOwed (x : Tile) : Tile := if x.dark then x else { x with readDue := 15, reads := [none, none, none, none] }

theorem Dev.tile_onTiles (d : Dev) (f : Nat → Tile → Tile) {i : Nat} (lt : i < 192) : (d.onTiles f).tile i = f i (d.tile i) :=
  (SMap.get_updAll ({} : Tile) f i (List.range 192) d.tiles List.nodup_range).trans (if_pos (List.mem_range.mpr lt))

theorem Dev.tile_onTiles_out (d : Dev) (f : Nat → Tile → Tile) {i : Nat} (out : ¬ i < 192) : (d.onTiles f).tile i = d.tile i :=
  SMap.get_updAll_of_not_mem ({} : Tile) f d.tiles (fun mem => out (List.mem_range.mp mem))

/-- The round begins in every tile that is not dark (R52). -/
def Dev.beginRound (d : Dev) : Dev :=
  (d.onArr (fun a => { a with roundOn := true, sinceRead := 0 })).onTiles (fun _ x => x.roundOwed)

theorem Dev.beginRound_frame (d : Dev) : d.beginRound = { d with arr := d.beginRound.arr, tiles := d.beginRound.tiles } := by
  unfold Dev.beginRound Dev.onTiles
  generalize SMap.updAll ({} : Tile) _ _ _ = ts
  rfl

theorem exec_safeReadbackDue (s : State) (run : s.running = true) (frames : s.dev.arr.framesLeft = 0)
    (off : s.dev.arr.roundOn = false) : exec .safeReadbackDue s = .next (s.onDev Dev.beginRound) := by
  have due : (s.running && s.dev.arr.framesLeft == 0 && !s.dev.arr.roundOn) = true := by
    rw [run, frames, off]
    rfl
  exact congrArg (fun d => Host.Outcome.next { s with dev := d }) (if_pos due)

end Sys2Proof.Machine

namespace Sys2Proof.Proofs

open Sys2Proof Sys2Proof.Machine Sys2Proof.Claims

/-- Settles O39: a judged pulse maps its judgement over the cells that conduct, a probe window folds one probe over its pixels, and
what a fold brings about for a pixel its later steps keep. -/
theorem windowsAndRoundsComplete : Obligations.WindowsAndRoundsComplete := by
  refine ⟨fun s i vled mv xs run lt lit any => ?_, fun s i xs done => ?_, fun s i above done => ?_,
    fun s p n runs conv iso lo hi => ?_, fun s i xs runs judged due => ?_, fun s i above runs judged due => ?_,
    fun s run frames off => ?_⟩
  · have eq := s.drivePulse_eq i vled mv xs run lt lit any
    have sample := s.dev.headroom_sample i vled (mv / 4 * 4)
    refine ⟨_, rfl, fun wf now going p x tile conducts found => ?_, fun first => ?_, fun y held => ?_, fun low => ?_, ?_, ?_, ?_,
      fun wf p other => s.drivePulse_cell_other i vled mv xs run lt lit any wf other⟩
    · rw [s.drivePulse_cell_judged i vled mv xs run lt lit any wf now going tile conducts]
      exact Cell.judge_sample _ _ found
    · rw [eq]
      exact sample.trans (by rw [first]; rfl)
    · rw [eq]
      exact sample.trans (by rw [held]; rfl)
    · rw [eq]
      exact s.dev.headroom_low i vled (mv / 4 * 4) (by omega)
    · rw [eq]
      rfl
    · rw [eq]
      rfl
    · rw [eq]
      rfl
  · exact congrArg Host.Outcome.next (s.probeWindow_done i xs done)
  · exact congrArg Host.Outcome.next (s.checkerWindow_done i above done)
  · obtain ⟨tileRuns, -, dark⟩ := State.windowRuns_spec runs
    rw [State.drive_service tileRuns dark iso lo (by omega), State.serviceDrive_window runs conv]
  · obtain ⟨⟨mem, otp, lat⟩, dtiles, cells⟩ := s.probesOnly i xs
    have eq := s.probeWindow_eq i xs runs judged due
    rw [← eq] at mem otp lat dtiles cells
    obtain ⟨mem', otp', lat'⟩ := s.probesSkipped_stores i
    have probed : ((s.probeWindow i xs).dev.dtile i).probed = true := by
      unfold Dev.dtile
      rw [dtiles]
      exact s.probesSkipped_dtile i
    exact ⟨_, rfl, probed, mem.trans mem', otp.trans otp', lat.trans lat',
      fun p turn goes => s.probeWindow_judges i xs runs judged due (State.mem_probeSet turn goes),
      fun p other => (cells p other).trans (s.probesSkipped_cell i p)⟩
  · obtain ⟨mem, otp, lat⟩ := s.checkerWindow_stores i above runs judged due
    refine ⟨_, rfl, ?_, mem, otp, lat, fun n mem lt driven iso skip => ?_,
      fun p other => s.checkerWindow_other i above runs judged due other⟩
    · rw [s.checkerWindow_eq i above runs judged due]
      exact s.checkerDone_checked i s.dev
    · exact s.checkerWindow_flags i above runs judged due
        (State.mem_checkerFlags_iff.mpr ⟨⟨n, ⟨mem, lt⟩, rfl⟩, driven, iso, skip⟩)
  · refine ⟨_, exec_safeReadbackDue s run frames off,
      ⟨State.onDev_pending .., State.onDev_otp .., State.onDev_mem .., State.onDev_cells .., State.onDev_lat ..⟩, rfl,
      fun i lt lit => ?_, fun i lt dark => ?_, s.dev.beginRound_frame⟩
    · rw [State.onDev_dev, Dev.beginRound, Dev.tile_onTiles _ _ lt]
      exact congrArg Tile.readDue (if_neg (by rw [Bool.not_eq_true]; exact lit))
    · rw [State.onDev_dev, Dev.beginRound, Dev.tile_onTiles _ _ lt]
      exact if_pos dark

end Sys2Proof.Proofs

/-! ## What the parts of a tick leave alone

`State.tickCore` runs some twenty parts in a row. Each but the copy, the cut of the passes, the new frame and the new content keeps what
the statements about a tick speak of: `TickPart` says so of the parts before the pending targets are judged, `TickStep` of those after. -/

namespace Sys2Proof.Machine

/-- The tiles but for their lowest cell voltage, and the passes; messages under way and pending events stay. -/
structure ArrayKept (d d' : Dev) : Prop where
  tiles : ∀ i, ∃ m, d'.tile i = { d.tile i with lowMv := m }
  passes : d'.arr.passes = d.arr.passes
  transit : ∀ m ∈ d.keep.transit, m ∈ d'.keep.transit
  pend : ∀ n, d.evt.pend.getLsbD n = true → d'.evt.pend.getLsbD n = true

/-- The clock, and what a tick begins a frame with. -/
structure FrameKept (d d' : Dev) : Prop where
  now : d'.now = d.now
  tick : d'.frm.tick = d.frm.tick
  lastLen : d'.frm.lastLen = d.frm.lastLen
  period : d'.frm.period = d.frm.period
  begun : d'.frm.begun = d.frm.begun
  decision : d'.frm.decision = d.frm.decision
  tickAt : d'.frm.tickAt = d.frm.tickAt

/-- The run of ticks without a commit, and the content that it gives the frame (R93). -/
structure ContentKept (d d' : Dev) : Prop where
  since : d'.frm.since = d.frm.since
  standalone : d'.frm.standalone = d.frm.standalone
  noCommitDue : d'.frm.noCommitDue = d.frm.noCommitDue
  content : d'.comp.content = d.comp.content
  held : d'.keep.standaloneHeld = d.keep.standaloneHeld

/-- What the judgement of the targets and the content rest on. -/
structure TargetsKept (d d' : Dev) : Prop where
  frame : FrameKept d d'
  content : ContentKept d d'
  commits : d'.frm.commits = d.frm.commits
  modePend : d'.frm.modePend = d.frm.modePend
  link : d'.link = d.link

/-- A part of a tick after the content of the new frame is known. -/
structure TickStep (d d' : Dev) : Prop where
  array : ArrayKept d d'
  frame : FrameKept d d'
  content : ContentKept d d'

/-- A part of a tick before its targets are judged. -/
structure TickPart (d d' : Dev) : Prop where
  array : ArrayKept d d'
  targets : TargetsKept d d'

theorem TickPart.step {d d' : Dev} (h : TickPart d d') : TickStep d d' := ⟨h.array, h.targets.frame, h.targets.content⟩

theorem ArrayKept.trans {a b c : Dev} (h : ArrayKept a b) (h' : ArrayKept b c) : ArrayKept a c where
  tiles i := by
    obtain ⟨m, first⟩ := h.tiles i
    obtain ⟨m', second⟩ := h'.tiles i
    exact ⟨m', by rw [second, first]⟩
  passes := h'.passes.trans h.passes
  transit m mem := h'.transit m (h.transit m mem)
  pend n mem := h'.pend n (h.pend n mem)

theorem ArrayKept.same {d d' : Dev} (tiles : d'.tiles = d.tiles) (passes : d'.arr.passes = d.arr.passes)
    (transit : d'.keep.transit = d.keep.transit) (pend : d'.evt.pend = d.evt.pend) : ArrayKept d d' where
  tiles i := ⟨(d.tile i).lowMv, by rw [Dev.tile, tiles]; rfl⟩
  passes := passes
  transit m mem := by rwa [transit]
  pend n mem := by rwa [pend]

theorem FrameKept.trans {a b c : Dev} (h : FrameKept a b) (h' : FrameKept b c) : FrameKept a c :=
  ⟨h'.now.trans h.now, h'.tick.trans h.tick, h'.lastLen.trans h.lastLen, h'.period.trans h.period, h'.begun.trans h.begun,
    h'.decision.trans h.decision, h'.tickAt.trans h.tickAt⟩

theorem FrameKept.same {d d' : Dev} (now : d'.now = d.now) (frm : d'.frm = d.frm) : FrameKept d d' := by
  constructor
  · exact now
  all_goals rw [frm]

theorem ContentKept.trans {a b c : Dev} (h : ContentKept a b) (h' : ContentKept b c) : ContentKept a c :=
  ⟨h'.since.trans h.since, h'.standalone.trans h.standalone, h'.noCommitDue.trans h.noCommitDue, h'.content.trans h.content,
    h'.held.trans h.held⟩

theorem TargetsKept.trans {a b c : Dev} (h : TargetsKept a b) (h' : TargetsKept b c) : TargetsKept a c :=
  ⟨h.frame.trans h'.frame, h.content.trans h'.content, h'.commits.trans h.commits, h'.modePend.trans h.modePend,
    h'.link.trans h.link⟩

theorem TargetsKept.same {d d' : Dev} (now : d'.now = d.now) (frm : d'.frm = d.frm) (content : d'.comp.content = d.comp.content)
    (held : d'.keep.standaloneHeld = d.keep.standaloneHeld) (link : d'.link = d.link) : TargetsKept d d' :=
  ⟨.same now frm, ⟨by rw [frm], by rw [frm], by rw [frm], content, held⟩, by rw [frm], by rw [frm], link⟩

theorem TickStep.trans {a b c : Dev} (h : TickStep a b) (h' : TickStep b c) : TickStep a c :=
  ⟨h.array.trans h'.array, h.frame.trans h'.frame, h.content.trans h'.content⟩

theorem TickPart.trans {a b c : Dev} (h : TickPart a b) (h' : TickPart b c) : TickPart a c :=
  ⟨h.array.trans h'.array, h.targets.trans h'.targets⟩

/-! ### Changes of one block -/

namespace TickPart

theorem refl (d : Dev) : TickPart d d := ⟨.same rfl rfl rfl rfl, .same rfl rfl rfl rfl rfl⟩

theorem foldl {α : Type} (f : Dev → α → Dev) (hf : ∀ d x, TickPart d (f d x)) (l : List α) (d : Dev) : TickPart d (l.foldl f d) :=
  List.foldlRecOn l f (motive := fun d' => TickPart d d') (refl d) (fun _ h x _ => h.trans (hf _ x))

theorem ite {d a b : Dev} {c : Prop} [Decidable c] (h : TickPart d a) (h' : TickPart d b) : TickPart d (if c then a else b) := by
  split
  · exact h
  · exact h'

theorem raise (d : Dev) (n : Nat) : TickPart d (d.raise n) where
  array := { tiles := fun i => ⟨(d.tile i).lowMv, rfl⟩, passes := rfl, transit := fun _ h => h
             pend := fun k h => Evt.raise_keeps d.evt n k h }
  targets := .same rfl rfl rfl rfl rfl

theorem raiseIf (d : Dev) (c : Bool) (n : Nat) : TickPart d (d.raiseIf c n) := .ite (raise d n) (refl d)

theorem send (d : Dev) (source kind sev addr : Nat) : TickPart d (d.send source kind sev addr) where
  array := { tiles := fun i => ⟨(d.tile i).lowMv, rfl⟩, passes := rfl, transit := fun _ h => List.mem_append_left _ h
             pend := fun _ h => h }
  targets := .same rfl rfl rfl rfl rfl

theorem onArr (d : Dev) (f : Arr → Arr) (h : (f d.arr).passes = d.arr.passes) : TickPart d (d.onArr f) :=
  ⟨.same rfl h rfl rfl, .same rfl rfl rfl rfl rfl⟩

theorem onPwr (d : Dev) (f : Pwr → Pwr) : TickPart d (d.onPwr f) := ⟨.same rfl rfl rfl rfl, .same rfl rfl rfl rfl rfl⟩
theorem onEng (d : Dev) (f : Eng → Eng) : TickPart d (d.onEng f) := ⟨.same rfl rfl rfl rfl, .same rfl rfl rfl rfl rfl⟩
theorem onFw (d : Dev) (f : Fw → Fw) : TickPart d (d.onFw f) := ⟨.same rfl rfl rfl rfl, .same rfl rfl rfl rfl rfl⟩
theorem onWit (d : Dev) (f : Wit → Wit) : TickPart d (d.onWit f) := ⟨.same rfl rfl rfl rfl, .same rfl rfl rfl rfl rfl⟩
theorem onMemc (d : Dev) (f : Memc → Memc) : TickPart d (d.onMemc f) := ⟨.same rfl rfl rfl rfl, .same rfl rfl rfl rfl rfl⟩
theorem onCal (d : Dev) (f : Cal → Cal) : TickPart d (d.onCal f) := ⟨.same rfl rfl rfl rfl, .same rfl rfl rfl rfl rfl⟩
theorem onDiag (d : Dev) (f : Diag → Diag) : TickPart d (d.onDiag f) := ⟨.same rfl rfl rfl rfl, .same rfl rfl rfl rfl rfl⟩
theorem onChg (d : Dev) (f : Chg → Chg) : TickPart d (d.onChg f) := ⟨.same rfl rfl rfl rfl, .same rfl rfl rfl rfl rfl⟩
theorem onSes (d : Dev) (f : Ses → Ses) : TickPart d (d.onSes f) := ⟨.same rfl rfl rfl rfl, .same rfl rfl rfl rfl rfl⟩
theorem onLedg (d : Dev) (f : Ledg → Ledg) : TickPart d (d.onLedg f) := ⟨.same rfl rfl rfl rfl, .same rfl rfl rfl rfl rfl⟩

theorem replies {d d' : Dev} (h : OnlyReplies d d') : TickPart d d' where
  array := { tiles := fun i => ⟨(d.tile i).lowMv, by rw [h.dev]; rfl⟩, passes := by rw [h.dev], transit := fun _ mem => by rwa [h.dev]
             pend := h.keeps }
  targets := .same (by rw [h.dev]) (by rw [h.dev]) (by rw [h.dev]) (by rw [h.dev]) (by rw [h.dev])

end TickPart

namespace TickStep

theorem onFrm (d : Dev) (f : Frm → Frm) (frame : FrameKept d (d.onFrm f)) (since : (f d.frm).since = d.frm.since)
    (standalone : (f d.frm).standalone = d.frm.standalone) (due : (f d.frm).noCommitDue = d.frm.noCommitDue) :
    TickStep d (d.onFrm f) :=
  ⟨.same rfl rfl rfl rfl, frame, ⟨since, standalone, due, rfl, rfl⟩⟩

/-- Targets, the mode and their counters are none of what a tick begins a frame with. -/
theorem targets (d : Dev) (f : Frm → Frm) (h : f d.frm = { d.frm with
      commits := (f d.frm).commits, modePend := (f d.frm).modePend, delayed := (f d.frm).delayed, mode := (f d.frm).mode
      oldMode := (f d.frm).oldMode, modeChanges := (f d.frm).modeChanges, transitional := (f d.frm).transitional
      late := (f d.frm).late, refused := (f d.frm).refused, reason := (f d.frm).reason, syncOut := (f d.frm).syncOut }) :
    TickStep d (d.onFrm f) := by
  refine onFrm d f ?_ ?_ ?_ ?_
  · constructor
    · rfl
    all_goals (unfold Dev.onFrm; rw [h])
  all_goals rw [h]

end TickStep

/-! ### The parts before the targets are judged -/

namespace TickPart

theorem tickTemps (d : Dev) (temps : List (BitVec 12)) : TickPart d (d.tickTemps temps) := by
  unfold Dev.tickTemps
  refine .trans (.ite (.trans (.trans ?_ (raise _ 76)) (send _ _ _ _ _)) ?_) (onLedg _ _)
  all_goals exact .trans (.trans (onArr d _ rfl) (onArr _ _ rfl)) (raiseIf _ _ 75)

theorem tickCharge (s : State) (periods : Nat) : TickPart s.dev (s.tickCharge periods).dev := by
  unfold State.tickCharge
  dsimp only [State.onDev_dev]
  exact .trans (foldl _ (fun d _ => .ite (refl d) (onCal d _)) s.dev.litTiles s.dev) (onLedg _ _)

theorem tickBudget (d : Dev) : TickPart d d.tickBudget := by
  unfold Dev.tickBudget
  exact .ite (.trans (onArr d _ rfl) (onArr _ _ rfl)) (onArr d _ rfl)

theorem lowReported (d : Dev) (t : Nat) :
    TickPart d ((d.send t 0x08 0 ((d.tile t).lowMv.getD 0)).onTile t (fun x => { x with lowMv := none })) where
  array := { tiles := fun i => by
               rw [Dev.tile_onTile, Dev.send_tile, Dev.send_tile]
               split
               · next same => exact ⟨none, by rw [same]⟩
               · exact ⟨(d.tile i).lowMv, rfl⟩
             passes := rfl, transit := fun _ h => List.mem_append_left _ h, pend := fun _ h => h }
  targets := .same rfl rfl rfl rfl rfl

theorem tickHeadroom (d : Dev) : TickPart d d.tickHeadroom := by
  unfold Dev.tickHeadroom
  refine .trans (onArr d _ ?_) (foldl _ lowReported _ _)
  split <;> rfl

/-- Counters of the frame that ends are none of what is kept. -/
theorem counter (d : Dev) (f : Frm → Frm) (h : f d.frm = { d.frm with
    forcedTicks := (f d.frm).forcedTicks, repeatFrames := (f d.frm).repeatFrames, minSlack := (f d.frm).minSlack }) :
    TickPart d (d.onFrm f) := by
  refine ⟨.same rfl rfl rfl rfl, ⟨?_, ⟨?_, ?_, ?_, rfl, rfl⟩, ?_, ?_, rfl⟩⟩
  · constructor
    · rfl
    all_goals (unfold Dev.onFrm; rw [h])
  all_goals (unfold Dev.onFrm; rw [h])

theorem forcedCounted (d : Dev) : TickPart d (d.onFrm (fun f => { f with forcedTicks := satInc 65535 f.forcedTicks })) :=
  counter d _ (by rfl)

theorem repeatCounted (d : Dev) : TickPart d (d.onFrm (fun f => { f with repeatFrames := satInc 65535 f.repeatFrames })) :=
  counter d _ (by rfl)

theorem tickForced (d : Dev) (n : Nat) : TickPart d (d.tickForced n) := by
  unfold Dev.tickForced
  refine .ite (.ite (.trans (.trans ?_ (repeatCounted _)) (raise _ 67))
    (.trans (.trans (.trans ?_ (repeatCounted _)) (raise _ 67)) (send _ _ _ _ _))) ?_
  all_goals exact .trans (.ite (forcedCounted d) (refl d)) (raiseIf _ _ 66)

theorem tickSlack (d : Dev) : TickPart d d.tickSlack := by
  unfold Dev.tickSlack
  split
  · exact .ite (refl d) (.trans (counter d _ (by rfl)) (raiseIf _ _ 63))
  · exact refl d

theorem tickWitness (d : Dev) (n : Nat) (whole trans pert : Bool) (periods : Nat) :
    TickPart d (d.tickWitness n whole trans pert periods) := by
  unfold Dev.tickWitness
  exact .trans (.trans (raiseIf d _ 39) (onWit _ _)) (onDiag _ _)

theorem tickOthers (d : Dev) (n : Nat) (first trans : Bool) : TickPart d (d.tickOthers n first trans) := by
  unfold Dev.tickOthers
  have keeper (d : Dev) : TickPart d (d.onKeep (fun k => { k with tick := n, tickAt := d.now, ticked := true, stood := 0 })) :=
    ⟨.same rfl rfl rfl rfl, .same rfl rfl rfl rfl rfl⟩
  exact .trans (.trans (.trans (.trans (onDiag d _) (onChg _ _)) (keeper _)) (onArr _ _ rfl)) (onMemc _ _)

end TickPart

/-! ### The targets of the tick -/

namespace TickStep

theorem commitResult (d : Dev) (isMode : Bool) (sent outcome reason now : Nat) :
    TickStep d (d.commitResult isMode sent outcome reason now) :=
  (TickPart.replies (OnlyReplies.commitResult ..)).step

theorem noteLate (d : Dev) : TickStep d d.noteLate := .trans (targets d _ (by rfl)) (TickPart.raise _ 64).step

theorem refuseCommit (d : Dev) (isMode : Bool) (sent now reason : Nat) : TickStep d (d.refuseCommit isMode sent now reason) :=
  .trans (.trans (targets d _ (by rfl)) (TickPart.raise _ 65).step) (commitResult ..)

theorem tickMode (d : Dev) (n : Nat) : TickStep d (d.tickMode n).1 := by
  unfold Dev.tickMode
  split
  · split
    · exact (TickPart.refl d).step
    · split <;> dsimp only
      · exact targets d _ (by rfl)
      · exact .trans (.trans (noteLate d) (targets _ _ (by rfl))) (commitResult ..)
  · exact (TickPart.refl d).step

theorem tickCommit (d : Dev) (n : Nat) : TickStep d (d.tickCommit n).1 := by
  unfold Dev.tickCommit
  split
  · exact (TickPart.refl d).step
  · dsimp only
    split
    · dsimp only
      exact targets d _ (by rfl)
    · split <;> dsimp only
      · exact .trans (.trans (.trans (targets d _ (by rfl)) (noteLate _)) (targets _ _ (by rfl))) (refuseCommit ..)
      · exact .trans (.trans (.trans (targets d _ (by rfl)) (noteLate _)) (targets _ _ (by rfl))) (commitResult ..)

theorem applyCommit (d : Dev) (c : Commit) : TickStep d (d.applyCommit c) := by
  unfold Dev.applyCommit
  exact (TickPart.ite (.onEng d _) (.trans (.onEng d _) (.foldl _ (fun d _ => .raise d 53) _ _))).step

theorem tickTargets (d : Dev) (n : Nat) : TickStep d (d.tickTargets n).1 := by
  unfold Dev.tickTargets
  have mode := tickMode d n
  have commit := (mode.trans (targets _ (fun f => { f with transitional := false }) (by rfl))).trans (tickCommit _ n)
  dsimp only
  split
  · dsimp only
    exact mode.trans (targets _ _ (by rfl))
  · split
    · exact commit.trans (applyCommit ..)
    · exact commit

end TickStep

/-! ### The parts after the content of the new frame is known -/

namespace TickPart

theorem busFreed (d : Dev) : TickPart d d.busFreed := by
  rw [d.busFreed_frame]
  exact onLedg d (fun _ => d.busFreed.ledg)

theorem checkpointDone (d : Dev) : TickPart d d.checkpointDone := by
  unfold Dev.checkpointDone
  dsimp only
  have counts := ite (c := (d.ledg.running == some stoppedTrigger) = true) (refl d)
    ((onLedg d (fun l => { l with checkpoints := satInc 65535 l.checkpoints })).trans (raise _ 120))
  exact .trans (.trans (.ite (counts.trans (onPwr _ _)) counts) (onLedg _ _)) (busFreed _)

theorem dropImage (d : Dev) : TickPart d d.dropImage := by
  unfold Dev.dropImage
  exact .ite (refl d) (.ite (.trans (onLedg d _) (checkpointDone _)) (onLedg d _))

theorem vc1Written (d : Dev) : TickPart d d.vc1Written := by
  unfold Dev.vc1Written
  exact .ite (refl d) (.trans (onFw d _) (onFw _ _))

theorem tickDramLess (d : Dev) : TickPart d d.tickDramLess := by
  unfold Dev.tickDramLess
  exact .ite (.trans (.trans (.trans (.trans (.trans (onMemc d _) (onFw _ _)) (vc1Written _)) (raise _ 45)) (send _ _ _ _ _)) (dropImage _))
    (refl d)

theorem tickStaging (d : Dev) : TickPart d d.tickStaging := by
  unfold Dev.tickStaging
  exact .ite (onCal d _) (refl d)

theorem tickPointer (d : Dev) (counts : Bool) (base : Nat) : TickPart d (d.tickPointer counts base) := by
  unfold Dev.tickPointer
  exact .ite (.trans (onCal d _) (onCal _ _)) (onCal d _)

theorem tickLevel (d : Dev) : TickPart d d.tickLevel := by
  unfold Dev.tickLevel
  split
  · refine .ite (refl d) ?_
    split
    · exact .trans (onPwr d _) (raise _ 2)
    · exact .trans (onPwr d _) (raiseIf _ _ 2)
    · exact .trans (onPwr d _) (raise _ 2)
  · exact refl d

theorem tickReplies (d : Dev) (n periods : Nat) (whole : Bool) : TickPart d (d.tickReplies n periods whole) := by
  unfold Dev.tickReplies
  exact .ite (replies (.reply ..)) (.trans (.trans (replies (.reply ..)) (replies (.reply ..))) (onFw _ _))

theorem witnessStop (d : Dev) : TickPart d d.witnessStop := by
  unfold Dev.witnessStop
  exact .ite (.trans (.trans (onWit d _) (raise _ 38)) (send _ _ _ _ _)) (onWit d _)

theorem endSession (d : Dev) : TickPart d d.endSession := by
  unfold Dev.endSession
  exact .trans (.trans (onSes d _) (onFw _ _)) (witnessStop _)

theorem abortPark (d : Dev) (code : Nat) : TickPart d (d.abortPark code) := by
  unfold Dev.abortPark Dev.refuseReq
  exact .trans (.trans (onPwr d _) (onPwr _ _)) (raise _ 3)

end TickPart

namespace TickStep

theorem tickCompose (d : Dev) (n dprev : Nat) : TickStep d (d.tickCompose n dprev) :=
  ⟨.same rfl rfl rfl rfl, .same rfl rfl, ⟨rfl, rfl, rfl, rfl, rfl⟩⟩

theorem discardPending (d : Dev) : TickStep d d.discardPending := by
  unfold Dev.discardPending
  exact .trans (.trans (targets d _ (by rfl)) (TickPart.onEng _ _).step) (TickPart.replies (.releases ..)).step

theorem leaveActive (d : Dev) : TickStep d d.leaveActive := by
  unfold Dev.leaveActive
  exact .trans (.trans (discardPending d) (TickPart.endSession _).step) (TickPart.raise _ 25).step

theorem onLink (d : Dev) (f : Link → Link) : TickStep d (d.onLink f) :=
  ⟨.same rfl rfl rfl rfl, .same rfl rfl, ⟨rfl, rfl, rfl, rfl, rfl⟩⟩

theorem linkDown (d : Dev) : TickStep d d.linkDown := by
  unfold Dev.linkDown
  refine .trans ?_ (onLink _ _)
  split
  · exact leaveActive d
  · exact (TickPart.refl d).step

theorem tickPark (s : State) : TickStep s.dev s.tickPark.dev := by
  unfold State.tickPark
  split
  · dsimp only
    split
    · exact (TickPart.abortPark ..).step
    · rw [State.onDev_dev]
      exact .trans (.trans (.trans (TickPart.onPwr _ _).step (linkDown _)) (targets _ _ (by rfl))) (TickPart.onMemc _ _).step
  · exact (TickPart.refl s.dev).step

end TickStep

end Sys2Proof.Machine

/-! ## The parts of a tick in order -/

namespace Sys2Proof.Machine

/-! ### The cut (R44, R49, R454) -/

/-- One pass is cut: its tile counts it, and it is reported. -/
def Dev.cutPass (d : Dev) (p : Pass) : Dev :=
  ((d.onTile p.tile (fun x => x.countCut p.purpose)).countFail.raise 78).send p.tile 0x04 0 (p.tile * 4 + p.chain)

theorem Dev.cutPasses_eq (d : Dev) : d.cutPasses = d.arr.passes.foldl Dev.cutPass (d.onArr (fun a => a.drop (fun _ => true))) := rfl

theorem Dev.cutPass_tile (d : Dev) (p : Pass) (i : Nat) :
    (d.cutPass p).tile i = if i = p.tile then (d.tile p.tile).countCut p.purpose else d.tile i := by
  unfold Dev.cutPass Dev.countFail
  rw [Dev.send_tile, Dev.tile_raise, Dev.onArr_tile, Dev.tile_onTile]

theorem TargetsKept.onArr (d : Dev) (f : Arr → Arr) : TargetsKept d (d.onArr f) := .same rfl rfl rfl rfl rfl

theorem TargetsKept.onTile (d : Dev) (t : Nat) (f : Tile → Tile) : TargetsKept d (d.onTile t f) := .same rfl rfl rfl rfl rfl

theorem TargetsKept.onTiles (d : Dev) (f : Nat → Tile → Tile) : TargetsKept d (d.onTiles f) := .same rfl rfl rfl rfl rfl

theorem Dev.cutPass_targets (d : Dev) (p : Pass) : TargetsKept d (d.cutPass p) := by
  unfold Dev.cutPass Dev.countFail
  exact .trans (.trans (.trans (.onTile d _ _) (.onArr _ _)) (TickPart.raise _ 78).targets) (TickPart.send _ _ _ _ _).targets

theorem Dev.cutPasses_targets (d : Dev) : TargetsKept d d.cutPasses := by
  rw [d.cutPasses_eq]
  exact List.foldlRecOn d.arr.passes Dev.cutPass (motive := fun d' => TargetsKept d d') (.onArr d _)
    (fun d' h p _ => h.trans (d'.cutPass_targets p))

theorem Dev.cutPasses_passes (d : Dev) : d.cutPasses.arr.passes = [] := by
  rw [d.cutPasses_eq]
  refine List.foldlRecOn d.arr.passes Dev.cutPass (motive := fun d' : Dev => d'.arr.passes = []) ?_ (fun _ h _ _ => h)
  exact List.filter_eq_nil_iff.mpr (fun _ _ => by simp)

theorem Tile.countCut_flags (x : Tile) (pu : Purpose) :
    (x.countCut pu).dark = x.dark ∧ (x.countCut pu).drive = x.drive ∧ (x.countCut pu).cut = satInc 255 x.cut := by
  unfold Tile.countCut
  split <;> exact ⟨rfl, rfl, rfl⟩

/-- Every cut pass of a tile is counted there, up to 255. -/
theorem Dev.foldl_cutPass_tile (i : Nat) : ∀ (ps : List Pass) (d : Dev), ((ps.foldl Dev.cutPass d).tile i).dark = (d.tile i).dark ∧
    ((ps.foldl Dev.cutPass d).tile i).drive = (d.tile i).drive ∧
    ((ps.foldl Dev.cutPass d).tile i).cut = (satInc 255)^[ps.countP (fun q => q.tile == i)] (d.tile i).cut
  | [], _ => ⟨rfl, rfl, rfl⟩
  | p :: ps, d => by
    obtain ⟨dark, drive, cut⟩ := foldl_cutPass_tile i ps (d.cutPass p)
    rw [List.foldl_cons, dark, drive, cut, d.cutPass_tile p i, List.countP_cons]
    by_cases own : i = p.tile
    · subst own
      obtain ⟨dark, drive, cut⟩ := (d.tile p.tile).countCut_flags p.purpose
      simp [dark, drive, cut]
    · have other : ¬ p.tile = i := fun e => own e.symm
      simp [own, other]

theorem iterate_satInc (mx : Nat) : ∀ (k n : Nat), 0 < k → (satInc mx)^[k] n = Nat.min mx (n + k)
  | 1, n, _ => satInc_eq_min mx n
  | k + 2, n, _ => by
    rw [Function.iterate_succ_apply, iterate_satInc mx (k + 1) _ (Nat.succ_pos k), satInc_eq_min]
    simp only [Nat.min_def]
    split <;> split <;> split <;> omega

theorem Dev.cutPasses_tile (d : Dev) (i : Nat) : (d.cutPasses.tile i).dark = (d.tile i).dark ∧
    (d.cutPasses.tile i).drive = (d.tile i).drive ∧
    (d.cutPasses.tile i).cut = (satInc 255)^[d.arr.passes.countP (fun q => q.tile == i)] (d.tile i).cut := by
  rw [d.cutPasses_eq]
  exact Dev.foldl_cutPass_tile i d.arr.passes (d.onArr (fun a => a.drop (fun _ => true)))

theorem Dev.cutPasses_reports (d : Dev) {p : Pass} (h : p ∈ d.arr.passes) :
    mkMsg p.tile 0x04 0 (p.tile * 4 + p.chain) ∈ d.cutPasses.keep.transit ∧ d.cutPasses.evt.pend.getLsbD 78 = true := by
  rw [d.cutPasses_eq]
  refine foldl_reaches (P := fun d' : Dev => mkMsg p.tile 0x04 0 (p.tile * 4 + p.chain) ∈ d'.keep.transit ∧
    d'.evt.pend.getLsbD 78 = true) (fun d' => ⟨?_, ?_⟩) (fun d' q reported => ⟨?_, ?_⟩) d.arr.passes _ h
  · exact List.mem_append_right _ (List.mem_singleton.mpr rfl)
  · exact Evt.raise_self _ _ rfl
  · exact List.mem_append_left _ reported.1
  · exact Evt.raise_keeps _ _ _ reported.2

/-! ### The copy (R45, R46) -/

/-- A tile's record after the copy. -/
def Tile.copyDone (x : Tile) : Tile := { x with repeated := x.repeats, drive := 0 }

theorem TickPart.tickCopy (s : State) : TickPart (s.dev.onTiles (fun _ x => x.copyDone)) s.tickCopy.dev := by
  unfold State.tickCopy
  dsimp only
  rw [State.onDev_dev]
  exact .trans (onArr (s.dev.onTiles (fun _ x => x.copyDone)) _ rfl) (raiseIf _ _ 77)

/-- The copy as each cell sees it: the tiles are asked as they stand before it. -/
theorem State.copied_cell (s : State) (wf : SMap.wf {} s.cells = true) (p : Nat) : SMap.get {} s.copied p =
    if (s.dev.tile (tileOf p)).copies then { s.cell p with active := (s.cell p).shadow } else s.cell p := by
  refine SMap.get_mapAll {} _ (fun k => ?_) s.cells 0 p ((SMap.wf_iff _ _).mp wf).1
  split <;> rfl

/-! ### The whole tick -/

/-- Periods of the frame that ends at a tick. -/
def Dev.periodsEnded (was : Dev) : Nat := if !was.frm.ticked then 0 else was.frm.period + 1

/-- The state once the passes are cut, the sensors read and the charge of the frame that ends counted. -/
def State.tickRead (s : State) (temps : List (BitVec 12)) : State :=
  let s' := s.onDev (fun d => d.cutPasses.tickTemps temps)
  if !s.dev.frm.ticked then s' else s'.tickCharge s.dev.periodsEnded

/-- What is reported of the frame that ended; `was` is the device before the tick. -/
def Dev.tickReport (was : Dev) (pert : Bool) (d : Dev) : Dev :=
  let first := !was.frm.ticked
  let ended := was.frm.transitional
  let d := ((d.tickBudget.tickHeadroom).tickForced was.nextTick).tickSlack
  if first then d else d.tickWitness was.nextTick (!first && (was.frm.repeatDue || ended)) ended pert was.periodsEnded

/-- The demand of the frame composed before. -/
def Dev.demandBefore (d : Dev) : Nat := if d.comp.complete then d.comp.demand else d.comp.dprev

/-- The new frame begins: its targets, its numbers and its content. -/
def Dev.tickBegin (was d : Dev) : Dev :=
  let first := !was.frm.ticked
  let n := was.nextTick
  let r := (d.tickOthers n first (was.frm.transitional || first)).tickTargets n
  let took (f : Commit → Bool) : Bool := r.2.1 && was.frm.commits.any (fun c => c.target == n && f c)
  let d := r.1.onChg (fun c => c.tickPoints r.2.1)
  ((d.onFrm (fun f => f.newFrame n d.now was.periodsEnded r.2.1)).tickGroups (if first then 0 else was.base)
    was.frm.transitional).tickContent r.2.1 r.2.2 first (took (fun c => c.sect.isSome)) (took (fun c => c.sym.isSome))

/-- The rest of a tick. -/
def Dev.tickFinish (was : Dev) (dprev : Nat) (d : Dev) : Dev :=
  let first := !was.frm.ticked
  let ended := was.frm.transitional
  let d := d.tickDramLess.tickStaging.tickPointer (!first && !ended) was.base
  let d := (d.tickCompose was.nextTick dprev).tickReplies was.nextTick was.periodsEnded (!first && (was.frm.repeatDue || ended))
  (d.releases was).tickLevel

theorem State.tickCore_eq (s : State) (temps : List (BitVec 12)) : s.tickCore temps =
    ((s.tickRead temps).tickCopy.onDev (fun d =>
      let e := s.dev.tickReport (s.tickRead temps).tickCopy.lat.perturbed d
      Dev.tickFinish s.dev e.demandBefore (Dev.tickBegin s.dev e))).tickPark := by
  unfold State.tickCore State.tickRead Dev.tickReport Dev.tickFinish Dev.tickBegin Dev.demandBefore Dev.periodsEnded
  dsimp only

theorem TickPart.tickRead (s : State) (temps : List (BitVec 12)) : TickPart s.dev.cutPasses (s.tickRead temps).dev := by
  unfold State.tickRead
  dsimp only
  split
  · exact tickTemps s.dev.cutPasses temps
  · exact .trans (tickTemps s.dev.cutPasses temps) (tickCharge (s.onDev (fun d => d.cutPasses.tickTemps temps)) _)

theorem TickPart.tickReport (was : Dev) (pert : Bool) (d : Dev) : TickPart d (was.tickReport pert d) := by
  unfold Dev.tickReport
  refine .ite ?_ (.trans ?_ (tickWitness ..))
  all_goals exact .trans (.trans (.trans (tickBudget d) (tickHeadroom _)) (tickForced _ _)) (tickSlack _)

theorem TickStep.tickFinish (was : Dev) (dprev : Nat) (d : Dev) : TickStep d (was.tickFinish dprev d) := by
  unfold Dev.tickFinish
  dsimp only
  exact .trans (.trans (.trans (.trans (.trans (.trans (TickPart.tickDramLess d).step (TickPart.tickStaging _).step)
    (TickPart.tickPointer ..).step) (tickCompose ..)) (TickPart.tickReplies ..).step) (TickPart.replies (.releases ..)).step)
    (TickPart.tickLevel _).step

theorem ArrayKept.onFrm (d : Dev) (f : Frm → Frm) : ArrayKept d (d.onFrm f) := .same rfl rfl rfl rfl

theorem Dev.tickGroups_kept (d : Dev) (base : Nat) (ended : Bool) :
    ArrayKept d (d.tickGroups base ended) ∧ FrameKept d (d.tickGroups base ended) :=
  ⟨.same rfl rfl rfl rfl, rfl, rfl, rfl, rfl, rfl, rfl, rfl⟩

theorem Dev.tickContent_kept (d : Dev) (applied trans fresh newSect newSym : Bool) :
    ArrayKept d (d.tickContent applied trans fresh newSect newSym) ∧ FrameKept d (d.tickContent applied trans fresh newSect newSym) :=
  ⟨.same rfl rfl rfl rfl, rfl, rfl, rfl, rfl, rfl, rfl, rfl⟩

/-- The frame of `d` has begun at the tick that follows `was`. -/
structure FrameBegins (was d : Dev) : Prop where
  tick : d.frm.tick = was.nextTick
  lastLen : d.frm.lastLen = was.periodsEnded
  period : d.frm.period = 0
  begun : d.frm.begun = []
  decision : d.frm.decision = .none
  tickAt : d.frm.tickAt = was.now

theorem FrameBegins.kept {was d d' : Dev} (h : FrameBegins was d) (kept : FrameKept d d') : FrameBegins was d' :=
  ⟨kept.tick.trans h.tick, kept.lastLen.trans h.lastLen, kept.period.trans h.period, kept.begun.trans h.begun,
    kept.decision.trans h.decision, kept.tickAt.trans h.tickAt⟩

theorem Dev.tickBegin_spec (was d : Dev) (now : d.now = was.now) : ArrayKept d (was.tickBegin d) ∧ FrameBegins was (was.tickBegin d) := by
  unfold Dev.tickBegin
  dsimp only
  generalize targets : (d.tickOthers was.nextTick (!was.frm.ticked) (was.frm.transitional || !was.frm.ticked)).tickTargets was.nextTick = r
  have judged : TickStep d (r.1.onChg (fun c => c.tickPoints r.2.1)) := by
    rw [← targets]
    exact .trans (.trans (TickPart.tickOthers d _ _ _).step (TickStep.tickTargets _ _)) (TickPart.onChg _ _).step
  generalize r.1.onChg (fun c => c.tickPoints r.2.1) = e at judged
  have begins : FrameBegins was (e.onFrm (fun f => f.newFrame was.nextTick e.now was.periodsEnded r.2.1)) :=
    ⟨rfl, rfl, rfl, rfl, rfl, judged.frame.now.trans now⟩
  obtain ⟨array, frame⟩ := Dev.tickGroups_kept (e.onFrm (fun f => f.newFrame was.nextTick e.now was.periodsEnded r.2.1))
    (if !was.frm.ticked then 0 else was.base) was.frm.transitional
  generalize Dev.tickGroups _ _ _ = g at array frame
  obtain ⟨array', frame'⟩ := g.tickContent_kept r.2.1 r.2.2 (!was.frm.ticked)
    (r.2.1 && was.frm.commits.any (fun c => c.target == was.nextTick && c.sect.isSome))
    (r.2.1 && was.frm.commits.any (fun c => c.target == was.nextTick && c.sym.isSome))
  exact ⟨((judged.array.trans (.onFrm e _)).trans array).trans array', (begins.kept frame).kept frame'⟩

/-! ### What a tick leaves -/

theorem State.tickPark_stores (s : State) : s.tickPark.pending = s.pending ∧ s.tickPark.mem = s.mem ∧ s.tickPark.otp = s.otp ∧
    s.tickPark.lat = s.lat ∧ s.tickPark.cells = s.cells := by
  unfold State.tickPark
  split
  · dsimp only
    split <;> simp only [State.onDev_pending, State.onDev_mem, State.onDev_otp, State.onDev_lat, State.onDev_cells, and_self]
  · simp only [and_self]

theorem State.tickRead_stores (s : State) (temps : List (BitVec 12)) : (s.tickRead temps).pending = s.pending ∧
    (s.tickRead temps).mem = s.mem ∧ (s.tickRead temps).otp = s.otp ∧ (s.tickRead temps).lat = s.lat ∧
    (s.tickRead temps).cells = s.cells := by
  unfold State.tickRead State.tickCharge
  dsimp only
  split <;> simp only [State.onDev_pending, State.onDev_mem, State.onDev_otp, State.onDev_lat, State.onDev_cells, and_self]

theorem State.tickCore_stores (s : State) (temps : List (BitVec 12)) : (s.tickCore temps).pending = s.pending ∧
    (s.tickCore temps).mem = s.mem ∧ (s.tickCore temps).otp = s.otp ∧ (s.tickCore temps).lat = s.lat ∧
    (s.tickCore temps).cells = (s.tickRead temps).copied := by
  rw [s.tickCore_eq temps]
  obtain ⟨pending, mem, otp, lat, -⟩ := s.tickRead_stores temps
  generalize s.tickRead temps = u at pending mem otp lat
  generalize hf : (fun d : Dev => _) = f
  obtain ⟨pending', mem', otp', lat', cells'⟩ := (u.tickCopy.onDev f).tickPark_stores
  exact ⟨pending'.trans pending, mem'.trans mem, otp'.trans otp, lat'.trans lat, cells'⟩

/-- The device once the frame that ended is reported. -/
def State.tickReported (s : State) (temps : List (BitVec 12)) : Dev :=
  s.dev.tickReport (s.tickRead temps).tickCopy.lat.perturbed (s.tickRead temps).tickCopy.dev

theorem State.tickReported_part (s : State) (temps : List (BitVec 12)) :
    TickPart ((s.tickRead temps).dev.onTiles (fun _ x => x.copyDone)) (s.tickReported temps) :=
  (TickPart.tickCopy (s.tickRead temps)).trans (TickPart.tickReport ..)

theorem State.tickReported_targets (s : State) (temps : List (BitVec 12)) : TargetsKept s.dev (s.tickReported temps) :=
  ((s.dev.cutPasses_targets.trans (TickPart.tickRead s temps).targets).trans (.onTiles _ _)).trans (s.tickReported_part temps).targets

theorem State.tickCore_step (s : State) (temps : List (BitVec 12)) :
    TickStep (s.dev.tickBegin (s.tickReported temps)) (s.tickCore temps).dev := by
  rw [s.tickCore_eq temps]
  refine .trans ?_ (TickStep.tickPark _)
  rw [State.onDev_dev]
  exact TickStep.tickFinish ..

/-- From the copy to its end a tick keeps the array. -/
theorem State.tickCore_array (s : State) (temps : List (BitVec 12)) :
    ArrayKept ((s.tickRead temps).dev.onTiles (fun _ x => x.copyDone)) (s.tickCore temps).dev :=
  ((s.tickReported_part temps).array.trans
    (s.dev.tickBegin_spec (s.tickReported temps) (s.tickReported_targets temps).frame.now).1).trans (s.tickCore_step temps).array

theorem State.tickCore_begins (s : State) (temps : List (BitVec 12)) : FrameBegins s.dev (s.tickCore temps).dev :=
  (s.dev.tickBegin_spec (s.tickReported temps) (s.tickReported_targets temps).frame.now).2.kept (s.tickCore_step temps).frame

/-- What the copy does to a tile and its cells, told of the state before the tick. -/
theorem State.tickCore_tile (s : State) (temps : List (BitVec 12)) {i : Nat} (lt : i < 192) :
    ((s.tickCore temps).dev.tile i).drive = 0 ∧ ((s.tickCore temps).dev.tile i).repeated = (s.dev.tile i).repeats ∧
    ((s.tickCore temps).dev.tile i).cut = (satInc 255)^[s.dev.arr.passes.countP (fun q => q.tile == i)] (s.dev.tile i).cut := by
  obtain ⟨dark, drive, cut⟩ := s.dev.cutPasses_tile i
  obtain ⟨m, read⟩ := (TickPart.tickRead s temps).array.tiles i
  obtain ⟨m', copied⟩ := (s.tickCore_array temps).tiles i
  rw [Dev.tile_onTiles _ _ lt, read] at copied
  rw [copied]
  exact ⟨rfl, by simp only [Tile.copyDone, Tile.repeats, Tile.driveReady, dark, drive], cut⟩

theorem State.tickRead_copies (s : State) (temps : List (BitVec 12)) (i : Nat) :
    ((s.tickRead temps).dev.tile i).copies = (s.dev.tile i).copies := by
  obtain ⟨dark, drive, -⟩ := s.dev.cutPasses_tile i
  obtain ⟨m, read⟩ := (TickPart.tickRead s temps).array.tiles i
  rw [read]
  simp only [Tile.copies, Tile.driveReady, dark, drive]

theorem State.tickCore_cell (s : State) (temps : List (BitVec 12)) (wf : SMap.wf {} s.cells = true) (p : Nat) :
    (s.tickCore temps).cell p =
      if (s.dev.tile (tileOf p)).copies then { s.cell p with active := (s.cell p).shadow } else s.cell p := by
  obtain ⟨-, -, -, -, read⟩ := s.tickRead_stores temps
  obtain ⟨-, -, -, -, cells⟩ := s.tickCore_stores temps
  have copied := (s.tickRead temps).copied_cell (by rw [read]; exact wf) p
  have same : (s.tickRead temps).cell p = s.cell p := by rw [State.cell, read]; rfl
  rw [State.tickRead_copies, same] at copied
  rw [State.cell, cells]
  exact copied

end Sys2Proof.Machine

/-! ## A tick copies the ready tiles (O34) -/

namespace Sys2Proof.Proofs

open Sys2Proof Sys2Proof.Machine Sys2Proof.Claims

theorem copies_iff_ready (s : State) (i : Nat) : (s.dev.tile i).copies = true ↔ ready s i := by
  simp [Tile.copies, Tile.driveReady, ready]

theorem repeats_of_lit {x : Tile} (lit : x.dark = false) : x.repeats = true ↔ x.drive ≠ 15 := by
  simp [Tile.repeats, Tile.driveReady, lit]

theorem tickCore_copied (s : State) (temps : List (BitVec 12)) (wf : SMap.wf {} s.cells = true) : TickCopied s (s.tickCore temps) := by
  refine ⟨fun p is => ?_, fun p isNot => ?_, fun i lt => (s.tickCore_tile temps lt).1, fun i lt lit => ?_⟩
  · rw [s.tickCore_cell temps wf, if_pos ((copies_iff_ready s _).mpr is)]
  · rw [s.tickCore_cell temps wf, if_neg (fun h => isNot ((copies_iff_ready s _).mp h))]
  · rw [(s.tickCore_tile temps lt).2.1]
    exact repeats_of_lit lit

/-- A boundary that is decided a tick, with the frames running, is one. -/
theorem exec_tick (s : State) (temps : List (BitVec 12)) (run : s.running = true) (decided : s.dev.frm.decision = .tick) :
    exec (.tick temps) s = .next (s.tickCore temps) := by
  have falls : (s.running && s.dev.frm.ticked && s.dev.frm.decision == .tick) = true := by
    rw [run, (State.running_spec run).1, decided]
    rfl
  exact congrArg Host.Outcome.next (if_pos falls)

theorem nextTick_of_ticked {d : Dev} (ticked : d.frm.ticked = true) : d.nextTick = (d.frm.tick + 1) % 2 ^ 32 := by
  rw [Dev.nextTick, ticked]
  rfl

theorem periodsEnded_of_ticked {d : Dev} (ticked : d.frm.ticked = true) : d.periodsEnded = d.frm.period + 1 := by
  rw [Dev.periodsEnded, ticked]
  rfl

/-- The copy is told of cells and tiles alone. -/
theorem tickCopied_of_same {s s' t : State} (tiles : ∀ i, s'.dev.tile i = s.dev.tile i) (cells : ∀ p, s'.cell p = s.cell p)
    (h : TickCopied s' t) : TickCopied s t := by
  unfold TickCopied ready at h ⊢
  simpa only [tiles, cells] using h

/-- The state of a limit once a locked follower that no tick pulse has reached has lost its lock (R102). -/
def limitState (s : State) : State :=
  s.onDev (fun d => if d.lockedFollower && d.frm.decision == .limit then d.syncFault 1 else d)

theorem limitState_kept (s : State) : (limitState s).dev.tiles = s.dev.tiles ∧ (limitState s).dev.frm.tick = s.dev.frm.tick ∧
    (limitState s).dev.frm.ticked = s.dev.frm.ticked ∧ (limitState s).dev.frm.period = s.dev.frm.period := by
  unfold limitState
  rw [State.onDev_dev]
  split <;> exact ⟨rfl, rfl, rfl, rfl⟩

theorem exec_limitTick (s : State) (temps : List (BitVec 12)) (run : s.running = true) (decided : s.dev.frm.decision ≠ .none)
    (limit : s.dev.frm.period = 23) : exec (.limitTick temps) s = .next ((limitState s).tickCore temps) := by
  have atLimit : s.dev.atLimit = true := by simp [Dev.atLimit, decided, limit]
  have falls : (s.running && s.dev.atLimit) = true := by
    rw [run, atLimit]
    rfl
  exact congrArg Host.Outcome.next (if_pos falls)

/-- Settles O34: of the parts of a tick only the copy reaches words and flags, and it asks each tile's flags as they stood before the
tick. -/
theorem tickCopiesReadyTiles : Obligations.TickCopiesReadyTiles := by
  refine fun s temps wf run => ⟨fun decided => ?_, fun decided limit => ?_⟩
  · obtain ⟨pending, mem, otp, lat, -⟩ := s.tickCore_stores temps
    have begins := s.tickCore_begins temps
    exact ⟨_, exec_tick s temps run decided, tickCore_copied s temps wf, mem, otp, lat, pending,
      begins.tick.trans (nextTick_of_ticked (State.running_spec run).1),
      begins.lastLen.trans (periodsEnded_of_ticked (State.running_spec run).1), begins.period, begins.begun,
      begins.decision, begins.tickAt⟩
  · obtain ⟨pending, mem, otp, lat, -⟩ := (limitState s).tickCore_stores temps
    obtain ⟨tiles, tick, ticked, period⟩ := limitState_kept s
    have begins := (limitState s).tickCore_begins temps
    have runs : (limitState s).dev.frm.ticked = true := ticked.trans (State.running_spec run).1
    refine ⟨_, exec_limitTick s temps run decided limit, ?_, mem, otp, lat, pending, ?_, ?_⟩
    · exact tickCopied_of_same (s' := limitState s) (fun i => by rw [Dev.tile, tiles]; rfl) (fun _ => rfl)
        (tickCore_copied (limitState s) temps wf)
    · rw [begins.tick, nextTick_of_ticked runs, tick]
    · rw [begins.lastLen, periodsEnded_of_ticked runs, period, limit]

end Sys2Proof.Proofs

/-! ## PWM periods and the run of ticks without a commit (O36) -/

namespace Sys2Proof.Machine

theorem nth_updNth {α : Type} (dflt : α) (f : α → α) : ∀ {l : List α} {i : Nat}, i < l.length →
    nth dflt (updNth l i f) i = f (nth dflt l i)
  | _ :: _, 0, _ => rfl
  | _ :: l, i + 1, h => nth_updNth dflt f (l := l) (i := i) (Nat.lt_of_succ_lt_succ h)

theorem Frm.started_start {f : Frm} {g : Nat} (h : g < f.starts.length) : (f.start g).started g = f.started g + 1 :=
  nth_updNth 0 (· + 1) h

/-- The cells once group `g` has started a period. -/
def State.periodCells (s : State) (g : Nat) : SMap Cell := SMap.mapAll {} (fun p c => if tileOf p % 16 = g then c.sample else c) s.cells

theorem State.periodCells_get (s : State) (g : Nat) (wf : SMap.wf {} s.cells = true) (p : Nat) :
    SMap.get {} (s.periodCells g) p = if tileOf p % 16 = g then (s.cell p).sample else s.cell p := by
  refine SMap.get_mapAll {} _ (fun k => ?_) s.cells 0 p ((SMap.wf_iff _ _).mp wf).1
  split <;> rfl

/-- A tile that owes the windows of a period. -/
def DiagTile.owing (y : DiagTile) : DiagTile := { y with probed := false, checked := false }

/-- The tiles of group `g` owe the windows of a period. -/
def Dev.oweWindows (d : Dev) (g : Nat) : Dev :=
  d.onDiag (fun x => { x with tiles := SMap.mapAll {} (fun t y => if t % 16 = g then y.owing else y) x.tiles })

theorem Dev.oweWindows_dtile (d : Dev) (g : Nat) (wf : SMap.wf {} d.diag.tiles = true) (i : Nat) :
    (d.oweWindows g).dtile i = if i % 16 = g then (d.dtile i).owing else d.dtile i := by
  refine SMap.get_mapAll {} (fun t (y : DiagTile) => if t % 16 = g then y.owing else y) (fun k => ?_) d.diag.tiles 0 i
    ((SMap.wf_iff _ _).mp wf).1
  split <;> rfl

/-- The device once group `g` has started a period. -/
def Dev.groupStarted (d : Dev) (g : Nat) : Dev :=
  if g = 0 then (d.oweWindows g).periodStart else (d.oweWindows g).onFrm (fun f => f.start g)

theorem Dev.windowsMarked (d : Dev) (last : Bool) : (if last then d.onDiag (fun g => { g with windowsRan := true }) else d) =
    d.onDiag (fun g => { g with windowsRan := last || g.windowsRan }) := by
  cases last <;> rfl

/-- What a start of a period of group 0 reaches. -/
theorem Dev.periodStart_spec (d : Dev) (len : d.frm.starts.length = 16) :
    d.periodStart = { d with frm := d.periodStart.frm, diag := d.periodStart.diag } ∧
    d.periodStart.diag.tiles = d.diag.tiles ∧ d.periodStart.frm.ticked = d.frm.ticked ∧
    d.periodStart.frm.started 0 = d.frm.started 0 + 1 := by
  have starts : nth 0 (updNth d.frm.starts 0 (· + 1)) 0 = nth 0 d.frm.starts 0 + 1 := nth_updNth 0 _ (by omega)
  unfold Dev.periodStart
  dsimp only
  cases d.frm.periodBegun with
  | false => exact ⟨rfl, rfl, rfl, starts⟩
  | true =>
    rw [if_neg (by simp), Dev.windowsMarked]
    refine ⟨?_, rfl, rfl, starts⟩
    rfl

theorem Dev.periodStart_first {d : Dev} (first : d.frm.periodBegun = false) :
    d.periodStart.frm.period = d.frm.period ∧ d.periodStart.frm.periodBegun = true := by
  unfold Dev.periodStart
  dsimp only
  rw [first]
  exact ⟨rfl, rfl⟩

theorem Dev.periodStart_later {d : Dev} (later : d.frm.periodBegun = true) : d.periodStart.frm.period = d.frm.period + 1 := by
  unfold Dev.periodStart
  dsimp only
  rw [later, if_neg (by simp), Dev.windowsMarked]
  rfl

theorem Dev.groupStarted_spec (d : Dev) {g : Nat} (lt : g < 16) (len : d.frm.starts.length = 16) :
    d.groupStarted g = { d with frm := (d.groupStarted g).frm, diag := (d.groupStarted g).diag } ∧
    (d.groupStarted g).diag.tiles = (d.oweWindows g).diag.tiles ∧ (d.groupStarted g).frm.ticked = d.frm.ticked ∧
    (d.groupStarted g).frm.started g = d.frm.started g + 1 := by
  unfold Dev.groupStarted
  split
  · next zero =>
    obtain ⟨frame, tiles, ticked, started⟩ := (d.oweWindows g).periodStart_spec len
    subst zero
    exact ⟨frame, tiles, ticked, started⟩
  · have short : g < (d.oweWindows g).frm.starts.length := by
      rw [show (d.oweWindows g).frm.starts.length = 16 from len]
      exact lt
    exact ⟨rfl, rfl, rfl, Frm.started_start short⟩

theorem Dev.groupStarted_other (d : Dev) {g : Nat} (other : g ≠ 0) : d.groupStarted g = { d with
    frm := { d.frm with starts := (d.groupStarted g).frm.starts }, diag := { d.diag with tiles := (d.groupStarted g).diag.tiles } } := by
  unfold Dev.groupStarted
  rw [if_neg other]
  rfl

/-- Light of a cell whose tile runs a period of this frame (R31, R48). -/
theorem State.light_run {s : State} {p : Nat} (run : s.running = true) (started : s.dev.frm.started (tileOf p % 16) ≠ 0) :
    s.light p = if (s.cell p).isolate = true ∨ (s.dev.tile (tileOf p)).dark = true then (0, 0)
      else (bits (s.cell p).sampled.toNat 10 6, bits (s.cell p).sampled.toNat 0 10) := by
  obtain ⟨-, safe, clamped, entry, wake⟩ := State.running_spec run
  simp [State.light, safe, clamped, entry, wake, started]

theorem Dev.tickTargets_none {d : Dev} {n : Nat} (commits : ∀ c ∈ d.frm.commits, c.target ≠ n)
    (mode : ∀ m, d.frm.modePend = some m → m.target ≠ n) :
    d.tickTargets n = (d.onFrm (fun f => { f with transitional := false }), false, false) := by
  have noMode : d.tickMode n = (d, false) := by
    unfold Dev.tickMode
    cases pend : d.frm.modePend with
    | none => rfl
    | some m => exact if_pos (mode m pend)
  have noCommit : (d.onFrm (fun f => { f with transitional := false })).frm.commits.find? (fun c => c.target == n) = none :=
    List.find?_eq_none.mpr (fun c mem => by simpa using commits c mem)
  unfold Dev.tickTargets Dev.tickCommit
  rw [noMode]
  simp only [Bool.false_eq_true, if_false, noCommit]

/-- The 120th tick in a row without a commit, while host content is composed (R93, R306). -/
theorem Dev.tickContent_runEnds {d : Dev} (newSect newSym : Bool) (since : d.frm.since = 119) (host : d.frm.standalone = false)
    (carries : d.link.carries = true) (held : d.keep.standaloneHeld = false) :
    (d.tickContent false false false newSect newSym).frm.since = 120 ∧
    (d.tickContent false false false newSect newSym).frm.standalone = true ∧
    (d.tickContent false false false newSect newSym).frm.noCommitDue = true ∧
    (d.tickContent false false false newSect newSym).comp.content = .standalone := by
  simp [Dev.tickContent, since, host, carries, held]

end Sys2Proof.Machine

namespace Sys2Proof.Proofs

open Sys2Proof Sys2Proof.Machine Sys2Proof.Claims

theorem mayStart_iff (s : State) (g : Nat) : MayStart s g ↔ (g != 0 || s.dev.frm.goesOn) = true := by
  simp [MayStart, Frm.goesOn, and_assoc]

/-- The state once group `g` has started a period. -/
def periodStarted (s : State) (g : Nat) : State := { s.onDev (fun d => d.groupStarted g) with cells := s.periodCells g }

theorem exec_pwmPeriodStart (s : State) {g : Nat} (run : s.running = true) (lt : g < 16) (may : MayStart s g) :
    exec (.pwmPeriodStart g) s = .next (periodStarted s g) := by
  have starts : (s.running && decide (g < 16) && (g != 0 || s.dev.frm.goesOn)) = true := by
    rw [run, decide_eq_true lt, (mayStart_iff s g).mp may]
    rfl
  exact congrArg Host.Outcome.next (if_pos starts)

theorem exec_pwmPeriodStart_refused (s : State) {g : Nat} (may : ¬ MayStart s g) : exec (.pwmPeriodStart g) s = .next s := by
  have stays : (s.running && decide (g < 16) && (g != 0 || s.dev.frm.goesOn)) ≠ true := fun h =>
    may ((mayStart_iff s g).mpr ((Bool.and_eq_true _ _).mp h).2)
  exact congrArg Host.Outcome.next (if_neg stays)

theorem exec_noCommit (s : State) (on : s.dev.pwr.mainOn = true) (due : s.dev.frm.noCommitDue = true) :
    exec .noCommit s = .next (s.onDev (fun d => (d.onFrm (fun f => { f with noCommitDue := false })).raise 68)) := by
  have reports : (s.dev.frm.noCommitDue && s.dev.pwr.mainOn) = true := by
    rw [on, due]
    rfl
  exact congrArg (fun d => Host.Outcome.next { s with dev := d }) (if_pos reports)

/-- The new frame of the 120th tick in a row without a commit. -/
theorem tickBegin_runEnds (was d : Dev) (ticked : was.frm.ticked = true) (kept : TargetsKept was d) (since : was.frm.since = 119)
    (host : was.frm.standalone = false) (carries : was.link.carries = true) (held : was.keep.standaloneHeld = false)
    (commits : ∀ c ∈ was.frm.commits, c.target ≠ was.nextTick)
    (mode : ∀ m, was.frm.modePend = some m → m.target ≠ was.nextTick) :
    (was.tickBegin d).frm.since = 120 ∧ (was.tickBegin d).frm.standalone = true ∧ (was.tickBegin d).frm.noCommitDue = true ∧
    (was.tickBegin d).comp.content = .standalone := by
  have part := kept.trans (TickPart.tickOthers d was.nextTick (!was.frm.ticked) (was.frm.transitional || !was.frm.ticked)).targets
  unfold Dev.tickBegin
  dsimp only
  generalize d.tickOthers was.nextTick (!was.frm.ticked) (was.frm.transitional || !was.frm.ticked) = e at part ⊢
  rw [Dev.tickTargets_none (by rw [part.commits]; exact commits) (by rw [part.modePend]; exact mode), ticked]
  refine Dev.tickContent_runEnds _ _ ?_ ?_ ?_ ?_
  · exact part.content.since.trans since
  · exact part.content.standalone.trans host
  · simpa only [Dev.tickGroups, Dev.onFrm_link, Dev.onChg_link, part.link] using carries
  · simpa only [Dev.tickGroups, Dev.onFrm_keep, Dev.onChg_keep, part.content.held] using held

theorem tickCore_runEnds (s : State) (temps : List (BitVec 12)) (ticked : s.dev.frm.ticked = true) (since : s.dev.frm.since = 119)
    (host : s.dev.frm.standalone = false) (carries : s.dev.link.carries = true) (held : s.dev.keep.standaloneHeld = false)
    (commits : ∀ c ∈ s.dev.frm.commits, c.target ≠ s.dev.nextTick)
    (mode : ∀ m, s.dev.frm.modePend = some m → m.target ≠ s.dev.nextTick) :
    (s.tickCore temps).dev.frm.since = 120 ∧ (s.tickCore temps).dev.frm.standalone = true ∧
    (s.tickCore temps).dev.frm.noCommitDue = true ∧ (s.tickCore temps).dev.comp.content = .standalone := by
  obtain ⟨run, beam, due, content⟩ := tickBegin_runEnds s.dev (s.tickReported temps) ticked (s.tickReported_targets temps) since host
    carries held commits mode
  have kept := (s.tickCore_step temps).content
  exact ⟨kept.since.trans run, kept.standalone.trans beam, kept.noCommitDue.trans due, kept.content.trans content⟩

theorem running_periodStarted {s : State} {g : Nat} (run : s.running = true) (lt : g < 16) (len : s.dev.frm.starts.length = 16) :
    (periodStarted s g).running = true := by
  obtain ⟨frame, -, ticked, -⟩ := s.dev.groupStarted_spec lt len
  have same : (periodStarted s g).running = s.running := by
    unfold State.running periodStarted
    rw [State.onDev_dev, frame, ticked]
    rfl
  rw [same, run]

/-- Settles O36: a period start maps one change over the cells of its group and one over its tiles, and the parts of a tick other than
the content of the new frame keep the run of ticks without a commit. -/
theorem periodsSampleActiveWords : Obligations.PeriodsSampleActiveWords := by
  refine ⟨fun s g wf dwf len run lt may => ?_, fun s may => exec_pwmPeriodStart_refused s may, fun s on due => ?_,
    fun s temps run decided _ since host carries held commits mode =>
      ⟨_, exec_tick s temps run decided,
        tickCore_runEnds s temps (State.running_spec run).1 since host carries held commits mode⟩⟩
  · obtain ⟨frame, dtiles, ticked, started⟩ := s.dev.groupStarted_spec lt len
    have cell (p : Nat) : (periodStarted s g).cell p = if tileOf p % 16 = g then (s.cell p).sample else s.cell p :=
      s.periodCells_get g wf p
    have dtile (i : Nat) : (periodStarted s g).dev.dtile i = if i % 16 = g then (s.dev.dtile i).owing else s.dev.dtile i := by
      rw [← s.dev.oweWindows_dtile g dwf i]
      exact congrArg (fun m => SMap.get {} m i) dtiles
    refine ⟨_, exec_pwmPeriodStart s run lt may, cell, fun p own => ?_, rfl, rfl, rfl, started,
      fun other => s.dev.groupStarted_other other, fun i own => ?_, fun i other => ?_, fun zero first => ?_, fun zero later => ?_⟩
    · have nonzero : (periodStarted s g).dev.frm.started (tileOf p % 16) ≠ 0 := by
        rw [own]
        exact ne_of_eq_of_ne started (Nat.succ_ne_zero _)
      have tile : (periodStarted s g).dev.tile (tileOf p) = s.dev.tile (tileOf p) := by
        rw [periodStarted, State.onDev_dev, frame]
        rfl
      rw [State.light_run (running_periodStarted run lt len) nonzero, cell, if_pos own, tile]
      rfl
    · rw [dtile, if_pos own]
      exact ⟨rfl, rfl⟩
    · rw [dtile, if_neg other]
    · subst zero
      exact (s.dev.oweWindows 0).periodStart_first first
    · subst zero
      exact (s.dev.oweWindows 0).periodStart_later later
  · refine ⟨_, exec_noCommit s on due, ⟨rfl, rfl, rfl, rfl, rfl⟩, raises_one rfl rfl, rfl⟩

end Sys2Proof.Proofs

/-! ## Starts of passes, chain by chain (R37, R41, R44, R51) -/

namespace Sys2Proof.Machine

/-- What a running pass carries. -/
def Pass.load (p : Pass) : Purpose × List (BitVec 16) := (p.purpose, p.data)

/-- READs of tile `t` that still run give no verdict any more. -/
def Pass.voidRead (t : Nat) (p : Pass) : Pass := if p.tile == t && p.purpose == .readback then { p with void := true } else p

theorem Pass.voidRead_keeps (t : Nat) (p : Pass) :
    (p.voidRead t).tile = p.tile ∧ (p.voidRead t).chain = p.chain ∧ (p.voidRead t).load = p.load := by
  unfold Pass.voidRead
  split <;> exact ⟨rfl, rfl, rfl⟩

theorem Pass.voidRead_other {t : Nat} {p : Pass} (h : p.tile ≠ t) : p.voidRead t = p := if_neg (by simp [h])

theorem Dev.passOn_tile {d : Dev} {x k : Nat} {p : Pass} (h : d.passOn x k = some p) : p.tile = x := by
  have found := List.find?_some h
  simp only [Bool.and_eq_true, beq_iff_eq] at found
  exact found.1

theorem Dev.voidReadback_passOn (d : Dev) (t x k : Nat) : (d.voidReadback t).passOn x k = (d.passOn x k).map (Pass.voidRead t) := by
  have passes : (d.voidReadback t).arr.passes = d.arr.passes.map (Pass.voidRead t) := rfl
  have same : ((fun p : Pass => p.tile == x && p.chain == k) ∘ Pass.voidRead t) = (fun p : Pass => p.tile == x && p.chain == k) := by
    funext p
    obtain ⟨tile, chain, -⟩ := p.voidRead_keeps t
    simp only [Function.comp, tile, chain]
  rw [Dev.passOn, passes, List.find?_map, same]
  rfl

theorem Dev.voidReadback_load (d : Dev) (t x k : Nat) :
    ((d.voidReadback t).passOn x k).map Pass.load = (d.passOn x k).map Pass.load := by
  rw [d.voidReadback_passOn, Option.map_map]
  exact congrArg (fun f => (d.passOn x k).map f) (funext fun p => (p.voidRead_keeps t).2.2)

theorem Dev.voidReadback_passOn_other (d : Dev) {t x : Nat} (h : x ≠ t) (k : Nat) : (d.voidReadback t).passOn x k = d.passOn x k := by
  rw [d.voidReadback_passOn]
  cases on : d.passOn x k with
  | none => rfl
  | some p =>
    have other : p.tile ≠ t := by rwa [Dev.passOn_tile on]
    exact congrArg some (Pass.voidRead_other other)

/-- The owed READs and the READs returned of a tile: as they were, or its readback begins again. -/
def ReadsKept (a b : Tile) : Prop :=
  (b.readDue = a.readDue ∧ b.reads = a.reads) ∨ (b.readDue = 15 ∧ b.reads = [none, none, none, none])

theorem ReadsKept.refl (a : Tile) : ReadsKept a a := .inl ⟨rfl, rfl⟩

theorem ReadsKept.trans {a b c : Tile} (h : ReadsKept a b) (h' : ReadsKept b c) : ReadsKept a c := by
  rcases h' with ⟨due, reads⟩ | again
  · rcases h with ⟨due', reads'⟩ | ⟨due', reads'⟩
    · exact .inl ⟨due.trans due', reads.trans reads'⟩
    · exact .inr ⟨due.trans due', reads.trans reads'⟩
  · exact .inr again

/-- While the lamp runs, starts of passes on the chains `C` reach those chains, the flags of their tiles' READs and what counts and
reports a refused header. -/
structure OnlyOn (C : Nat → Nat → Prop) (s t : State) : Prop where
  only : OnlyPasses s t
  chains : ∀ x k, ¬ C x k → (t.dev.passOn x k).map Pass.load = (s.dev.passOn x k).map Pass.load
  tiles : ∀ x, (∀ k, ¬ C x k) → t.dev.tile x = s.dev.tile x ∧ ∀ k, t.dev.passOn x k = s.dev.passOn x k
  flags : ∀ x, (t.dev.tile x).dark = (s.dev.tile x).dark ∧ (t.dev.tile x).isoDue = (s.dev.tile x).isoDue ∧
    (t.dev.tile x).trimDue = (s.dev.tile x).trimDue
  reads : s.dev.frm.ticked = true → ∀ x, ReadsKept (s.dev.tile x) (t.dev.tile x)
  others : t.dev.diag.pix = s.dev.diag.pix ∧ t.dev.arr.roundOn = s.dev.arr.roundOn
  transit : ∀ m ∈ s.dev.keep.transit, m ∈ t.dev.keep.transit
  pend : ∀ n, s.dev.evt.pend.getLsbD n = true → t.dev.evt.pend.getLsbD n = true

namespace OnlyOn

theorem refl (C : Nat → Nat → Prop) (s : State) : OnlyOn C s s :=
  ⟨.refl s, fun _ _ _ => rfl, fun _ _ => ⟨rfl, fun _ => rfl⟩, fun _ => ⟨rfl, rfl, rfl⟩, fun _ _ => .refl _, ⟨rfl, rfl⟩,
    fun _ h => h, fun _ h => h⟩

theorem frm {C : Nat → Nat → Prop} {s t : State} (h : OnlyOn C s t) : t.dev.frm = s.dev.frm := by rw [h.only.dev]

theorem trans {C : Nat → Nat → Prop} {a b c : State} (h : OnlyOn C a b) (h' : OnlyOn C b c) : OnlyOn C a c where
  only := h.only.trans h'.only
  chains x k out := (h'.chains x k out).trans (h.chains x k out)
  tiles x out := by
    obtain ⟨tile, passes⟩ := h.tiles x out
    obtain ⟨tile', passes'⟩ := h'.tiles x out
    exact ⟨tile'.trans tile, fun k => (passes' k).trans (passes k)⟩
  flags x := by
    obtain ⟨dark, iso, trim⟩ := h.flags x
    obtain ⟨dark', iso', trim'⟩ := h'.flags x
    exact ⟨dark'.trans dark, iso'.trans iso, trim'.trans trim⟩
  reads run x := (h.reads run x).trans (h'.reads (by rw [h.frm]; exact run) x)
  others := ⟨h'.others.1.trans h.others.1, h'.others.2.trans h.others.2⟩
  transit m mem := h'.transit m (h.transit m mem)
  pend n mem := h'.pend n (h.pend n mem)

theorem mono {C C' : Nat → Nat → Prop} {s t : State} (le : ∀ x k, C x k → C' x k) (h : OnlyOn C s t) : OnlyOn C' s t :=
  { h with
    chains := fun x k out => h.chains x k (fun mem => out (le x k mem))
    tiles := fun x out => h.tiles x (fun k mem => out k (le x k mem)) }

theorem foldl {f : State → Nat × Nat → State} (hf : ∀ s c, OnlyOn (fun x k => (x, k) = c) s (f s c)) (cs : List (Nat × Nat))
    (s : State) : OnlyOn (fun x k => (x, k) ∈ cs) s (cs.foldl f s) :=
  List.foldlRecOn cs f (motive := fun t => OnlyOn (fun x k => (x, k) ∈ cs) s t) (refl _ s)
    (fun t h c mem => h.trans ((hf t c).mono (fun x k e => by rw [e]; exact mem)))

end OnlyOn

theorem Dev.refusePass_tile (d : Dev) (t k x : Nat) : (d.refusePass t k).tile x =
    if x = t then { d.tile t with hdrRefused := satInc 255 (d.tile t).hdrRefused } else d.tile x := by
  unfold Dev.refusePass Dev.countFail
  rw [Dev.send_tile, Dev.tile_raise, Dev.onArr_tile, Dev.tile_onTile]

theorem Dev.refusePass_passOn (d : Dev) (t k x l : Nat) : (d.refusePass t k).passOn x l = d.passOn x l := by
  simp [Dev.passOn, Dev.refusePass, Dev.countFail]

theorem Dev.refusePass_reports (d : Dev) (t k : Nat) : mkMsg t 0x01 1 (t * 4 + k) ∈ (d.refusePass t k).keep.transit ∧
    (d.refusePass t k).evt.pend.getLsbD 78 = true := by
  constructor
  · simp [Dev.refusePass]
  · simpa [Dev.refusePass, Dev.countFail] using Evt.raise_self d.evt 78 rfl

theorem Dev.voidReadback_tile_other (d : Dev) {t x : Nat} (h : x ≠ t) : (d.voidReadback t).tile x = d.tile x := by
  unfold Dev.voidReadback
  rw [Dev.onArr_tile, Dev.tile_onTile, if_neg h]

theorem Dev.voidReadback_flags (d : Dev) (t x : Nat) : ((d.voidReadback t).tile x).dark = (d.tile x).dark ∧
    ((d.voidReadback t).tile x).isoDue = (d.tile x).isoDue ∧ ((d.voidReadback t).tile x).trimDue = (d.tile x).trimDue := by
  unfold Dev.voidReadback
  rw [Dev.onArr_tile, Dev.tile_onTile]
  split
  · next e =>
    rw [e]
    exact ⟨rfl, rfl, rfl⟩
  · exact ⟨rfl, rfl, rfl⟩

namespace OnlyOn

theorem refusePass (s : State) (t k : Nat) : OnlyOn (fun x l => (x, l) = (t, k)) s (s.onDev (fun d => d.refusePass t k)) := by
  have tile (x : Nat) := s.dev.refusePass_tile t k x
  refine { only := .refusePass s t k, chains := fun x l _ => ?_, tiles := fun x out => ⟨?_, fun l => ?_⟩, flags := fun x => ?_
           reads := fun _ x => ?_, others := ⟨?_, ?_⟩, transit := fun m mem => ?_, pend := fun n mem => ?_ }
  · rw [State.onDev_dev, Dev.refusePass_passOn]
  · rw [State.onDev_dev, tile, if_neg (fun e => out k (by rw [e]))]
  · rw [State.onDev_dev, Dev.refusePass_passOn]
  · rw [State.onDev_dev, tile]
    split
    · next e =>
      rw [e]
      exact ⟨rfl, rfl, rfl⟩
    · exact ⟨rfl, rfl, rfl⟩
  · rw [State.onDev_dev, tile]
    split
    · next e =>
      rw [e]
      exact .inl ⟨rfl, rfl⟩
    · exact .refl _
  · simp [Dev.refusePass, Dev.countFail]
  · simp [Dev.refusePass, Dev.countFail]
  · simp [Dev.refusePass, Dev.countFail, mem]
  · simpa [Dev.refusePass, Dev.countFail] using Evt.raise_keeps s.dev.evt 78 n mem

theorem voidReadback (s : State) (t k : Nat) : OnlyOn (fun x l => (x, l) = (t, k)) s (s.onDev (fun d => d.voidReadback t)) := by
  refine { only := .voidReadback s t, chains := fun x l _ => s.dev.voidReadback_load t x l, tiles := fun x out => ?_
           flags := fun x => s.dev.voidReadback_flags t x, reads := fun run x => ?_, others := ⟨?_, ?_⟩, transit := fun m mem => ?_
           pend := fun n mem => ?_ }
  · have other : x ≠ t := fun e => out k (by rw [e])
    exact ⟨s.dev.voidReadback_tile_other other, s.dev.voidReadback_passOn_other other⟩
  · rw [State.onDev_dev]
    by_cases own : x = t
    · rw [own, s.dev.voidReadback_tile t run]
      exact .inr ⟨rfl, rfl⟩
    · rw [s.dev.voidReadback_tile_other own]
      exact .refl _
  · simp [Dev.voidReadback]
  · simp [Dev.voidReadback]
  · simpa [Dev.voidReadback] using mem
  · simpa [Dev.voidReadback] using mem

end OnlyOn

/-! ### A start of a pass -/

/-- The header as the tile controller receives it. -/
def State.headerSeen (s : State) (k : Nat) (pu : Purpose) (flip : BitVec 20) : BitVec 20 :=
  passHeader pu.op k pu.sel s.dev.nextTick ^^^ flip

/-- A refused start: it is counted and reported, and a readback begins again. -/
def Dev.refuseStart (d : Dev) (t k : Nat) (pu : Purpose) : Dev :=
  if pu == .readback then (d.refusePass t k).voidReadback t else d.refusePass t k

/-- The pass that starts, with what its cells return. -/
def State.newPass (s : State) (t k : Nat) (pu : Purpose) (data : List (BitVec 16)) (flip : BitVec 20) : Pass :=
  let ps := (List.range chainLen).map (pixelOnChain t k)
  { tile := t, chain := k, purpose := pu, sent := passHeader pu.op k pu.sel s.dev.nextTick, header := s.headerSeen k pu flip, data := data
    captured := ps.map (fun p =>
      BitVec.ofNat 20 ((s.cell p).returned * 65536 + (s.cell p).selected (bits (s.headerSeen k pu flip).toNat 12 2)))
    phases := nth [] (s.dev.dtile t).phases k, probes := ps.foldl (fun m p => SMap.set 0 m p (s.cell p).probeFound) [] }

/-- A chain takes the pass; its capture hands over the checker phases. -/
def Dev.takePass (d : Dev) (t k : Nat) (p : Pass) : Dev :=
  (d.onArr (fun a => { a with passes := a.passes ++ [p] })).onDtile t (fun y => { y with phases := setNth y.phases k [] })

theorem State.startPass_busy (s : State) (t k : Nat) (pu : Purpose) (data : List (BitVec 16)) (flip : BitVec 20)
    (h : (s.dev.isDark t || (s.dev.passOn t k).isSome) = true) : s.startPass t k pu data flip = s := if_pos h

theorem State.startPass_refused (s : State) (t k : Nat) (pu : Purpose) (data : List (BitVec 16)) (flip : BitVec 20)
    (h : (s.dev.isDark t || (s.dev.passOn t k).isSome) = false) (refused : s.dev.refuses k (s.headerSeen k pu flip).toNat = true) :
    s.startPass t k pu data flip = s.onDev (fun d => d.refuseStart t k pu) := by
  unfold State.startPass
  rw [h, if_neg Bool.false_ne_true]
  exact if_pos refused

theorem State.startPass_dev (s : State) (t k : Nat) (pu : Purpose) (data : List (BitVec 16)) (flip : BitVec 20)
    (h : (s.dev.isDark t || (s.dev.passOn t k).isSome) = false) (taken : s.dev.refuses k (s.headerSeen k pu flip).toNat = false) :
    (s.startPass t k pu data flip).dev = s.dev.takePass t k (s.newPass t k pu data flip) := by
  unfold State.headerSeen at taken
  unfold State.startPass State.newPass State.headerSeen Dev.takePass
  generalize (List.range chainLen).map (pixelOnChain t k) = ps
  dsimp only
  rw [h, taken, if_neg Bool.false_ne_true, if_neg Bool.false_ne_true]

theorem Dev.takePass_passOn (d : Dev) (t k x l : Nat) (p : Pass) (tile : p.tile = t) (chain : p.chain = k) :
    (d.takePass t k p).passOn x l = (d.passOn x l).or (if x = t ∧ l = k then some p else none) := by
  have passes : (d.takePass t k p).arr.passes = d.arr.passes ++ [p] := by simp [Dev.takePass, Dev.onDtile]
  rw [Dev.passOn, passes, List.find?_append]
  refine congrArg (Option.or _) ?_
  by_cases own : x = t ∧ l = k
  · simp [own, tile, chain]
  · rw [if_neg own, List.find?_singleton]
    refine if_neg (fun h => own ?_)
    simp only [tile, chain, Bool.and_eq_true, beq_iff_eq] at h
    exact ⟨h.1.symm, h.2.symm⟩

theorem Dev.takePass_tile (d : Dev) (t k : Nat) (p : Pass) (x : Nat) : (d.takePass t k p).tile x = d.tile x := rfl

theorem OnlyOn.startPass (s : State) (t k : Nat) (pu : Purpose) (data : List (BitVec 16)) (flip : BitVec 20) :
    OnlyOn (fun x l => (x, l) = (t, k)) s (s.startPass t k pu data flip) := by
  cases busy : s.dev.isDark t || (s.dev.passOn t k).isSome with
  | true =>
    rw [s.startPass_busy t k pu data flip busy]
    exact refl _ s
  | false =>
    cases refused : s.dev.refuses k (s.headerSeen k pu flip).toNat with
    | true =>
      rw [s.startPass_refused t k pu data flip busy refused]
      unfold Dev.refuseStart
      split
      · have both := (refusePass s t k).trans (voidReadback (s.onDev (fun d => d.refusePass t k)) t k)
        rw [State.onDev_onDev] at both
        exact both
      · exact refusePass s t k
    | false =>
      have dev := s.startPass_dev t k pu data flip busy refused
      have passOn (x l : Nat) (out : (x, l) ≠ (t, k)) : (s.startPass t k pu data flip).dev.passOn x l = s.dev.passOn x l := by
        rw [dev, Dev.takePass_passOn s.dev t k x l (s.newPass t k pu data flip) rfl rfl,
          if_neg (fun e => out (Prod.ext e.1 e.2)), Option.or_none]
      have tile (x : Nat) : (s.startPass t k pu data flip).dev.tile x = s.dev.tile x := by rw [dev, Dev.takePass_tile]
      refine { only := .startPass s t k pu data flip, chains := fun x l out => by rw [passOn x l out]
               tiles := fun x out => ⟨tile x, fun l => passOn x l (out l)⟩, flags := fun x => by rw [tile]; exact ⟨rfl, rfl, rfl⟩
               reads := fun _ x => by rw [tile]; exact .refl _, others := ?_, transit := fun m mem => ?_, pend := fun n mem => ?_ }
      all_goals rw [dev]
      · simp [Dev.takePass, Dev.onDtile]
      · simpa [Dev.takePass, Dev.onDtile] using mem
      · simpa [Dev.takePass, Dev.onDtile] using mem

theorem OnlyOn.auxChain (s : State) (t k : Nat) (flip : BitVec 20) : OnlyOn (fun x l => (x, l) = (t, k)) s (s.auxChain t k flip) := by
  unfold State.auxChain
  split
  · exact startPass ..
  · exact startPass ..
  · exact startPass ..
  · exact refl _ s

/-- A header that is not disturbed is not refused in RUN (R38, R41). -/
theorem State.refuses_undisturbed (s : State) (k : Nat) (pu : Purpose) (run : s.dev.frm.ticked = true) (lt : k < 4)
    (notSafe : pu ≠ .safe) : s.dev.refuses k (s.headerSeen k pu 0).toNat = false := by
  have op : 1 ≤ pu.op ∧ pu.op ≤ 5 ∧ pu.op ≠ 4 := by
    cases pu with
    | safe => exact absurd rfl notSafe
    | _ => decide
  have sel : pu.sel < 4 := by cases pu <;> decide
  have header : (s.headerSeen k pu 0).toNat = pu.op * 65536 + k * 16384 + pu.sel * 4096 + s.dev.nextTick % 256 := by
    have sent : s.headerSeen k pu 0 = passHeader pu.op k pu.sel s.dev.nextTick := BitVec.xor_zero
    rw [sent, passHeader, BitVec.toNat_ofNat, Nat.mod_eq_of_lt]
    omega
  have opSeen : bits (s.headerSeen k pu 0).toNat 16 4 = pu.op := by
    rw [header, bits]
    omega
  have chainSeen : bits (s.headerSeen k pu 0).toNat 14 2 = k := by
    rw [header, bits]
    omega
  have frameSeen : bits (s.headerSeen k pu 0).toNat 0 8 = s.dev.nextTick % 256 := by
    rw [header, bits]
    omega
  have live : s.dev.inStart = false := by rw [Dev.inStart, run]; rfl
  unfold Dev.refuses
  rw [opSeen, chainSeen, frameSeen, live]
  simp only [bne_self_eq_false, Bool.or_false, Bool.not_false, Bool.and_true, Bool.or_eq_false_iff, beq_eq_false_iff_ne, ne_eq,
    decide_eq_false_iff_not]
  omega

end Sys2Proof.Machine

namespace Sys2Proof.Machine

/-! ### All chains of a row -/

theorem mem_rowChains {ty x k : Nat} : (x, k) ∈ rowChains ty ↔ x / 24 = ty ∧ k < 4 := by
  simp only [rowChains, tileRow, List.mem_flatMap, List.mem_map, List.mem_range, Prod.mk.injEq]
  constructor
  · rintro ⟨_, ⟨i, lt, rfl⟩, l, lt', rfl, rfl⟩
    exact ⟨by omega, lt'⟩
  · rintro ⟨row, lt⟩
    exact ⟨x, ⟨x % 24, by omega, by omega⟩, k, lt, rfl, rfl⟩

/-- Chains of a row stand tile by tile, and of a tile in order. -/
theorem rowChains_pairwise (ty : Nat) : (rowChains ty).Pairwise (fun a b => a.1 < b.1 ∨ (a.1 = b.1 ∧ a.2 < b.2)) := by
  unfold rowChains tileRow
  rw [List.pairwise_flatMap]
  refine ⟨fun x _ => ?_, ?_⟩
  · exact (List.pairwise_lt_range (n := 4)).map _ (fun a b lt => .inr ⟨rfl, lt⟩)
  · refine (List.pairwise_lt_range (n := 24)).map _ (fun a b lt c cmem e emem => ?_)
    obtain ⟨_, -, rfl⟩ := List.mem_map.mp cmem
    obtain ⟨_, -, rfl⟩ := List.mem_map.mp emem
    exact .inl (by omega)

/-- The chains of a row before and after one of them. -/
theorem rowChains_split {ty x k : Nat} (row : x / 24 = ty) (lt : k < 4) : ∃ before after, rowChains ty = before ++ (x, k) :: after ∧
    (∀ c ∈ before, c.1 = x → c.2 < k) ∧ (x, k) ∉ after := by
  obtain ⟨before, after, split⟩ := List.append_of_mem (mem_rowChains.mpr ⟨row, lt⟩)
  have order := rowChains_pairwise ty
  rw [split, List.pairwise_append, List.pairwise_cons] at order
  obtain ⟨-, ⟨later, -⟩, earlier⟩ := order
  refine ⟨before, after, split, fun c mem same => ?_, fun mem => ?_⟩
  · have lt := earlier c mem (x, k) List.mem_cons_self
    simp only [same] at lt
    omega
  · have lt := later (x, k) mem
    simp only at lt
    omega

end Sys2Proof.Machine

namespace Sys2Proof.Proofs

open Sys2Proof Sys2Proof.Machine Sys2Proof.Claims

/-- A start on an idle chain of a tile that is not dark. -/
theorem passStarts_startPass (s : State) {x k : Nat} (pu : Purpose) (data : List (BitVec 16)) (flip : BitVec 20)
    (run : s.dev.frm.ticked = true) (lit : s.dev.isDark x = false) (idle : s.dev.passOn x k = none) :
    PassStarts s (s.startPass x k pu data flip) x k pu data flip := by
  have free : (s.dev.isDark x || (s.dev.passOn x k).isSome) = false := by
    rw [lit, idle]
    rfl
  refine ⟨fun taken => ?_, fun refused => ?_⟩
  · refine ⟨s.newPass x k pu data flip, ?_, rfl, rfl⟩
    rw [s.startPass_dev x k pu data flip free taken,
      Dev.takePass_passOn s.dev x k x k (s.newPass x k pu data flip) rfl rfl, idle, if_pos ⟨rfl, rfl⟩]
    rfl
  · rw [s.startPass_refused x k pu data flip free refused, State.onDev_dev]
    obtain ⟨sent, raised⟩ := s.dev.refusePass_reports x k
    unfold Dev.refuseStart
    split
    · next read =>
      refine ⟨?_, ?_, ?_, fun _ => ?_⟩
      · rw [Dev.voidReadback_passOn, Dev.refusePass_passOn, idle]
        rfl
      · simpa [Dev.voidReadback] using sent
      · simpa [Pends, Dev.voidReadback] using raised
      · rw [Dev.voidReadback_tile _ _ (by simpa [Dev.refusePass, Dev.countFail] using run)]
        exact ⟨rfl, rfl⟩
    · next other => exact ⟨by rw [Dev.refusePass_passOn, idle], sent, raised, fun e => absurd (by rw [e]; rfl) other⟩

theorem refuses_of_frm {d d' : Dev} (h : d'.frm = d.frm) : d'.refuses = d.refuses ∧ d'.nextTick = d.nextTick := by
  unfold Dev.refuses Dev.inStart Dev.nextTick
  rw [h]
  exact ⟨rfl, rfl⟩

/-- What a start comes to stands, whatever other chains of the row start before and after it. -/
theorem passStarts_around {C' : Nat → Nat → Prop} {s u v t : State} {x k : Nat} {pu : Purpose} {data : List (BitVec 16)}
    {flip : BitVec 20} (before : u.dev.frm = s.dev.frm) (start : PassStarts u v x k pu data flip) (after : OnlyOn C' v t)
    (run : v.dev.frm.ticked = true) (out : ¬ C' x k) : PassStarts s t x k pu data flip := by
  obtain ⟨refuses, next⟩ := refuses_of_frm before
  unfold PassStarts at start ⊢
  rw [refuses, next] at start
  have load := after.chains x k out
  refine ⟨fun taken => ?_, fun refused => ?_⟩
  · obtain ⟨p, on, purpose, carried⟩ := start.1 taken
    rw [on, Option.map_some, Option.map_eq_some_iff] at load
    obtain ⟨p', on', same⟩ := load
    obtain ⟨purpose', data'⟩ := Prod.mk.inj same
    exact ⟨p', on', purpose'.trans purpose, data'.trans carried⟩
  · obtain ⟨idle, sent, raised, again⟩ := start.2 refused
    rw [idle, Option.map_none, Option.map_eq_none_iff] at load
    refine ⟨load, after.transit _ sent, after.pend _ raised, fun read => ?_⟩
    obtain ⟨due, reads⟩ := again read
    rcases after.reads run x with ⟨due', reads'⟩ | again'
    · exact ⟨due'.trans due, reads'.trans reads⟩
    · exact again'

end Sys2Proof.Proofs

/-! ## Chain entries start passes on their row (O42) -/

namespace Sys2Proof.Machine

/-! ### Errors of the back buffer (R106) -/

/-- The errors that loading row `ty` finds. -/
def errorsOfRow (bb : List BbufErr) (ty : Nat) : List BbufErr := bb.filter (fun e => decide (e.p < nPixels) && tileOf e.p / 24 == ty)

/-- What errors of the back buffer reach: the words, their counts, messages and events. -/
structure OnlyBbuf (d d' : Dev) : Prop where
  dev : d' = { d with eng := d'.eng, keep := d'.keep, evt := d'.evt }
  transit : ∀ m ∈ d.keep.transit, m ∈ d'.keep.transit
  pend : ∀ n, d.evt.pend.getLsbD n = true → d'.evt.pend.getLsbD n = true

theorem OnlyBbuf.trans {a b c : Dev} (h : OnlyBbuf a b) (h' : OnlyBbuf b c) : OnlyBbuf a c :=
  ⟨by rw [h'.dev, h.dev], fun m mem => h'.transit m (h.transit m mem), fun n mem => h'.pend n (h.pend n mem)⟩

theorem OnlyBbuf.bbufError (d : Dev) (e : BbufErr) : OnlyBbuf d (d.bbufError e) := by
  unfold Dev.bbufError Dev.bbufFound
  cases e.bad with
  | true => exact ⟨rfl, fun m mem => List.mem_append_left _ mem, fun n mem => mem⟩
  | false => exact ⟨rfl, fun m mem => mem, fun n mem => Evt.raise_keeps _ _ _ mem⟩

theorem OnlyBbuf.errors (d : Dev) (es : List BbufErr) : OnlyBbuf d (es.foldl Dev.bbufError d) :=
  List.foldlRecOn es Dev.bbufError (motive := fun d' => OnlyBbuf d d') ⟨rfl, fun _ h => h, fun _ h => h⟩
    (fun d' h e _ => h.trans (bbufError d' e))

theorem Dev.bbufError_eng (d : Dev) (e : BbufErr) : (d.bbufError e).eng = if e.bad then { d.eng with
      bbuf := SMap.set 0 d.eng.bbuf e.p 0, bbUncorrectable := satInc 255 d.eng.bbUncorrectable }
    else { d.eng with bbCorrected := satInc 65535 d.eng.bbCorrected } := by
  unfold Dev.bbufError Dev.bbufFound
  cases e.bad <;> rfl

/-- An uncorrectable word reads as 0x0000 from then on; the errors are counted. -/
theorem Dev.foldl_bbufError_eng (p : Nat) : ∀ (es : List BbufErr) (d : Dev),
    SMap.get 0 (es.foldl Dev.bbufError d).eng.bbuf p =
      (if es.any (fun e => e.bad && e.p == p) then 0 else SMap.get 0 d.eng.bbuf p) ∧
    (es.foldl Dev.bbufError d).eng.bbUncorrectable =
      (satInc 255)^[es.countP (fun e => e.bad == true)] d.eng.bbUncorrectable ∧
    (es.foldl Dev.bbufError d).eng.bbCorrected = (satInc 65535)^[es.countP (fun e => e.bad == false)] d.eng.bbCorrected
  | [], d => ⟨rfl, rfl, rfl⟩
  | e :: es, d => by
    obtain ⟨word, bad, good⟩ := foldl_bbufError_eng p es (d.bbufError e)
    rw [List.foldl_cons, word, bad, good, d.bbufError_eng e, List.any_cons, List.countP_cons, List.countP_cons]
    cases e.bad with
    | true =>
      refine ⟨?_, ?_, ?_⟩
      · by_cases own : e.p = p
        · simp [own, SMap.get_set]
        · have other : ¬ p = e.p := fun h => own h.symm
          simp [own, other, SMap.get_set]
      · simp
      · simp
    | false => simp

theorem Dev.foldl_bbufError_reports (d : Dev) {es : List BbufErr} {e : BbufErr} (mem : e ∈ es) :
    (e.bad = true → mkMsg 0xCE 0x17 1 e.p ∈ (es.foldl Dev.bbufError d).keep.transit) ∧
    (e.bad = false → (es.foldl Dev.bbufError d).evt.pend.getLsbD 56 = true) := by
  refine foldl_reaches (P := fun d' : Dev => (e.bad = true → mkMsg 0xCE 0x17 1 e.p ∈ d'.keep.transit) ∧
    (e.bad = false → d'.evt.pend.getLsbD 56 = true)) (fun d' => ⟨fun bad => ?_, fun good => ?_⟩)
    (fun d' e' reported => ⟨fun bad => ?_, fun good => ?_⟩) es d mem
  · unfold Dev.bbufError Dev.bbufFound
    rw [bad]
    exact List.mem_append_right _ (List.mem_singleton.mpr rfl)
  · unfold Dev.bbufError Dev.bbufFound
    rw [good]
    exact Evt.raise_self _ _ rfl
  · exact (OnlyBbuf.bbufError d' e').transit _ (reported.1 bad)
  · exact (OnlyBbuf.bbufError d' e').pend _ (reported.2 good)

/-! ### Payloads -/

theorem pixelAt_lt {t i : Nat} (tile : t < 192) (lt : i < 5632) : pixelAt t i < nPixels := by
  simp only [pixelAt, pixelIdx, nPixels]
  omega

theorem pixelOnChain_on {x k j : Nat} (tile : x < 192) (chain : k < 4) (lt : j < 1408) :
    pixelOnChain x k j < nPixels ∧ tileOf (pixelOnChain x k j) = x := by
  have inside : j / 16 * 64 + 16 * k + j % 16 < 5632 := by omega
  exact ⟨pixelAt_lt tile inside, tileOf_pixelAt x inside⟩

theorem clampWord_zero (k : Nat) : clampWord k 0 = 0 := by
  simp [clampWord, bits]

theorem Dev.driveData_congr {d d' : Dev} (eng : d'.eng = d.eng) (comp : d'.comp = d.comp) : d'.driveData = d.driveData := by
  unfold Dev.driveData Dev.stage7 Dev.kOf
  rw [eng, comp]

end Sys2Proof.Machine

namespace Sys2Proof.Machine

/-! ### Rows of passes -/

/-- A start for each chain of a row in turn: what stands when chain `k` of tile `x` comes, and that the rest reaches other chains. -/
theorem foldl_rowChains {f : State → Nat × Nat → State} (hf : ∀ s c, OnlyOn (fun x k => (x, k) = c) s (f s c)) (s : State)
    {ty x k : Nat} (row : x / 24 = ty) (lt : k < 4) : ∃ before after : List (Nat × Nat),
      (∀ c ∈ before, c.1 = x → c.2 < k) ∧ (x, k) ∉ after ∧ (∀ c ∈ before, c ∈ rowChains ty) ∧
      OnlyOn (fun y l => (y, l) ∈ before) s (before.foldl f s) ∧
      OnlyOn (fun y l => (y, l) ∈ after) (f (before.foldl f s) (x, k)) ((rowChains ty).foldl f s) := by
  obtain ⟨before, after, split, earlier, later⟩ := rowChains_split row lt
  refine ⟨before, after, earlier, later, fun c mem => ?_, .foldl hf before s, ?_⟩
  · rw [split]
    exact List.mem_append_left _ mem
  · rw [split, List.foldl_append, List.foldl_cons]
    exact .foldl hf after _

/-- Chains of other rows stay. -/
theorem foldl_rowChains_other {f : State → Nat × Nat → State} (hf : ∀ s c, OnlyOn (fun x k => (x, k) = c) s (f s c)) (s : State)
    {ty x : Nat} (other : x / 24 ≠ ty) (k : Nat) : ((rowChains ty).foldl f s).dev.passOn x k = s.dev.passOn x k :=
  ((OnlyOn.foldl hf (rowChains ty) s).tiles x (fun _ mem => other (mem_rowChains.mp mem).1)).2 k

/-- A start of a DRIVE pass, with the drive words of the back buffer. -/
def State.driveChain (s : State) (hdr : List HdrErr) (c : Nat × Nat) : State :=
  s.startPass c.1 c.2 .drive (s.dev.driveData c.1 c.2) (hdrFlip hdr c.1 c.2)

theorem OnlyOn.driveChain (hdr : List HdrErr) (s : State) (c : Nat × Nat) : OnlyOn (fun x k => (x, k) = c) s (s.driveChain hdr c) :=
  startPass ..

/-- The row is loaded, and entries that wait for no pass of it complete. -/
def Dev.rowDriven (d : Dev) (ty : Nat) : Dev := (d.onComp (fun c => { c with loaded := c.loaded ||| (1#8 <<< ty) })).chainEnded ty

theorem State.driveRow_eq (s : State) (ty : Nat) (hdr : List HdrErr) (bb : List BbufErr) : s.driveRow ty hdr bb =
    ((rowChains ty).foldl (fun s c => s.driveChain hdr c)
      (s.onDev (fun d => (errorsOfRow bb ty).foldl Dev.bbufError d))).onDev (fun d => d.rowDriven ty) := rfl

/-- The auxiliary pass of a chain of a row. -/
def State.auxOf (s : State) (hdr : List HdrErr) (c : Nat × Nat) : State := s.auxChain c.1 c.2 (hdrFlip hdr c.1 c.2)

theorem OnlyOn.auxOf (hdr : List HdrErr) (s : State) (c : Nat × Nat) : OnlyOn (fun x k => (x, k) = c) s (s.auxOf hdr c) := auxChain ..

/-- A header that is not disturbed leaves the tile's flags. -/
theorem State.startPass_undisturbed (s : State) (x k : Nat) (pu : Purpose) (data : List (BitVec 16)) (run : s.dev.frm.ticked = true)
    (lt : k < 4) (notSafe : pu ≠ .safe) (y : Nat) : (s.startPass x k pu data 0).dev.tile y = s.dev.tile y := by
  cases busy : s.dev.isDark x || (s.dev.passOn x k).isSome with
  | true => rw [s.startPass_busy x k pu data 0 busy]
  | false => rw [s.startPass_dev x k pu data 0 busy (s.refuses_undisturbed k pu run lt notSafe), Dev.takePass_tile]

theorem State.auxChain_undisturbed (s : State) (x k : Nat) (run : s.dev.frm.ticked = true) (lt : k < 4) (y : Nat) :
    (s.auxChain x k 0).dev.tile y = s.dev.tile y := by
  unfold State.auxChain
  split
  · exact s.startPass_undisturbed x k _ _ run lt (by decide) y
  · exact s.startPass_undisturbed x k _ _ run lt (by decide) y
  · exact s.startPass_undisturbed x k _ _ run lt (by decide) y
  · rfl

/-- Auxiliary passes of other tiles, and undisturbed ones of the tile, leave its flags. -/
theorem foldl_auxOf_tile (hdr : List HdrErr) (s : State) {cs : List (Nat × Nat)} {x : Nat} (run : s.dev.frm.ticked = true)
    (chains : ∀ c ∈ cs, c.2 < 4) (clean : ∀ c ∈ cs, c.1 = x → hdrFlip hdr x c.2 = 0) :
    (cs.foldl (fun s c => s.auxOf hdr c) s).dev.tile x = s.dev.tile x := by
  have kept : (cs.foldl (fun s c => s.auxOf hdr c) s).dev.frm = s.dev.frm ∧
      (cs.foldl (fun s c => s.auxOf hdr c) s).dev.tile x = s.dev.tile x := by
    refine List.foldlRecOn cs _ (motive := fun u : State => u.dev.frm = s.dev.frm ∧ u.dev.tile x = s.dev.tile x) ⟨rfl, rfl⟩
      (fun u h c mem => ?_)
    obtain ⟨frm, tile⟩ := h
    have only := OnlyOn.auxOf hdr u c
    refine ⟨only.frm.trans frm, ?_⟩
    by_cases own : c.1 = x
    · rw [State.auxOf, own, clean c mem own, u.auxChain_undisturbed x c.2 (by rw [frm]; exact run) (chains c mem) x, tile]
    · rw [(only.tiles x (fun k e => own (by rw [← e]))).1, tile]
  exact kept.2

end Sys2Proof.Machine

namespace Sys2Proof.Proofs

open Sys2Proof Sys2Proof.Machine Sys2Proof.Claims

theorem passOn_of_arr {d d' : Dev} (h : d'.arr = d.arr) (x k : Nat) : d'.passOn x k = d.passOn x k := by
  unfold Dev.passOn
  rw [h]

/-- A capture leaves the words and masks of a cell. -/
theorem words_kept {s t : State} (h : OnlyPasses s t) (p : Nat) : (t.cell p).shadow = (s.cell p).shadow ∧
    (t.cell p).active = (s.cell p).active ∧ (t.cell p).trim = (s.cell p).trim := by
  rcases h.cells p with same | captured
  · rw [same]
    exact ⟨rfl, rfl, rfl⟩
  · rw [captured]
    exact ⟨rfl, rfl, rfl⟩

/-- Only chains, tiles, messages and events are asked. -/
theorem passStarts_same {s s' t t' : State} {x k : Nat} {pu : Purpose} {data : List (BitVec 16)} {flip : BitVec 20}
    (h : PassStarts s t x k pu data flip) (frm : s.dev.frm = s'.dev.frm) (arr : t'.dev.arr = t.dev.arr) (keep : t'.dev.keep = t.dev.keep)
    (evt : t'.dev.evt = t.dev.evt) (tiles : t'.dev.tiles = t.dev.tiles) : PassStarts s' t' x k pu data flip := by
  obtain ⟨refuses, next⟩ := refuses_of_frm frm
  have passOn := passOn_of_arr arr x k
  have tile : t'.dev.tile x = t.dev.tile x := by rw [Dev.tile, tiles]; rfl
  unfold PassStarts Pends at h ⊢
  rw [refuses, next] at h
  rw [passOn, keep, evt, tile]
  exact h

/-- A chain of the row that may run a DRIVE pass starts it. -/
theorem foldl_driveChain_starts (s : State) (hdr : List HdrErr) {ty x k : Nat} (run : s.dev.frm.ticked = true) (may : MayPass s ty x k) :
    PassStarts s ((rowChains ty).foldl (fun s c => s.driveChain hdr c) s) x k .drive (s.dev.driveData x k) (hdrFlip hdr x k) := by
  obtain ⟨-, row, lt, lit, idle⟩ := may
  obtain ⟨before, after, earlier, later, -, pre, post⟩ := foldl_rowChains (OnlyOn.driveChain hdr) s row lt
  have out : (x, k) ∉ before := fun mem => Nat.lt_irrefl k (earlier _ mem rfl)
  generalize before.foldl (fun s c => s.driveChain hdr c) s = u at pre post
  have data : u.dev.driveData = s.dev.driveData := Dev.driveData_congr (by rw [pre.only.dev]) (by rw [pre.only.dev])
  have free : u.dev.passOn x k = none := by
    have load := pre.chains x k out
    rwa [idle, Option.map_none, Option.map_eq_none_iff] at load
  have runs : u.dev.frm.ticked = true := by rw [pre.frm]; exact run
  have start := passStarts_startPass u (x := x) (k := k) .drive (u.dev.driveData x k) (hdrFlip hdr x k) runs
    ((pre.flags x).1.trans lit) free
  rw [data] at start
  have driven : u.driveChain hdr (x, k) = u.startPass x k .drive (s.dev.driveData x k) (hdrFlip hdr x k) := by rw [State.driveChain, data]
  rw [driven] at post
  exact passStarts_around pre.frm start post (by rw [(OnlyOn.startPass ..).frm]; exact runs) later

/-! ### Auxiliary passes -/

theorem auxNeed_cases {d : Dev} {x k : Nat} {pu : Purpose} (h : d.auxNeed x k = some pu) :
    pu = .isolate ∨ pu = .readback ∨ pu = .trim := by
  unfold Dev.auxNeed at h
  dsimp only at h
  split at h
  · exact .inl (Option.some.inj h).symm
  · split at h
    · exact .inr (.inl (Option.some.inj h).symm)
    · split at h
      · exact .inr (.inr (Option.some.inj h).symm)
      · cases h

theorem auxChain_eq {s : State} {x k : Nat} {pu : Purpose} (need : s.dev.auxNeed x k = some pu) (flip : BitVec 20) :
    s.auxChain x k flip = s.startPass x k pu (auxData s x k pu) flip := by
  unfold State.auxChain
  rw [need]
  rcases auxNeed_cases need with rfl | rfl | rfl <;> rfl

theorem auxNeed_of_tile {d d' : Dev} {x k : Nat} (tile : d'.tile x = d.tile x) (round : d'.arr.roundOn = d.arr.roundOn) :
    d'.auxNeed x k = d.auxNeed x k := by
  unfold Dev.auxNeed
  rw [tile, round]

/-- Passes of other chains do not change what an auxiliary pass carries. -/
theorem auxData_kept {C : Nat → Nat → Prop} {s u : State} (h : OnlyOn C s u) (x k : Nat) (pu : Purpose) :
    auxData u x k pu = auxData s x k pu := by
  have isolate : u.dev.isolateData x k = s.dev.isolateData x k := by
    unfold Dev.isolateData Dev.pix
    rw [h.others.1]
  have cal : u.dev.calTile x = s.dev.calTile x := by
    unfold Dev.calTile
    rw [h.only.dev]
  have cell (p : Nat) : (u.cell p).trim = (s.cell p).trim := (words_kept h.only p).2.2
  have trim : u.trimData x k = s.trimData x k := by
    unfold State.trimData
    simp only [cal, cell]
  cases pu with
  | isolate => exact isolate
  | trim => exact trim
  | _ => rfl

theorem foldl_auxOf_starts (s : State) (hdr : List HdrErr) {ty x k : Nat} {pu : Purpose} (run : s.dev.frm.ticked = true)
    (may : MayPass s ty x k) (need : s.dev.auxNeed x k = some pu) (clean : ∀ k', k' < k → hdrFlip hdr x k' = 0) :
    PassStarts s ((rowChains ty).foldl (fun s c => s.auxOf hdr c) s) x k pu (auxData s x k pu) (hdrFlip hdr x k) := by
  obtain ⟨-, row, lt, lit, idle⟩ := may
  obtain ⟨before, after, earlier, later, inRow, pre, post⟩ := foldl_rowChains (OnlyOn.auxOf hdr) s row lt
  have out : (x, k) ∉ before := fun mem => Nat.lt_irrefl k (earlier _ mem rfl)
  have tile := foldl_auxOf_tile hdr s run (fun c mem => (mem_rowChains.mp (inRow c mem)).2)
    (fun c mem own => clean c.2 (earlier c mem own))
  generalize before.foldl (fun s c => s.auxOf hdr c) s = u at pre post tile
  have free : u.dev.passOn x k = none := by
    have load := pre.chains x k out
    rwa [idle, Option.map_none, Option.map_eq_none_iff] at load
  have runs : u.dev.frm.ticked = true := by rw [pre.frm]; exact run
  have need' : u.dev.auxNeed x k = some pu := (auxNeed_of_tile tile pre.others.2).trans need
  have start := passStarts_startPass u (x := x) (k := k) pu (auxData u x k pu) (hdrFlip hdr x k) runs ((pre.flags x).1.trans lit) free
  rw [← auxChain_eq need', auxData_kept pre] at start
  exact passStarts_around pre.frm start post (by rw [(OnlyOn.auxChain ..).frm]; exact runs) later

/-! ### A row loaded -/

theorem errorsOfRow_count (bb : List BbufErr) (ty : Nat) (bad : Bool) :
    (errorsOfRow bb ty).countP (fun e => e.bad == bad) = (rowErrors bb ty bad).length := by
  rw [List.countP_eq_length_filter, errorsOfRow, List.filter_filter, rowErrors]
  simp only [Bool.and_comm]

theorem mem_errorsOfRow {bb : List BbufErr} {ty : Nat} {bad : Bool} {e : BbufErr} (h : e ∈ rowErrors bb ty bad) :
    e ∈ errorsOfRow bb ty ∧ e.bad = bad := by
  obtain ⟨mem, on⟩ := List.mem_filter.mp h
  obtain ⟨row, same⟩ := (Bool.and_eq_true _ _).mp on
  exact ⟨List.mem_filter.mpr ⟨mem, row⟩, eq_of_beq same⟩

/-- The drive words that the passes of a row carry, once its errors are found. -/
theorem driveData_errors (s : State) (bb : List BbufErr) {ty x k : Nat} (tile : x < 192) (row : x / 24 = ty) (lt : k < 4) :
    ((errorsOfRow bb ty).foldl Dev.bbufError s.dev).driveData x k = loadWords s bb x k := by
  have only := OnlyBbuf.errors s.dev (errorsOfRow bb ty)
  have factor (t : Nat) : ((errorsOfRow bb ty).foldl Dev.bbufError s.dev).kOf t = s.dev.kOf t := by
    rw [only.dev]
    rfl
  unfold Dev.driveData loadWords chainLen
  refine List.map_congr_left (fun j mem => ?_)
  obtain ⟨inside, on⟩ := pixelOnChain_on tile lt (List.mem_range.mp mem)
  have found : (errorsOfRow bb ty).any (fun e => e.bad && e.p == pixelOnChain x k j) =
      bb.any (fun e => e.bad && e.p == pixelOnChain x k j) := by
    rw [errorsOfRow, List.any_filter]
    refine congrArg bb.any (funext fun e => ?_)
    by_cases own : e.p = pixelOnChain x k j
    · simp [own, on, inside, row]
    · simp [own]
  unfold Dev.stage7
  rw [factor, (Dev.foldl_bbufError_eng (pixelOnChain x k j) (errorsOfRow bb ty) s.dev).1, found]
  split
  · exact congrArg (BitVec.ofNat 16) (clampWord_zero _)
  · rfl

theorem rowDriven_frame (d : Dev) (ty : Nat) : (d.rowDriven ty).arr = d.arr ∧ (d.rowDriven ty).keep = d.keep ∧
    (d.rowDriven ty).evt = d.evt ∧ (d.rowDriven ty).tiles = d.tiles ∧ (d.rowDriven ty).eng = d.eng ∧
    (d.rowDriven ty).comp.loaded = d.comp.loaded ||| (1#8 <<< ty) := ⟨rfl, rfl, rfl, rfl, rfl, rfl⟩

theorem rowLoaded_driveRow (s : State) {ty : Nat} (hdr : List HdrErr) (bb : List BbufErr) (run : s.dev.frm.ticked = true) (lt : ty < 8) :
    RowLoaded s (s.driveRow ty hdr bb) ty hdr bb := by
  rw [s.driveRow_eq ty hdr bb]
  have errors := OnlyBbuf.errors s.dev (errorsOfRow bb ty)
  have counts := Dev.foldl_bbufError_eng 0 (errorsOfRow bb ty) s.dev
  have reports (e : BbufErr) (bad : Bool) (mem : e ∈ rowErrors bb ty bad) :=
    s.dev.foldl_bbufError_reports (mem_errorsOfRow mem).1
  have words (x k : Nat) := driveData_errors s bb (ty := ty) (x := x) (k := k)
  rw [errorsOfRow_count, errorsOfRow_count] at counts
  obtain ⟨-, bad, good⟩ := counts
  generalize hd : (errorsOfRow bb ty).foldl Dev.bbufError s.dev = d at errors bad good reports words
  have first : s.onDev (fun d => (errorsOfRow bb ty).foldl Dev.bbufError d) = { s with dev := d } := by rw [← hd]; rfl
  rw [first]
  have frm : d.frm = s.dev.frm := by rw [errors.dev]
  have passOn (x k : Nat) : d.passOn x k = s.dev.passOn x k := by rw [errors.dev]; rfl
  have dark (x : Nat) : d.isDark x = s.dev.isDark x := by rw [errors.dev]; rfl
  have passes := OnlyOn.foldl (OnlyOn.driveChain hdr) (rowChains ty) { s with dev := d }
  have starts (x k : Nat) := foldl_driveChain_starts { s with dev := d } hdr (ty := ty) (x := x) (k := k) (by rw [frm]; exact run)
  have others (x : Nat) := foldl_rowChains_other (OnlyOn.driveChain hdr) { s with dev := d } (ty := ty) (x := x)
  generalize (rowChains ty).foldl (fun s c => s.driveChain hdr c) { s with dev := d } = u at passes starts others ⊢
  obtain ⟨arr, keep, evt, tiles, eng, loaded⟩ := rowDriven_frame u.dev ty
  obtain ⟨-, otp, mem, lat⟩ := passes.only.stores
  have counted : (u.dev.rowDriven ty).eng = d.eng := by rw [eng, passes.only.dev]
  refine ⟨?_, fun x k may => ?_, fun x k other => ?_, fun e found => ?_, fun any => ?_, fun any => ⟨?_, ?_⟩,
    mem, otp, lat, fun p => ?_⟩
  · rw [State.onDev_dev, loaded]
    simp [lt]
  · obtain ⟨tile, row, chain, lit, idle⟩ := may
    have start := starts x k ⟨tile, row, chain, (dark x).trans lit, (passOn x k).trans idle⟩
    rw [words x k tile row chain] at start
    exact passStarts_same start frm arr keep evt tiles
  · exact ((passOn_of_arr arr x k).trans (others x other k)).trans (passOn x k)
  · rw [State.onDev_dev, keep]
    exact passes.transit _ ((reports e true found).1 (mem_errorsOfRow found).2)
  · rw [State.onDev_dev, counted, bad, iterate_satInc _ _ _ (List.length_pos_iff.mpr any)]
  · obtain ⟨e, found⟩ := List.exists_mem_of_ne_nil _ any
    rw [Pends, State.onDev_dev, evt]
    exact passes.pend _ ((reports e false found).2 (mem_errorsOfRow found).2)
  · rw [State.onDev_dev, counted, good, iterate_satInc _ _ _ (List.length_pos_iff.mpr any)]
  · obtain ⟨shadow, active, -⟩ := words_kept passes.only p
    exact ⟨shadow, active⟩

/-! ### The entries -/

theorem entryReady_of_mayBegin {s : State} {i act : Nat} (may : MayBegin s i act) (waits : act ∈ [1, 2, 3, 7]) :
    s.entryReady i act = true := by
  obtain ⟨run, normal, mode, kind, fresh, start, preds, -⟩ := may
  have began : s.dev.frm.begun.any (fun e => e.1 == i) = false := by
    rw [List.any_eq_false]
    exact fun e mem => by simpa using fresh e mem
  have waits' : (act == 1 || act == 2 || act == 3 || act == 7) = true := by simpa [or_assoc] using waits
  unfold State.entryReady
  simp only [run, normal, mode, kind, began, preds, waits', Dev.sinceTick, start, beq_self_eq_true, decide_true,
    Bool.not_false, Bool.and_self, Bool.true_or]

theorem bits_lt (n lo w : Nat) : bits n lo w < 2 ^ w := Nat.mod_lt _ (Nat.two_pow_pos w)

theorem begun_chainEnded {d : Dev} {i ty : Nat} (h : ∃ e ∈ d.frm.begun, e.1 = i) : ∃ e ∈ (d.chainEnded ty).frm.begun, e.1 = i := by
  obtain ⟨e, mem, same⟩ := h
  refine ⟨_, List.mem_map_of_mem mem, ?_⟩
  dsimp only
  split <;> exact same

theorem begun_begin (d : Dev) (i : Nat) (fin : Option Nat) : ∃ e ∈ (d.begin i fin).frm.begun, e.1 = i :=
  ⟨(i, fin), List.mem_append_right _ (List.mem_singleton.mpr rfl), rfl⟩

theorem begun_driveRow {s : State} {i : Nat} (ty : Nat) (hdr : List HdrErr) (bb : List BbufErr) (h : ∃ e ∈ s.dev.frm.begun, e.1 = i) :
    Begun (s.driveRow ty hdr bb) i := by
  rw [s.driveRow_eq ty hdr bb]
  have errors := OnlyBbuf.errors s.dev (errorsOfRow bb ty)
  have passes := OnlyOn.foldl (OnlyOn.driveChain hdr) (rowChains ty) (s.onDev (fun d => (errorsOfRow bb ty).foldl Dev.bbufError d))
  have frm := passes.frm
  rw [State.onDev_dev, errors.dev] at frm
  generalize (rowChains ty).foldl _ _ = u at frm
  unfold Begun Dev.rowDriven
  rw [State.onDev_dev]
  refine begun_chainEnded (d := u.dev.onComp _) ?_
  rw [Dev.onComp_frm, frm]
  exact h

/-- A row whose entry has just begun is loaded as one whose entry has not: the entry reaches nothing that is asked. -/
theorem rowLoaded_of_begin {s t : State} {i ty : Nat} {fin : Option Nat} {hdr : List HdrErr} {bb : List BbufErr}
    (h : RowLoaded (s.onDev (fun d => d.begin i fin)) t ty hdr bb) : RowLoaded s t ty hdr bb := h

theorem exec_chainDrive_entry (s : State) (i : Nat) (hdr : List HdrErr) (bb : List BbufErr) (may : MayBegin s i 2)
    (own : s.dev.frm.suspended = false) (load : s.dev.mayLoad (bits (s.dev.entry i).operand 0 3) = true) :
    exec (.chainDrive (.entry i) hdr bb) s =
      .next ((s.onDev (fun d => d.begin i none)).driveRow (bits (s.dev.entry i).operand 0 3) hdr bb) := by
  have goes : (s.entryReady i 2 && s.dev.tableRuns && s.dev.mayLoad (bits (s.dev.entry i).operand 0 3)) = true := by
    rw [entryReady_of_mayBegin may (by decide), load, Dev.tableRuns, own]
    rfl
  exact congrArg Host.Outcome.next (if_pos goes)

theorem exec_chainDrive_rebuild (s : State) (ty n : Nat) (hdr : List HdrErr) (bb : List BbufErr) (run : s.running = true)
    (takeover : s.dev.frm.suspended = true) (load : s.dev.mayLoad ty = true) :
    exec (.chainDrive (.rebuild ty n) hdr bb) s = .next (s.driveRow ty hdr bb) := by
  have goes : (s.running && s.dev.frm.suspended && s.dev.mayLoad ty) = true := by
    rw [run, takeover, load]
    rfl
  exact congrArg Host.Outcome.next (if_pos goes)

/-- The state once the auxiliary passes of a row have started. -/
def auxRow (s : State) (i ty : Nat) (hdr : List HdrErr) : State :=
  ((rowChains ty).foldl (fun s c => s.auxOf hdr c) (s.onDev (fun d => d.begin i none))).onDev (fun d =>
    (d.onFrm (fun f => { f with auxDone := f.auxDone ++ (rowChains ty).map (fun c => c.1 * 4 + c.2) })).chainEnded ty)

theorem exec_chainAux_entry (s : State) (i : Nat) (hdr : List HdrErr) (may : MayBegin s i 3) (own : s.dev.frm.suspended = false) :
    exec (.chainAux (.entry i) hdr) s = .next (auxRow s i (bits (s.dev.entry i).operand 0 3) hdr) := by
  have goes : (s.entryReady i 3 && s.dev.tableRuns && decide (bits (s.dev.entry i).operand 0 3 < 8)) = true := by
    have row : bits (s.dev.entry i).operand 0 3 < 8 := bits_lt _ 0 3
    rw [entryReady_of_mayBegin may (by decide), decide_eq_true row, Dev.tableRuns, own]
    rfl
  exact congrArg Host.Outcome.next (if_pos goes)

/-- The state once the auxiliary pass of one chain has started in a rebuild. -/
def auxOne (s : State) (x k : Nat) (hdr : List HdrErr) : State :=
  (s.auxChain x k (hdrFlip hdr x k)).onDev (fun d => d.onFrm (fun f => { f with auxDone := f.auxDone ++ [x * 4 + k] }))

theorem exec_chainAux_rebuild (s : State) {x k : Nat} (hdr : List HdrErr) (run : s.running = true) (takeover : s.dev.frm.suspended = true)
    (tile : x < 192) (chain : k < 4) (applied : (s.dev.tile x).drive.getLsbD k = true) (due : x * 4 + k ∉ s.dev.frm.auxDone) :
    exec (.chainAux (.rebuild x k) hdr) s = .next (auxOne s x k hdr) := by
  have goes : (s.running && s.dev.frm.suspended && decide (x < 192) && decide (k < 4) && (s.dev.tile x).drive.getLsbD k &&
      !s.dev.frm.auxDone.contains (x * 4 + k)) = true := by
    simp [run, takeover, tile, chain, applied, due]
  exact congrArg Host.Outcome.next (if_pos goes)

theorem begun_auxRow (s : State) (i ty : Nat) (hdr : List HdrErr) : Begun (auxRow s i ty hdr) i := by
  have frm := (OnlyOn.foldl (OnlyOn.auxOf hdr) (rowChains ty) (s.onDev (fun d => d.begin i none))).frm
  unfold auxRow
  generalize (rowChains ty).foldl _ _ = u at frm
  unfold Begun
  rw [State.onDev_dev]
  refine begun_chainEnded (d := u.dev.onFrm _) ?_
  rw [Dev.onFrm_frm, frm]
  exact begun_begin s.dev i none

theorem auxData_of_begin (s : State) (i x k : Nat) (fin : Option Nat) (pu : Purpose) :
    auxData (s.onDev (fun d => d.begin i fin)) x k pu = auxData s x k pu := by
  cases pu <;> rfl

theorem passStarts_of_begin {s t : State} {i x k : Nat} {fin : Option Nat} {pu : Purpose} {data : List (BitVec 16)} {flip : BitVec 20}
    (h : PassStarts (s.onDev (fun d => d.begin i fin)) t x k pu data flip) : PassStarts s t x k pu data flip := h

theorem auxRow_starts (s : State) (i : Nat) (hdr : List HdrErr) {ty x k : Nat} {pu : Purpose} (run : s.dev.frm.ticked = true)
    (may : MayPass s ty x k) (need : s.dev.auxNeed x k = some pu) (clean : ∀ k', k' < k → hdrFlip hdr x k' = 0) :
    PassStarts s (auxRow s i ty hdr) x k pu (auxData s x k pu) (hdrFlip hdr x k) := by
  have start := foldl_auxOf_starts (s.onDev (fun d => d.begin i none)) hdr run may need clean
  rw [auxData_of_begin] at start
  unfold auxRow
  generalize (rowChains ty).foldl (fun s c => s.auxOf hdr c) (s.onDev (fun d => d.begin i none)) = u at start
  exact passStarts_of_begin (passStarts_same start rfl rfl rfl rfl rfl)

/-- What the auxiliary passes of a row leave. -/
theorem auxRow_kept (s : State) (i ty : Nat) (hdr : List HdrErr) :
    (∀ x k, x / 24 ≠ ty → (auxRow s i ty hdr).dev.passOn x k = s.dev.passOn x k) ∧ (auxRow s i ty hdr).mem = s.mem ∧
    (auxRow s i ty hdr).otp = s.otp ∧ (auxRow s i ty hdr).lat = s.lat ∧
    ∀ p, ((auxRow s i ty hdr).cell p).trim = (s.cell p).trim ∧ ((auxRow s i ty hdr).cell p).active = (s.cell p).active := by
  have passes := OnlyOn.foldl (OnlyOn.auxOf hdr) (rowChains ty) (s.onDev (fun d => d.begin i none))
  have others (x : Nat) := foldl_rowChains_other (OnlyOn.auxOf hdr) (s.onDev (fun d => d.begin i none)) (ty := ty) (x := x)
  unfold auxRow
  generalize (rowChains ty).foldl (fun s c => s.auxOf hdr c) (s.onDev (fun d => d.begin i none)) = u at passes others
  obtain ⟨-, otp, mem, lat⟩ := passes.only.stores
  refine ⟨fun x k other => ?_, mem, otp, lat, fun p => ?_⟩
  · exact (passOn_of_arr (d := u.dev) rfl x k).trans (others x other k)
  · obtain ⟨-, active, trim⟩ := words_kept passes.only p
    exact ⟨trim, active⟩

theorem auxOne_starts (s : State) (hdr : List HdrErr) {x k : Nat} {pu : Purpose} (run : s.dev.frm.ticked = true)
    (may : MayPass s (x / 24) x k) (need : s.dev.auxNeed x k = some pu) :
    PassStarts s (auxOne s x k hdr) x k pu (auxData s x k pu) (hdrFlip hdr x k) := by
  obtain ⟨-, -, -, lit, idle⟩ := may
  have start := passStarts_startPass s pu (auxData s x k pu) (hdrFlip hdr x k) run lit idle
  rw [← auxChain_eq need] at start
  exact passStarts_same start rfl rfl rfl rfl rfl

/-- What the auxiliary pass of one chain leaves. -/
theorem auxOne_kept (s : State) (x k : Nat) (hdr : List HdrErr) :
    (auxOne s x k hdr).dev.frm.auxDone = s.dev.frm.auxDone ++ [x * 4 + k] ∧
    (∀ y l, y ≠ x ∨ l ≠ k → ((auxOne s x k hdr).dev.passOn y l).isSome = (s.dev.passOn y l).isSome) ∧
    (auxOne s x k hdr).mem = s.mem ∧ (auxOne s x k hdr).otp = s.otp ∧ (auxOne s x k hdr).lat = s.lat ∧
    ∀ p, ((auxOne s x k hdr).cell p).trim = (s.cell p).trim ∧ ((auxOne s x k hdr).cell p).active = (s.cell p).active := by
  have only := OnlyOn.auxChain s x k (hdrFlip hdr x k)
  unfold auxOne
  generalize s.auxChain x k (hdrFlip hdr x k) = u at only
  obtain ⟨-, otp, mem, lat⟩ := only.only.stores
  refine ⟨congrArg (fun f : Machine.Frm => f.auxDone ++ [x * 4 + k]) only.frm, fun y l other => ?_, mem, otp, lat, fun p => ?_⟩
  · have load := congrArg Option.isSome (only.chains y l (fun e => by
      obtain ⟨rfl, rfl⟩ := Prod.mk.inj e
      exact other.elim (fun h => h rfl) (fun h => h rfl)))
    rw [Option.isSome_map, Option.isSome_map] at load
    exact (congrArg Option.isSome (passOn_of_arr (d := u.dev) rfl y l)).trans load
  · obtain ⟨-, active, trim⟩ := words_kept only.only p
    exact ⟨trim, active⟩

/-! ### Passes that a tick cuts -/

theorem tile_onTiles_copyDone_cut (d : Dev) (i : Nat) : ((d.onTiles (fun _ x => x.copyDone)).tile i).cut = (d.tile i).cut := by
  by_cases lt : i < 192
  · rw [Dev.tile_onTiles d _ lt]
    rfl
  · rw [Dev.tile_onTiles_out d _ lt]

theorem tickCore_passes (s : State) (temps : List (BitVec 12)) : (s.tickCore temps).dev.arr.passes = [] := by
  rw [(s.tickCore_array temps).passes, Dev.onTiles_arr, (TickPart.tickRead s temps).array.passes, s.dev.cutPasses_passes]

theorem tickCore_cut (s : State) (temps : List (BitVec 12)) {p : Pass} (mem : p ∈ s.dev.arr.passes) :
    mkMsg p.tile 0x04 0 (p.tile * 4 + p.chain) ∈ (s.tickCore temps).dev.keep.transit ∧ Pends (s.tickCore temps) 78 ∧
    ((s.tickCore temps).dev.tile p.tile).cut =
      Nat.min 255 ((s.dev.tile p.tile).cut + s.dev.arr.passes.countP (fun q => q.tile == p.tile)) := by
  obtain ⟨sent, raised⟩ := s.dev.cutPasses_reports mem
  have read := (TickPart.tickRead s temps).array
  have rest := s.tickCore_array temps
  have counted : 0 < s.dev.arr.passes.countP (fun q => q.tile == p.tile) := List.countP_pos_iff.mpr ⟨p, mem, beq_self_eq_true _⟩
  refine ⟨rest.transit _ ?_, rest.pend _ ?_, ?_⟩
  · rw [Dev.onTiles_keep]
    exact read.transit _ sent
  · rw [Dev.onTiles_evt]
    exact read.pend _ raised
  · obtain ⟨m, first⟩ := read.tiles p.tile
    obtain ⟨m', last⟩ := rest.tiles p.tile
    obtain ⟨-, -, cut⟩ := s.dev.cutPasses_tile p.tile
    have lastCut := congrArg Tile.cut last
    have firstCut := congrArg Tile.cut first
    dsimp only at lastCut firstCut
    rw [lastCut, tile_onTiles_copyDone_cut, firstCut, cut, iterate_satInc 255 _ _ counted]

/-- Settles O42: a row is a run of starts, one a chain; what a start comes to rests on its own chain and tile, which the starts of other
chains leave, and a tick cuts what still runs. -/
theorem chainEntriesStartPasses : Obligations.ChainEntriesStartPasses := by
  refine fun s i => ⟨fun hdr bb may own load => ?_, fun ty n hdr bb run takeover load => ?_, fun hdr may own => ?_,
    fun x k hdr run takeover tile chain applied due => ?_, fun temps run decided => ?_⟩
  · have begun := begun_driveRow (s := s.onDev (fun d => d.begin i none)) (bits (s.dev.entry i).operand 0 3) hdr bb
      (begun_begin s.dev i none)
    have loaded := rowLoaded_driveRow (s.onDev (fun d => d.begin i none)) hdr bb (State.running_spec may.1).1
      (bits_lt (s.dev.entry i).operand 0 3)
    exact ⟨_, exec_chainDrive_entry s i hdr bb may own load, begun, rowLoaded_of_begin loaded⟩
  · have row : ty < 8 := by
      simp only [Dev.mayLoad, Bool.and_eq_true, decide_eq_true_eq] at load
      exact load.1.1.1.1
    exact ⟨_, exec_chainDrive_rebuild s ty n hdr bb run takeover load, rowLoaded_driveRow s hdr bb (State.running_spec run).1 row⟩
  · exact ⟨_, exec_chainAux_entry s i hdr may own, begun_auxRow s i _ hdr,
      fun x k pu free need clean => auxRow_starts s i hdr (State.running_spec may.1).1 free need clean, auxRow_kept s i _ hdr⟩
  · obtain ⟨done, kept⟩ := auxOne_kept s x k hdr
    exact ⟨_, exec_chainAux_rebuild s hdr run takeover tile chain applied due, done,
      fun pu free need => auxOne_starts s hdr (State.running_spec run).1 free need, kept⟩
  · exact ⟨_, exec_tick s temps run decided, tickCore_passes s temps, fun p mem => tickCore_cut s temps mem⟩

end Sys2Proof.Proofs

/-! ## A request splits at the knee (O40) -/

namespace Sys2Proof.Proofs

open Sys2Proof Sys2Proof.Machine Sys2Proof.Claims

/-! ### The current code (R61) -/

theorem currentCode_of_le_knee {l knee : Nat} (h : l * 64449 ≤ knee * 1023 * fullScale) : currentCode knee l = knee :=
  if_pos h

/-- Above the knee the manual's quotient is a division rounded up. -/
theorem currentCode_of_knee_lt {l knee : Nat} (h : knee * 1023 * fullScale < l * 64449) :
    currentCode knee l = l * 64449 ⌈/⌉ (1023 * fullScale) :=
  (if_neg (Nat.not_le.mpr h)).trans (Nat.ceilDiv_eq_add_pred_div _ _).symm

/-- A code at or above the rounded quotient is one that carries the request. -/
theorem ceilDiv_le_iff_carries (l c : Nat) : l * 64449 ⌈/⌉ (1023 * fullScale) ≤ c ↔ l * 64449 ≤ c * 1023 * fullScale := by
  rw [ceilDiv_le_iff_le_mul (by decide : 0 < 1023 * fullScale), Nat.mul_comm _ c, Nat.mul_assoc]

theorem currentCode_carries (l knee : Nat) : l * 64449 ≤ currentCode knee l * 1023 * fullScale := by
  by_cases h : l * 64449 ≤ knee * 1023 * fullScale
  · rwa [currentCode_of_le_knee h]
  · rw [currentCode_of_knee_lt (Nat.not_le.mp h)]
    exact (ceilDiv_le_iff_carries l _).mp le_rfl

/-- Above the knee no smaller code carries the request. -/
theorem currentCode_le_of_carries {l knee c : Nat} (h : knee * 1023 * fullScale < l * 64449)
    (carries : l * 64449 ≤ c * 1023 * fullScale) : currentCode knee l ≤ c := by
  rw [currentCode_of_knee_lt h]
  exact (ceilDiv_le_iff_carries l c).mpr carries

/-- Code 63 carries full scale exactly. -/
theorem currentCode_le_63 {l knee : Nat} (range : l ≤ fullScale) (kneeMax : knee ≤ 32) : currentCode knee l ≤ 63 := by
  by_cases h : l * 64449 ≤ knee * 1023 * fullScale
  · rw [currentCode_of_le_knee h]
    omega
  · refine currentCode_le_of_carries (Nat.not_le.mp h) ?_
    calc l * 64449 ≤ fullScale * 64449 := Nat.mul_le_mul_right _ range
      _ = 63 * 1023 * fullScale := by decide

/-! ### The on-time (R62) -/

theorem slotsOf_le_1023 {l c : Nat} (carries : l * 64449 ≤ c * 1023 * fullScale) : slotsOf l c ≤ 1023 := by
  refine Nat.div_le_of_le_mul (carries.trans_eq ?_)
  rw [fullScale]
  ring

/-- A code on for all 1,023 slots has nothing left to dither. -/
theorem f12Of_of_slotsOf_eq_1023 {l c : Nat} (carries : l * 64449 ≤ c * 1023 * fullScale) (all : slotsOf l c = 1023) :
    f12Of l c = 0 := by
  have rest : l * 64449 - 1023 * (1048575 * c) = 0 := by
    rw [fullScale] at carries
    omega
  rw [f12Of, all, rest, Nat.zero_mul, Nat.zero_div]

theorem onTimeOf_le_1023 {l c : Nat} (carries : l * 64449 ≤ c * 1023 * fullScale) (thr : Nat) : onTimeOf l c thr ≤ 1023 := by
  have slots := slotsOf_le_1023 carries
  unfold onTimeOf
  split
  next raised =>
    have short : slotsOf l c ≠ 1023 := fun all => by
      rw [f12Of_of_slotsOf_eq_1023 carries all] at raised
      exact Nat.not_lt_zero _ raised
    omega
  next => exact slots

/-! ### The drive word (R62, R63) -/

theorem driveWord_eq (l knee thr : Nat) : driveWord l knee thr =
    if onTimeOf l (currentCode knee l) thr = 0 then 0 else currentCode knee l * 1024 + onTimeOf l (currentCode knee l) thr := by
  have rounded : onTimeOf l (currentCode knee l) thr =
      if thr < f12Of l (currentCode knee l) then slotsOf l (currentCode knee l) + 1 else slotsOf l (currentCode knee l) := by
    unfold onTimeOf
    split <;> rfl
  rw [rounded]
  rfl

/-- The drive word holds its on-time, so it is dark only when that is 0. -/
theorem driveWord_eq_zero_iff (l knee thr : Nat) : driveWord l knee thr = 0 ↔ onTimeOf l (currentCode knee l) thr = 0 := by
  rw [driveWord_eq]
  split
  next dark => exact iff_of_true rfl dark
  next lit => exact iff_of_false (fun e => lit (Nat.add_eq_zero_iff.mp e).2) lit

/-- Settles O40: above the knee the code is a division rounded up, the least code that carries the request; a code that carries the
request calls for at most 1,023 slots, and at exactly 1,023 leaves no remainder that could raise them. -/
theorem requestSplitsAtKnee : Obligations.RequestSplitsAtKnee := by
  intro l knee thr range _ kneeMax
  have carries := currentCode_carries l knee
  exact ⟨currentCode_of_le_knee, fun above => ⟨carries, fun _ => currentCode_le_of_carries above⟩, currentCode_le_63 range kneeMax,
    onTimeOf_le_1023 carries thr, driveWord_eq_zero_iff l knee thr, fun lit => (driveWord_eq l knee thr).trans (if_neg lit)⟩

end Sys2Proof.Proofs

/-! ## Decision points of a lamp alone (R87, R88, R90) -/

namespace Sys2Proof.Machine

/-- Abandoning the passes empties the list of them and leaves the DRIVE flags. -/
theorem Dev.abandonPasses_spec (d : Dev) :
    d.abandonPasses.arr.passes = [] ∧ ∀ i, (d.abandonPasses.tile i).drive = (d.tile i).drive := by
  refine List.foldlRecOn d.arr.passes _ (motive := fun d' : Dev => d'.arr.passes = [] ∧ ∀ i, (d'.tile i).drive = (d.tile i).drive)
    ⟨List.filter_eq_nil_iff.mpr (fun _ _ => by simp), fun _ => rfl⟩ (fun d' ⟨gone, drive⟩ p _ => ⟨gone, fun i => ?_⟩)
  have counted : ((d'.onTile p.tile (fun x => x.countCut p.purpose)).tile i).drive = (d'.tile i).drive := by
    rw [Dev.tile_onTile]
    split
    next same => rw [((d'.tile p.tile).countCut_flags p.purpose).2.1, same]
    next => rfl
  exact counted.trans (drive i)

/-- A failing composition gate at the limit leaves no DRIVE flag and no pass. -/
theorem Dev.failAtLimit_composition (d : Dev) (content : Bool) : (d.failAtLimit false content).arr.passes = [] ∧
    (d.failAtLimit false content).frm.repeatDue = true ∧ ∀ i, i < 192 → ((d.failAtLimit false content).tile i).drive = 0 := by
  obtain ⟨gone, drive⟩ := d.clearDrive.abandonPasses_spec
  refine ⟨gone, rfl, fun i lt => (drive i).trans ?_⟩
  rw [Dev.clearDrive, Dev.tile_onTiles _ _ lt]

theorem Dev.candidate_of_base {d : Dev} (base : d.base ≤ d.frm.period + 1) (limit : d.frm.period < 24) : d.candidate = true := by
  simp only [Dev.candidate, Bool.and_eq_true, decide_eq_true_eq]
  exact ⟨base, limit⟩

/-- Both gates of the boundary that comes hold (R88). -/
def Dev.gatesHold (d : Dev) (limit : Bool) : Bool := d.compositionGate && d.contentGate (d.now + 16 * d.slotNow) limit

section
variable {d : Dev} (steady : d.frm.transitional = false) (alone : d.syncRole = 0) (base : d.base ≤ d.frm.period + 1)
include steady alone base

/-- A decision point whose gates hold. -/
theorem Dev.decisionPoint_hold (most : d.frm.period < 24) (jitter : d.test.jitter = 0)
    (hold : d.gatesHold (d.frm.period == 23) = true) : d.decisionPoint = d.decide_ .tick 16 := by
  unfold Dev.gatesHold at hold
  simp [Dev.decisionPoint, steady, Dev.candidate_of_base base most, hold, Dev.lockedFollower, Dev.masterPair, alone, Dev.allHold, jitter]

/-- A decision point before the limit of which a gate fails. -/
theorem Dev.decisionPoint_fail (before : d.frm.period < 23) (fail : d.gatesHold false = false) :
    d.decisionPoint = d.decide_ .none 2 := by
  have early : (d.frm.period == 23) = false := beq_eq_false_iff_ne.mpr (by omega)
  unfold Dev.gatesHold at fail
  simp [Dev.decisionPoint, steady, Dev.candidate_of_base base (by omega), early, fail, Dev.lockedFollower, alone]

/-- The decision point of the limit where a gate fails. -/
theorem Dev.decisionPoint_failAtLimit (limit : d.frm.period = 23) (fail : d.gatesHold true = false) :
    d.decisionPoint = (d.failAtLimit d.compositionGate (d.contentGate (d.now + 16 * d.slotNow) true)).decide_ .limit 2 := by
  unfold Dev.gatesHold at fail
  simp [Dev.decisionPoint, steady, Dev.candidate_of_base base (by omega), limit, fail, alone]

end

theorem Dev.decide_alone {d : Dev} (alone : d.syncRole = 0) (dec : Decision) (out : Nat) :
    d.decide_ dec out = { d with frm := { d.frm with decision := dec, awaitSample := false, syncOut := 0 } } := by
  simp only [Dev.decide_, alone, if_true]
  rfl

end Sys2Proof.Machine

namespace Sys2Proof.Proofs

open Sys2Proof Sys2Proof.Machine Sys2Proof.Claims

theorem exec_decisionPoint {s : State} (run : s.running = true) (open_ : s.dev.frm.decision = .none)
    (await : s.dev.frm.awaitSample = false) (jitter : s.dev.test.jitter = 0) :
    exec .decisionPoint s = .next (s.onDev Dev.decisionPoint) := by
  simp only [exec, execDecisionPoint, run, open_, await, jitter, State.onDev]
  rfl

/-- Settles O35: the two gates of a lamp alone are the decision, and what they leave at the limit is what `Dev.failAtLimit` says. -/
theorem gatesDecideTheTick : Obligations.GatesDecideTheTick := by
  intro s run undecided await steady alone jitter base
  have point := exec_decisionPoint run undecided await jitter
  have holds (most : s.dev.frm.period < 24) (hold : s.dev.gatesHold (s.dev.frm.period == 23) = true) :=
    (Dev.decisionPoint_hold steady alone base most jitter hold).trans (Dev.decide_alone alone ..)
  refine ⟨fun before => ⟨_, point, ⟨rfl, rfl, rfl, rfl, rfl⟩, ?_⟩,
    fun limit comp => ⟨_, point, ⟨rfl, rfl, rfl, rfl, rfl⟩, ?_⟩,
    fun limit comp => ⟨_, point, ⟨rfl, rfl, rfl, rfl, rfl⟩, ?_⟩⟩
  · have early : (s.dev.frm.period == 23) = false := beq_eq_false_iff_ne.mpr (by omega)
    simp only [← Bool.and_eq_true, State.onDev_dev]
    change s.dev.decisionPoint = { s.dev with frm := { s.dev.frm with
      awaitSample := false, syncOut := 0, decision := if s.dev.gatesHold false = true then .tick else .none } }
    by_cases hold : s.dev.gatesHold false = true
    · rw [if_pos hold, holds (by omega) (by rw [early, hold])]
    · rw [if_neg hold, Dev.decisionPoint_fail steady alone base before (Bool.not_eq_true _ ▸ hold)]
      exact Dev.decide_alone alone ..
  · have fail : s.dev.gatesHold true = false := by rw [Dev.gatesHold, comp, Bool.false_and]
    rw [State.onDev_dev, Dev.decisionPoint_failAtLimit steady alone base limit fail, comp]
    obtain ⟨passes, repeats, drive⟩ := s.dev.failAtLimit_composition (s.dev.contentGate (s.dev.now + 16 * s.dev.slotNow) true)
    exact ⟨rfl, repeats, passes, drive⟩
  · have gates : s.dev.gatesHold true = s.dev.contentGate (s.dev.now + 16 * s.dev.slotNow) true := by
      rw [Dev.gatesHold, comp, Bool.true_and]
    rw [State.onDev_dev, ← gates]
    cases hold : s.dev.gatesHold true with
    | true =>
      rw [holds (by omega) (by rw [limit]; exact hold)]
      exact ⟨fun _ => rfl, nofun, rfl⟩
    | false =>
      rw [Dev.decisionPoint_failAtLimit steady alone base limit hold, comp, ← gates, hold]
      exact ⟨nofun, fun _ => ⟨rfl, rfl⟩, rfl⟩

end Sys2Proof.Proofs

/-! ## The pending table: commits and MODE commands enter (R92, R94, R469) -/

namespace Sys2Proof.Machine

/-! ### The target rules -/

theorem Dev.screen_tooFar {d : Dev} {target r : Nat} (h : Claims.TooFar d target r) : d.screen target = .error r := by
  unfold Dev.screen
  dsimp only
  rcases h with ⟨stale, rfl⟩ | ⟨far, rfl⟩
  · exact if_pos stale
  · rw [if_neg (by omega), if_pos far]

theorem Dev.screen_lands {d : Dev} {target n : Nat} {late : Bool} (h : Claims.Lands d target n late) :
    d.screen target = .ok (n, late) := by
  unfold Dev.screen
  dsimp only
  rcases h with ⟨near, started, rfl, rfl⟩ | ⟨past, rfl, rfl⟩ | ⟨unstarted, rfl, rfl, rfl⟩
  · have notFirst : ¬ (d.targetDist n = 0 ∧ d.frm.ticked = false) := by
      rintro ⟨zero, unstarted⟩
      have dist : d.targetDist n = n := by rw [Dev.targetDist, unstarted]; rfl
      rcases started with ticked | nonzero
      · exact Bool.noConfusion (ticked.symm.trans unstarted)
      · omega
    rw [if_neg (by omega), if_neg (by omega), if_neg (by omega), if_neg notFirst]
  · rw [past, if_neg (by omega), if_neg (by omega), if_pos rfl]
  · have dist : d.targetDist 0 = 0 := by rw [Dev.targetDist, unstarted]; rfl
    simp [dist, unstarted]

/-! ### What a judgement reaches -/

/-- From `d` to `d'` the frame timing changes by `f`; of the rest only replies are queued and events raised. -/
structure Timed (d d' : Dev) (f : Frm → Frm) : Prop where
  dev : d' = { d with frm := f d.frm, fw := d'.fw, evt := d'.evt }
  pend : ∀ k, d.evt.pend.getLsbD k = true → d'.evt.pend.getLsbD k = true

namespace Timed

theorem trans {a b c : Dev} {f g : Frm → Frm} (h : Timed a b f) (h' : Timed b c g) : Timed a c (g ∘ f) where
  dev := by rw [h'.dev, h.dev]; rfl
  pend k mem := h'.pend k (h.pend k mem)

theorem onFrm (d : Dev) (f : Frm → Frm) : Timed d (d.onFrm f) f := ⟨rfl, fun _ h => h⟩

theorem raise (d : Dev) (n : Nat) : Timed d (d.raise n) id := ⟨rfl, fun k h => Evt.raise_keeps d.evt n k h⟩

theorem commitResult (d : Dev) (isMode : Bool) (sent outcome reason now : Nat) :
    Timed d (d.commitResult isMode sent outcome reason now) id := by
  have replies := OnlyReplies.commitResult d isMode sent outcome reason now
  exact ⟨replies.dev, replies.keeps⟩

theorem frm {d d' : Dev} {f : Frm → Frm} (h : Timed d d' f) : d'.frm = f d.frm := by rw [h.dev]

theorem frame {d d' : Dev} {f : Frm → Frm} (h : Timed d d' f) : d' = { d with frm := d'.frm, fw := d'.fw, evt := d'.evt } := by
  rw [h.dev]

theorem eng {d d' : Dev} {f : Frm → Frm} (h : Timed d d' f) : d'.eng = d.eng := by rw [h.dev]

end Timed

/-- The counter of commands that are late, after one more that is or is not. -/
def Frm.countLate (late : Bool) (f : Frm) : Frm := { f with late := if late then Nat.min 4095 (f.late + 1) else f.late }

/-- The count of refusals and the reason of the last. -/
def Frm.countRefusal (reason : Nat) (f : Frm) : Frm := { f with refused := Nat.min 255 (f.refused + 1), reason := reason }

/-- A command that is late is noted. -/
def Dev.noted (d : Dev) (late : Bool) : Dev := if late then d.noteLate else d

theorem Dev.noted_timed (d : Dev) (late : Bool) : Timed d (d.noted late) (Frm.countLate late) := by
  cases late with
  | false => exact ⟨rfl, fun _ h => h⟩
  | true =>
    refine ⟨?_, (Timed.raise _ 64).pend⟩
    rw [Dev.noted, if_pos rfl, Dev.noteLate, Dev.onFrm, satInc_eq_min]
    rfl

theorem Dev.noted_late (d : Dev) {late : Bool} (h : late = true) : (d.noted late).evt.pend.getLsbD 64 = true := by
  subst h
  exact Evt.raise_self _ 64 rfl

theorem Dev.refuseCommit_eq (d : Dev) (isMode : Bool) (sent now reason : Nat) : d.refuseCommit isMode sent now reason =
    ((d.onFrm (Frm.countRefusal reason)).raise 65).commitResult isMode sent 2 reason now := by
  rw [Dev.refuseCommit]
  simp only [satInc_eq_min]
  rfl

theorem Dev.refuseCommit_timed (d : Dev) (isMode : Bool) (sent now reason : Nat) :
    Timed d (d.refuseCommit isMode sent now reason) (Frm.countRefusal reason) := by
  rw [Dev.refuseCommit_eq]
  exact ((Timed.onFrm d _).trans (.raise _ 65)).trans (.commitResult ..)

theorem Dev.refuseCommit_raises (d : Dev) (isMode : Bool) (sent now reason : Nat) :
    (d.refuseCommit isMode sent now reason).evt.pend.getLsbD 65 = true := by
  rw [Dev.refuseCommit_eq]
  exact (Timed.commitResult ..).pend 65 (Evt.raise_self _ 65 rfl)

/-! ### Judging a command -/

/-- The judgement of a command ends at `d'`: `late` or not, `refused` or not, the frame timing changed by `f` (R92, R103). -/
structure Judged (d d' : Dev) (late refused : Bool) (f : Frm → Frm) : Prop where
  timed : Timed d d' f
  late : late = true → d'.evt.pend.getLsbD 64 = true
  refused : refused = true → d'.evt.pend.getLsbD 65 = true

/-- A command refused after it has landed, with what `f` does to the table. -/
theorem Dev.judged_refused (d : Dev) (late isMode : Bool) (sent now reason : Nat) (f : Frm → Frm) :
    Judged d (((d.noted late).onFrm f).refuseCommit isMode sent now reason) late true
      (Frm.countRefusal reason ∘ f ∘ Frm.countLate late) where
  timed := ((d.noted_timed late).trans (.onFrm _ f)).trans (Dev.refuseCommit_timed ..)
  late h := (Dev.refuseCommit_timed ..).pend 64 (d.noted_late h)
  refused _ := Dev.refuseCommit_raises ..

/-- A command that enters the table as `f` says. -/
theorem Dev.judged_entered (d : Dev) (late isMode : Bool) (sent now : Nat) (f : Frm → Frm) :
    Judged d (((d.noted late).onFrm f).commitResult isMode sent (b1 late) 0 now) late false (f ∘ Frm.countLate late) where
  timed := ((d.noted_timed late).trans (.onFrm _ f)).trans (Timed.commitResult ..)
  late h := (Timed.commitResult ..).pend 64 (d.noted_late h)
  refused h := Bool.noConfusion h

/-- A command refused by its target. -/
theorem Dev.judged_tooFar (d : Dev) (isMode : Bool) (sent now reason : Nat) :
    Judged d (d.refuseCommit isMode sent now reason) false true (Frm.countRefusal reason) where
  timed := d.refuseCommit_timed ..
  late h := Bool.noConfusion h
  refused _ := d.refuseCommit_raises ..

/-! ### Commits (R92) -/

/-- A commit joins the table. -/
def Frm.addCommit (c : Commit) (f : Frm) : Frm := { f with commits := f.commits ++ [c] }

/-- What a commit took passes to the one that is pending for tick `n`. -/
def Frm.passOn (n : Nat) (c : Commit) (f : Frm) : Frm :=
  { f with commits := f.commits.map (fun o => if o.target = n then o.pass c else o) }

theorem Commit.pass_eq (o c : Commit) : o.pass c = { o with
    sect := o.sect.or c.sect, sym := o.sym.or c.sym, blend := o.blend.or c.blend } := by
  obtain ⟨-, -, sect, sym, blend, -, -⟩ := o
  cases sect <;> cases sym <;> cases blend <;> rfl

theorem Frm.passOn_eq (n : Nat) (c : Commit) (f : Frm) : f.passOn n c = { f with
    commits := f.commits.map (fun o => if o.target = n then { o with
      sect := o.sect.or c.sect, sym := o.sym.or c.sym, blend := o.blend.or c.blend } else o) } := by
  simp only [Frm.passOn, Commit.pass_eq]

section
variable {d : Dev} {c : Commit} {n : Nat} {late : Bool}

theorem Dev.enterCommit_tooFar {r : Nat} (took : Bool) (h : Claims.TooFar d c.target r) :
    Judged d (d.enterCommit c took) false true (Frm.countRefusal r) := by
  rw [Dev.enterCommit, Dev.screen_tooFar h]
  exact d.judged_tooFar ..

variable (h : Claims.Lands d c.target n late)
include h

/-- A commit that lands, its sets taken or not. -/
theorem Dev.enterCommit_lands (took : Bool) : d.enterCommit c took =
    if d.frm.holds n then ((d.noted late).onFrm (if took then Frm.passOn n c else id)).refuseCommit false c.sent n 2
    else ((if took then d.noted late else (d.noted late).taken).onFrm (Frm.addCommit
      { (if took then c else c.take d.eng) with target := n, at_ := d.now })).commitResult false c.sent (b1 late) 0 n := by
  rw [Dev.enterCommit, Dev.screen_lands h]
  cases late <;> cases took <;> rfl

theorem Dev.enterCommit_duplicate (took : Bool) (held : d.frm.holds n = true) : Judged d (d.enterCommit c took) late true
    (Frm.countRefusal 2 ∘ (if took then Frm.passOn n c else id) ∘ Frm.countLate late) := by
  rw [Dev.enterCommit_lands h, if_pos held]
  exact d.judged_refused ..

theorem Dev.enterCommit_taken (free : d.frm.holds n = false) : Judged d (d.enterCommit c true) late false
    (Frm.addCommit { c with target := n, at_ := d.now } ∘ Frm.countLate late) := by
  rw [Dev.enterCommit_lands h, free]
  exact d.judged_entered ..

/-- A commit that takes the staged sets as it enters. -/
theorem Dev.enterCommit_takes (free : d.frm.holds n = false) : Judged d.taken (d.enterCommit c false) late false
    (Frm.addCommit { c.take d.eng with target := n, at_ := d.now } ∘ Frm.countLate late) := by
  have first : (d.noted late).taken = d.taken.noted late := by cases late <;> rfl
  rw [Dev.enterCommit_lands h, free, if_neg Bool.false_ne_true, if_neg Bool.false_ne_true, first]
  exact d.taken.judged_entered ..

end

/-! ### MODE commands (R94, R412) -/

/-- A MODE command is pending. -/
def Frm.setMode (m : ModeCmd) (f : Frm) : Frm := { f with modePend := some m }

/-- A mode that is not valid, or whose level is not in force (R412). -/
def Dev.modeBarred (d : Dev) (m : Nat) : Bool := !d.modeValid m || decide (d.pwr.level.toNat < d.minPl m)

theorem Dev.modeBarred_iff (d : Dev) (m : Nat) :
    d.modeBarred m = true ↔ d.modeValid m = false ∨ d.pwr.level.toNat < d.minPl m := by
  simp [Dev.modeBarred]

section
variable {d : Dev} {sent n m : Nat} {late : Bool}

theorem Dev.enterMode_tooFar {r : Nat} (m : Nat) (h : Claims.TooFar d sent r) :
    Judged d (d.enterMode sent m) false true (Frm.countRefusal r) := by
  rw [Dev.enterMode, Dev.screen_tooFar h]
  exact d.judged_tooFar ..

variable (h : Claims.Lands d sent n late)
include h

theorem Dev.enterMode_lands : d.enterMode sent m =
    if d.frm.modePend.isSome then ((d.noted late).onFrm id).refuseCommit true sent n 2
    else if d.modeBarred m then ((d.noted late).onFrm id).refuseCommit true sent n 3
    else ((d.noted late).onFrm (Frm.setMode { target := n, sent := sent, mode := m, at_ := d.now })).commitResult
      true sent (b1 late) 0 n := by
  rw [Dev.enterMode, Dev.screen_lands h]
  cases late <;> rfl

theorem Dev.enterMode_refused {r : Nat} (why : (d.frm.modePend.isSome = true ∧ r = 2) ∨
    (d.frm.modePend = none ∧ (d.modeValid m = false ∨ d.pwr.level.toNat < d.minPl m) ∧ r = 3)) :
    Judged d (d.enterMode sent m) late true (Frm.countRefusal r ∘ Frm.countLate late) := by
  rw [Dev.enterMode_lands h]
  rcases why with ⟨held, rfl⟩ | ⟨free, barred, rfl⟩
  · rw [if_pos held]
    exact d.judged_refused ..
  · rw [free, if_pos ((d.modeBarred_iff m).mpr barred)]
    exact d.judged_refused ..

theorem Dev.enterMode_enters (free : d.frm.modePend = none) (valid : d.modeValid m = true)
    (level : d.minPl m ≤ d.pwr.level.toNat) : Judged d (d.enterMode sent m) late false
    (Frm.setMode { target := n, sent := sent, mode := m, at_ := d.now } ∘ Frm.countLate late) := by
  have may : ¬ d.modeBarred m = true := by
    rw [d.modeBarred_iff, valid, not_or]
    exact ⟨nofun, Nat.not_lt.mpr level⟩
  rw [Dev.enterMode_lands h, free, if_neg may]
  exact d.judged_entered ..

end

/-! ### Commands held back (R469) -/

theorem firstDue_cons (x : Delayed) (xs : List Delayed) :
    firstDue (x :: xs) = some ((firstDue xs).elim x (fun y => if y.due < x.due then y else x)) := by
  rw [firstDue]
  cases firstDue xs <;> rfl

theorem mem_of_firstDue : ∀ {xs : List Delayed} {y : Delayed}, firstDue xs = some y → y ∈ xs
  | x :: xs, y, h => by
    rw [firstDue_cons, Option.some.injEq] at h
    cases rest : firstDue xs with
    | none => exact List.mem_cons.mpr (.inl (by rw [← h, rest]; rfl))
    | some z =>
      rw [rest, Option.elim_some] at h
      split at h
      · exact List.mem_cons_of_mem _ (h ▸ mem_of_firstDue rest)
      · exact List.mem_cons.mpr (.inl h.symm)

/-- Of two that are due at once the older is first. -/
theorem firstDue_eq {before after : List Delayed} {x : Delayed} (earlier : ∀ y ∈ before, x.due < y.due)
    (later : ∀ y ∈ after, x.due ≤ y.due) : firstDue (before ++ x :: after) = some x := by
  induction before with
  | nil =>
    rw [List.nil_append, firstDue_cons]
    cases rest : firstDue after with
    | none => rfl
    | some y => rw [Option.elim_some, if_neg (Nat.not_lt.mpr (later y (mem_of_firstDue rest)))]
  | cons y before ih =>
    rw [List.cons_append, firstDue_cons, ih (fun z hz => earlier z (List.mem_cons_of_mem _ hz)), Option.elim_some,
      if_pos (earlier y List.mem_cons_self)]

theorem erase_of_firstDue {before after : List Delayed} {x : Delayed} (earlier : ∀ y ∈ before, x.due < y.due) :
    (before ++ x :: after).erase x = before ++ after := by
  rw [List.erase_append_right _ (fun mem => Nat.lt_irrefl _ (earlier x mem)), List.erase_cons_head]

/-- The commands held back are `xs`. -/
def Dev.holding (d : Dev) (xs : List Delayed) : Dev := d.onFrm (fun f => { f with delayed := xs })

theorem Dev.holding_frm (d : Dev) (xs : List Delayed) : (d.holding xs).frm = { d.frm with delayed := xs } := rfl

theorem Dev.holding_eng (d : Dev) (xs : List Delayed) : (d.holding xs).eng = d.eng := rfl

/-! ### Packets (R227) -/

theorem Dev.commitPacket_spells {body : Bytes} {target : Nat} {deps : List (Nat × Nat × Bool)} (d : Dev)
    (h : Claims.Spells body target deps) : d.commitPacket body = d.acceptCommit target deps := by
  obtain ⟨len, range, rfl, words, rfl⟩ := h
  have fits : ¬ (body.length < 8 ∨ body.length ≠ 8 + 4 * (namedSlots (wordAt body 1)).length ∨ 65536 ≤ wordAt body 1 ∨
      (bodyWords body 2 (namedSlots (wordAt body 1)).length).any (fun w => decide (131072 ≤ w)) = true) := by
    rintro (short | other | wide | bad)
    · omega
    · exact other len
    · omega
    · obtain ⟨w, mem, above⟩ := List.any_eq_true.mp bad
      exact Nat.not_le.mpr (words w mem) (of_decide_eq_true above)
  exact if_neg fits

/-- A commit as it is sent, before it takes anything. -/
def Dev.sentCommit (d : Dev) (target : Nat) (deps : List (Nat × Nat × Bool)) : Commit :=
  { target := target, deps := deps, sect := none, sym := none, blend := none, at_ := d.now, sent := target }

theorem Dev.modePacket_fits {body : Bytes} {target m : Nat} (d : Dev) (len : body.length = 8) (first : wordAt body 0 = target)
    (second : wordAt body 1 = m) (range : m < 4) : d.modePacket body = d.acceptMode target m := by
  subst first second
  exact if_neg (by omega)

end Sys2Proof.Machine

namespace Sys2Proof.Proofs

open Sys2Proof Sys2Proof.Machine Sys2Proof.Claims

theorem exec_commit {s : State} {body : Bytes} {target : Nat} {deps : List (Nat × Nat × Bool)} (on : s.dev.contentOn = true)
    (spells : Spells body target deps) : exec (.commit body) s = .next (s.onDev (fun d => d.acceptCommit target deps)) := by
  simp only [exec, execCommit, State.onPacket, State.onDev, on, if_true, s.dev.commitPacket_spells spells]

theorem exec_commit_now {s : State} {body : Bytes} {target : Nat} {deps : List (Nat × Nat × Bool)} (on : s.dev.contentOn = true)
    (spells : Spells body target deps) (now : s.dev.test.commitDelay = 0) :
    exec (.commit body) s = .next (s.onDev (fun d => d.enterCommit (d.sentCommit target deps) false)) := by
  rw [exec_commit on spells, State.onDev, Dev.acceptCommit, if_pos now]
  rfl

theorem exec_commit_delayed {s : State} {body : Bytes} {target : Nat} {deps : List (Nat × Nat × Bool)} (on : s.dev.contentOn = true)
    (spells : Spells body target deps) (delay : s.dev.test.commitDelay ≠ 0) :
    exec (.commit body) s = .next (s.onDev (fun d => d.taken.holding (d.frm.delayed ++ [{
      isMode := false, commit := commitOf d target target deps, mode := 0, due := d.now + d.test.commitDelay * 200 }]))) := by
  rw [exec_commit on spells, State.onDev, Dev.acceptCommit, if_neg delay]
  rfl

theorem exec_mode {s : State} {body : Bytes} {target m : Nat} (on : s.dev.contentOn = true) (len : body.length = 8)
    (first : wordAt body 0 = target) (second : wordAt body 1 = m) (range : m < 4) :
    exec (.mode body) s = .next (s.onDev (fun d => d.acceptMode target m)) := by
  simp only [exec, execMode, State.onPacket, State.onDev, on, if_true, s.dev.modePacket_fits len first second range]

/-- What the command held back `x` becomes when it is due (R469). -/
def dueEntered (d : Dev) (x : Delayed) : Dev :=
  if x.isMode then d.enterMode x.commit.sent x.mode else d.enterCommit x.commit true

theorem dueEntered_mode (d : Dev) {x : Delayed} (isMode : x.isMode = true) :
    dueEntered d x = d.enterMode x.commit.sent x.mode := if_pos isMode

theorem dueEntered_commit (d : Dev) {x : Delayed} (isCommit : x.isMode = false) :
    dueEntered d x = d.enterCommit x.commit true := if_neg (by rw [isCommit]; exact Bool.false_ne_true)

theorem exec_delayedCommitEntry_idle {s : State} (idle : s.dev.pwr.mainOn = false ∨ s.dev.frm.delayed = []) :
    exec .delayedCommitEntry s = .next s := by
  have none : (if s.dev.pwr.mainOn then firstDue s.dev.frm.delayed else Option.none) = Option.none := by
    rcases idle with off | empty
    · rw [off]; rfl
    · rw [empty, firstDue, ite_self]
  simp only [exec, execDelayedCommitEntry, State.onDev, none]

theorem exec_delayedCommitEntry {s : State} {before after : List Delayed} {x : Delayed} (on : s.dev.pwr.mainOn = true)
    (held : s.dev.frm.delayed = before ++ x :: after) (earlier : ∀ y ∈ before, x.due < y.due) (later : ∀ y ∈ after, x.due ≤ y.due) :
    exec .delayedCommitEntry s = .next { s with dev := dueEntered (s.dev.holding (before ++ after)) x } := by
  have first : (if s.dev.pwr.mainOn then firstDue s.dev.frm.delayed else none) = some x := by
    rw [if_pos on, held, firstDue_eq earlier later]
  have erased : s.dev.onFrm (fun f => { f with delayed := f.delayed.erase x }) = s.dev.holding (before ++ after) := by
    rw [Dev.holding, Dev.onFrm, held, erase_of_firstDue earlier]
    rfl
  simp only [exec, execDelayedCommitEntry, State.onDev, first, erased]
  rfl

/-- Settles O55: the target rules say where a command lands; one that has landed enters the table or is refused, and what was held back
is judged like what has just arrived. -/
theorem commandsEnterPendingTable : Obligations.CommandsEnterPendingTable := by
  intro s
  refine ⟨fun body target deps on spells => ⟨fun now n late lands => ⟨fun free => ?_, fun held => ?_⟩, fun now r far => ?_,
      fun delay => ?_⟩,
    fun body target m on len first second range => ?_, fun idle => exec_delayedCommitEntry_idle idle,
    fun before x after on held earlier later => ?_⟩
  · have judged := Dev.enterCommit_takes (c := s.dev.sentCommit target deps) lands free
    refine ⟨_, exec_commit_now on spells now, ⟨rfl, rfl, rfl, rfl, rfl⟩, judged.late, judged.timed.frm, judged.timed.eng, ?_⟩
    rw [State.onDev_dev, judged.timed.dev]
    rfl
  · have judged := Dev.enterCommit_duplicate (c := s.dev.sentCommit target deps) lands false held
    exact ⟨_, exec_commit_now on spells now, ⟨rfl, rfl, rfl, rfl, rfl⟩, judged.late, judged.refused rfl, judged.timed.frm,
      judged.timed.frame⟩
  · have judged := Dev.enterCommit_tooFar (c := s.dev.sentCommit target deps) false far
    exact ⟨_, exec_commit_now on spells now, ⟨rfl, rfl, rfl, rfl, rfl⟩, judged.refused rfl, judged.timed.frm, judged.timed.frame⟩
  · exact ⟨_, exec_commit_delayed on spells delay, ⟨rfl, rfl, rfl, rfl, rfl⟩, rfl⟩
  · have arrives := exec_mode on len first second range
    have judges (now : s.dev.test.commitDelay = 0) : exec (.mode body) s = .next (s.onDev (fun d => d.enterMode target m)) := by
      rw [arrives, State.onDev, Dev.acceptMode, if_pos now]
      rfl
    refine ⟨fun now n late lands => ⟨fun free valid level => ?_, fun r why => ?_⟩, fun now r far => ?_, fun delay => ?_⟩
    · have judged := Dev.enterMode_enters lands free valid level
      exact ⟨_, judges now, ⟨rfl, rfl, rfl, rfl, rfl⟩, judged.late, judged.timed.frm, judged.timed.frame⟩
    · have judged := Dev.enterMode_refused lands why
      exact ⟨_, judges now, ⟨rfl, rfl, rfl, rfl, rfl⟩, judged.late, judged.refused rfl, judged.timed.frm, judged.timed.frame⟩
    · have judged := Dev.enterMode_tooFar m far
      exact ⟨_, judges now, ⟨rfl, rfl, rfl, rfl, rfl⟩, judged.refused rfl, judged.timed.frm, judged.timed.frame⟩
    · exact ⟨_, arrives, ⟨rfl, rfl, rfl, rfl, rfl⟩, s.dev.sentCommit target [], rfl, rfl, if_neg delay⟩
  · have enters := exec_delayedCommitEntry on held earlier later
    generalize before ++ after = rest at enters ⊢
    refine ⟨fun isCommit n late lands => ⟨fun free => ?_, fun held => ?_⟩, fun target r aim far => ?_,
      fun isMode n late lands free valid level => ?_⟩
    · rw [dueEntered_commit _ isCommit] at enters
      have judged := Dev.enterCommit_taken (d := s.dev.holding rest) lands free
      refine ⟨_, enters, ⟨rfl, rfl, rfl, rfl, rfl⟩, judged.late, judged.timed.eng.trans (s.dev.holding_eng rest), ?_⟩
      dsimp only
      rw [judged.timed.frm, Dev.holding_frm]
      rfl
    · rw [dueEntered_commit _ isCommit] at enters
      have judged := Dev.enterCommit_duplicate (d := s.dev.holding rest) lands true held
      refine ⟨_, enters, ⟨rfl, rfl, rfl, rfl, rfl⟩, judged.late, judged.refused rfl,
        judged.timed.eng.trans (s.dev.holding_eng rest), ?_⟩
      dsimp only
      rw [judged.timed.frm, Dev.holding_frm, if_pos rfl, Function.comp_apply, Function.comp_apply, Frm.passOn_eq]
      rfl
    · have judged : Judged (s.dev.holding rest) (dueEntered (s.dev.holding rest) x) false true (Frm.countRefusal r) := by
        subst aim
        cases kind : x.isMode with
        | true =>
          rw [kind] at far
          rw [dueEntered_mode _ kind]
          exact Dev.enterMode_tooFar x.mode far
        | false =>
          rw [kind] at far
          rw [dueEntered_commit _ kind]
          exact Dev.enterCommit_tooFar true far
      refine ⟨_, enters, ⟨rfl, rfl, rfl, rfl, rfl⟩, judged.refused rfl, judged.timed.eng.trans (s.dev.holding_eng rest), ?_⟩
      dsimp only
      rw [judged.timed.frm, Dev.holding_frm]
      rfl
    · rw [dueEntered_mode _ isMode] at enters
      have judged := Dev.enterMode_enters (d := s.dev.holding rest) lands free valid level
      refine ⟨_, enters, ⟨rfl, rfl, rfl, rfl, rfl⟩, judged.late, judged.timed.eng.trans (s.dev.holding_eng rest), ?_⟩
      dsimp only
      rw [judged.timed.frm, Dev.holding_frm]
      rfl

end Sys2Proof.Proofs

/-! ## Two lamps on one tick: what a tick keeps (R96, R102) -/

namespace Sys2Proof.Machine

/-- Of the frame timing what the lock of a follower and its realignment rest on, with what the slot length comes from. -/
structure SyncView where
  locked : Bool
  fault : Nat
  realign : Option Int
  realignNow : Int
  mode : Nat
  cfg : Cfg

def Frm.syncView (f : Frm) (c : Cfg) : SyncView := ⟨f.locked, f.syncFault, f.realign, f.realignNow, f.mode, c⟩

def Dev.sync (d : Dev) : SyncView := d.frm.syncView d.cfg

theorem Dev.slot_of_sync {d d' : Dev} (h : d'.sync = d.sync) : d'.slot = d.slot := by
  have mode : d'.frm.mode = d.frm.mode := congrArg SyncView.mode h
  have cfg : d'.cfg = d.cfg := congrArg SyncView.cfg h
  simp only [Dev.slot, Dev.slotCyc, Dev.modeWord, Dev.sw, Dev.sect, mode, cfg]

/-! ### Changes of one block -/

@[simp] theorem Dev.raise_sync (d : Dev) (n : Nat) : (d.raise n).sync = d.sync := rfl
@[simp] theorem Dev.send_sync (d : Dev) (source kind sev addr : Nat) : (d.send source kind sev addr).sync = d.sync := rfl
@[simp] theorem Dev.onTile_sync (d : Dev) (t : Nat) (f : Tile → Tile) : (d.onTile t f).sync = d.sync := rfl
@[simp] theorem Dev.onTiles_sync (d : Dev) (f : Nat → Tile → Tile) : (d.onTiles f).sync = d.sync := rfl
@[simp] theorem Dev.onPwr_sync (d : Dev) (f : Pwr → Pwr) : (d.onPwr f).sync = d.sync := rfl
@[simp] theorem Dev.onKeep_sync (d : Dev) (f : Keep → Keep) : (d.onKeep f).sync = d.sync := rfl
@[simp] theorem Dev.onLink_sync (d : Dev) (f : Link → Link) : (d.onLink f).sync = d.sync := rfl
@[simp] theorem Dev.onFw_sync (d : Dev) (f : Fw → Fw) : (d.onFw f).sync = d.sync := rfl
@[simp] theorem Dev.onWit_sync (d : Dev) (f : Wit → Wit) : (d.onWit f).sync = d.sync := rfl
@[simp] theorem Dev.onMemc_sync (d : Dev) (f : Memc → Memc) : (d.onMemc f).sync = d.sync := rfl
@[simp] theorem Dev.onCal_sync (d : Dev) (f : Cal → Cal) : (d.onCal f).sync = d.sync := rfl
@[simp] theorem Dev.onChg_sync (d : Dev) (f : Chg → Chg) : (d.onChg f).sync = d.sync := rfl
@[simp] theorem Dev.onLedg_sync (d : Dev) (f : Ledg → Ledg) : (d.onLedg f).sync = d.sync := rfl
@[simp] theorem Dev.onArr_sync (d : Dev) (f : Arr → Arr) : (d.onArr f).sync = d.sync := rfl
@[simp] theorem Dev.onDiag_sync (d : Dev) (f : Diag → Diag) : (d.onDiag f).sync = d.sync := rfl
@[simp] theorem Dev.raiseIf_sync (d : Dev) (c : Bool) (n : Nat) : (d.raiseIf c n).sync = d.sync := by cases c <;> rfl

@[simp] theorem Dev.forcedTick_sync (d : Dev) :
    (d.onFrm (fun f => { f with forcedTicks := satInc 65535 f.forcedTicks })).sync = d.sync := rfl
@[simp] theorem Dev.repeatFrame_sync (d : Dev) :
    (d.onFrm (fun f => { f with repeatFrames := satInc 65535 f.repeatFrames })).sync = d.sync := rfl

@[simp] theorem Dev.setTable_sync (d : Dev) (cs : Frm → List Commit) :
    (d.onFrm (fun f => { f with commits := cs f })).sync = d.sync := rfl
@[simp] theorem Dev.setPulse_sync (d : Dev) (n : Nat) : (d.onFrm (fun f => { f with syncOut := n })).sync = d.sync := rfl

theorem OnlyReplies.sync {d d' : Dev} (h : OnlyReplies d d') : d'.sync = d.sync := by rw [h.dev]; rfl

theorem Dev.foldl_sync {α : Type} {f : Dev → α → Dev} (hf : ∀ d x, (f d x).sync = d.sync) (l : List α) (d : Dev) :
    (l.foldl f d).sync = d.sync :=
  List.foldlRecOn l f (motive := fun d' => d'.sync = d.sync) rfl (fun _ h x _ => (hf _ x).trans h)

/-! ### The parts before the targets are judged -/

theorem Dev.cutPass_sync (d : Dev) (p : Pass) : (d.cutPass p).sync = d.sync := by
  rw [Dev.cutPass, Dev.send_sync, Dev.raise_sync, Dev.countFail, Dev.onArr_sync, Dev.onTile_sync]

@[simp] theorem Dev.cutPasses_sync (d : Dev) : d.cutPasses.sync = d.sync :=
  (Dev.foldl_sync Dev.cutPass_sync _ _).trans (Dev.onArr_sync ..)

@[simp] theorem Dev.tickTemps_sync (d : Dev) (temps : List (BitVec 12)) : (d.tickTemps temps).sync = d.sync := by
  unfold Dev.tickTemps
  simp [apply_ite Dev.sync]

theorem State.tickCharge_sync (s : State) (periods : Nat) : (s.tickCharge periods).dev.sync = s.dev.sync :=
  Dev.foldl_sync (fun d _ => by simp [apply_ite Dev.sync]) s.dev.litTiles s.dev

theorem State.tickCopy_sync (s : State) : s.tickCopy.dev.sync = s.dev.sync := by
  simp [State.tickCopy]

@[simp] theorem Dev.tickBudget_sync (d : Dev) : d.tickBudget.sync = d.sync := by
  simp [Dev.tickBudget, apply_ite Dev.sync]

@[simp] theorem Dev.tickHeadroom_sync (d : Dev) : d.tickHeadroom.sync = d.sync :=
  (Dev.foldl_sync (fun d t => Dev.onTile_sync (d.send t 0x08 0 ((d.tile t).lowMv.getD 0)) t (fun x => { x with lowMv := none })) _ _).trans
    (Dev.onArr_sync ..)

@[simp] theorem Dev.tickForced_sync (d : Dev) (n : Nat) : (d.tickForced n).sync = d.sync := by
  simp [Dev.tickForced, apply_ite Dev.sync]

@[simp] theorem Dev.tickSlack_sync (d : Dev) : d.tickSlack.sync = d.sync := by
  unfold Dev.tickSlack
  split
  · split
    · rfl
    · exact Dev.raiseIf_sync ..
  · rfl

@[simp] theorem Dev.tickWitness_sync (d : Dev) (n : Nat) (whole trans pert : Bool) (periods : Nat) :
    (d.tickWitness n whole trans pert periods).sync = d.sync := by
  simp [Dev.tickWitness]

@[simp] theorem Dev.tickOthers_sync (d : Dev) (n : Nat) (first trans : Bool) : (d.tickOthers n first trans).sync = d.sync := by
  simp [Dev.tickOthers]

theorem State.tickRead_sync (s : State) (temps : List (BitVec 12)) : (s.tickRead temps).dev.sync = s.dev.sync := by
  simp [State.tickRead, apply_ite State.dev, apply_ite Dev.sync, State.tickCharge_sync]

theorem Dev.tickReport_sync (was : Dev) (pert : Bool) (d : Dev) : (was.tickReport pert d).sync = d.sync := by
  simp [Dev.tickReport, apply_ite Dev.sync]

theorem State.tickReported_sync (s : State) (temps : List (BitVec 12)) : (s.tickReported temps).sync = s.dev.sync := by
  rw [State.tickReported, Dev.tickReport_sync, State.tickCopy_sync, State.tickRead_sync]

/-! ### The targets of the tick -/

@[simp] theorem Dev.commitResult_sync (d : Dev) (isMode : Bool) (sent outcome reason now : Nat) :
    (d.commitResult isMode sent outcome reason now).sync = d.sync := (OnlyReplies.commitResult ..).sync

@[simp] theorem Dev.noteLate_sync (d : Dev) : d.noteLate.sync = d.sync := rfl

@[simp] theorem Dev.refuseCommit_sync (d : Dev) (isMode : Bool) (sent now reason : Nat) :
    (d.refuseCommit isMode sent now reason).sync = d.sync := Dev.commitResult_sync ..

theorem Dev.tickCommit_sync (d : Dev) (n : Nat) : (d.tickCommit n).1.sync = d.sync := by
  unfold Dev.tickCommit
  split
  · rfl
  · dsimp only
    split
    · exact Dev.setTable_sync ..
    · split <;> simp

theorem Dev.applyCommit_sync (d : Dev) (c : Commit) : (d.applyCommit c).sync = d.sync := by
  unfold Dev.applyCommit
  dsimp only
  split
  · rfl
  · exact Dev.foldl_sync (fun d _ => d.raise_sync 53) _ _

/-! ### The parts after the content of the new frame is known -/

@[simp] theorem Dev.busFreed_sync (d : Dev) : d.busFreed.sync = d.sync := by rw [d.busFreed_frame]; rfl

@[simp] theorem Dev.checkpointDone_sync (d : Dev) : d.checkpointDone.sync = d.sync := by
  simp [Dev.checkpointDone, apply_ite Dev.sync]

@[simp] theorem Dev.dropImage_sync (d : Dev) : d.dropImage.sync = d.sync := by
  simp [Dev.dropImage, apply_ite Dev.sync]

@[simp] theorem Dev.vc1Written_sync (d : Dev) : d.vc1Written.sync = d.sync := by
  simp [Dev.vc1Written, Dev.freeVc1, apply_ite Dev.sync]

@[simp] theorem Dev.tickDramLess_sync (d : Dev) : d.tickDramLess.sync = d.sync := by
  simp [Dev.tickDramLess, apply_ite Dev.sync]

@[simp] theorem Dev.tickStaging_sync (d : Dev) : d.tickStaging.sync = d.sync := by
  simp [Dev.tickStaging, apply_ite Dev.sync]

@[simp] theorem Dev.tickPointer_sync (d : Dev) (counts : Bool) (base : Nat) : (d.tickPointer counts base).sync = d.sync := by
  simp [Dev.tickPointer, apply_ite Dev.sync]

@[simp] theorem Dev.tickCompose_sync (d : Dev) (n dprev : Nat) : (d.tickCompose n dprev).sync = d.sync := rfl

@[simp] theorem Dev.reply_sync (d : Dev) (ty : Nat) (ws : List Nat) : (d.reply ty ws).sync = d.sync := (OnlyReplies.reply ..).sync

@[simp] theorem Dev.releases_sync (d was : Dev) : (d.releases was).sync = d.sync := (OnlyReplies.releases ..).sync

@[simp] theorem Dev.tickReplies_sync (d : Dev) (n periods : Nat) (whole : Bool) : (d.tickReplies n periods whole).sync = d.sync := by
  simp [Dev.tickReplies, apply_ite Dev.sync]

@[simp] theorem Dev.tickLevel_sync (d : Dev) : d.tickLevel.sync = d.sync := by
  unfold Dev.tickLevel
  split
  · split
    · rfl
    · split <;> simp
  · rfl

theorem Dev.tickFinish_sync (was : Dev) (dprev : Nat) (d : Dev) : (was.tickFinish dprev d).sync = d.sync := by
  simp [Dev.tickFinish]

@[simp] theorem Dev.leaveActive_sync (d : Dev) : d.leaveActive.sync = d.sync := by
  obtain ⟨ended, -, -⟩ := d.discardPending.endSession_frame
  obtain ⟨frm, -, discarded⟩ := d.discardPending_frame
  rw [Dev.leaveActive, Dev.raise_sync, ended, discarded, frm]
  rfl

@[simp] theorem Dev.linkDown_sync (d : Dev) : d.linkDown.sync = d.sync := by
  simp [Dev.linkDown, apply_ite Dev.sync]

theorem State.tickPark_sync (s : State) : s.tickPark.dev.sync = s.dev.sync := by
  simp [State.tickPark, apply_ite State.dev, apply_ite Dev.sync, Dev.abortPark, Dev.refuseReq]

theorem State.tickCore_sync (s : State) (temps : List (BitVec 12)) :
    (s.tickCore temps).dev.sync = (s.dev.tickBegin (s.tickReported temps)).sync := by
  rw [s.tickCore_eq temps, State.tickPark_sync, State.onDev_dev]
  exact Dev.tickFinish_sync ..

/-! ### The new frame of a follower that realigns (R102) -/

/-- A MODE command in effect changes the slot length only where it starts a transitional frame (R96). -/
theorem Dev.tickMode_sync (d : Dev) (n : Nat) : (d.tickMode n).1.sync = { d.sync with mode := (d.tickMode n).1.frm.mode } ∧
    ((d.tickMode n).2 = false → (d.tickMode n).1.slot = d.slot) := by
  unfold Dev.tickMode
  split
  next m _ =>
    split
    · exact ⟨rfl, fun _ => rfl⟩
    · split <;> dsimp only
      · exact ⟨rfl, fun same => not_not.mp (of_decide_eq_false same)⟩
      · generalize kept : d.noteLate.onFrm _ = e
        have same : (e.commitResult true m.sent 1 0 ((n + 1) % 2 ^ 32)).sync = d.sync := by
          rw [Dev.commitResult_sync, ← kept]
          rfl
        exact ⟨same.trans (congrArg (fun v => { d.sync with mode := v.mode }) same.symm), fun _ => Dev.slot_of_sync same⟩
  next => exact ⟨rfl, fun _ => rfl⟩

theorem Dev.tickTargets_sync (d : Dev) (n : Nat) :
    (d.tickTargets n).1.sync = { d.sync with mode := (d.tickTargets n).1.frm.mode } ∧
    ((d.tickTargets n).1.frm.transitional = false → (d.tickTargets n).1.slot = d.slot) := by
  obtain ⟨mode, slot⟩ := d.tickMode_sync n
  unfold Dev.tickTargets
  dsimp only
  generalize d.tickMode n = r at mode slot ⊢
  split
  next => exact ⟨mode, fun steady => Bool.noConfusion steady⟩
  next steady =>
    have commit := Dev.tickCommit_sync (r.1.onFrm (fun f => { f with transitional := false })) n
    generalize (r.1.onFrm (fun f => { f with transitional := false })).tickCommit n = c at commit ⊢
    have through {e : Dev} (kept : e.sync = c.1.sync) : e.sync = { d.sync with mode := e.frm.mode } ∧
        (e.frm.transitional = false → e.slot = d.slot) := by
      have same : e.sync = r.1.sync := kept.trans commit
      refine ⟨(same.trans mode).trans ?_, fun _ => (Dev.slot_of_sync same).trans (slot (Bool.not_eq_true _ ▸ steady))⟩
      exact congrArg (fun v => { d.sync with mode := v.mode }) same.symm
    split
    · exact through (Dev.applyCommit_sync ..)
    · exact through rfl

/-- By how much period 0 of the frame that starts moves a follower's boundaries. -/
def Dev.realignStep (d : Dev) : Int :=
  match d.frm.realign with
  | some k => if d.frm.transitional then 0 else max (-(d.realignLess : Int)) (min (d.realignMore : Int) k)
  | none => 0

theorem Dev.realignLess_le (d : Dev) : d.realignLess ≤ 260 * d.slot := by
  have least : Nat.min (d.slot / 4) (d.slot - 60) ≤ d.slot / 4 := Nat.min_le_left ..
  unfold Dev.realignLess
  omega

theorem Dev.realignMore_le (d : Dev) : d.realignMore ≤ 260 * d.slot := Nat.min_le_left ..

theorem Dev.realignStep_bounds {d : Dev} {len : Nat} (slot : d.frm.transitional = false → d.slot = len) :
    -(260 * len : Int) ≤ d.realignStep ∧ d.realignStep ≤ 260 * len := by
  unfold Dev.realignStep
  split
  next k _ =>
    split
    next => omega
    next steady =>
      have less := d.realignLess_le
      have more := d.realignMore_le
      rw [slot (Bool.not_eq_true _ ▸ steady)] at less more
      omega
  next => omega

theorem Dev.tickBegin_sync (was d : Dev) : (was.tickBegin d).frm.locked = d.frm.locked ∧
    (was.tickBegin d).frm.syncFault = d.frm.syncFault ∧
    (was.tickBegin d).frm.realign = d.frm.realign.map (· - (was.tickBegin d).frm.realignNow) ∧
    -(260 * d.slot : Int) ≤ (was.tickBegin d).frm.realignNow ∧ (was.tickBegin d).frm.realignNow ≤ 260 * d.slot := by
  unfold Dev.tickBegin
  dsimp only
  have others := d.tickOthers_sync was.nextTick (!was.frm.ticked) (was.frm.transitional || !was.frm.ticked)
  generalize d.tickOthers _ _ _ = e at others ⊢
  obtain ⟨targets, slot⟩ := e.tickTargets_sync was.nextTick
  generalize e.tickTargets was.nextTick = r at targets slot ⊢
  rw [others] at targets
  rw [Dev.slot_of_sync others] at slot
  have realign : r.1.frm.realign = d.frm.realign := congrArg SyncView.realign targets
  refine ⟨congrArg SyncView.locked targets, congrArg SyncView.fault targets, ?_,
    Dev.realignStep_bounds (d := (r.1.onChg _).onFrm (fun f => f.newFrame ..)) slot⟩
  rw [← realign]
  rfl

/-! ### The whole tick -/

theorem State.tickCore_realigns (s : State) (temps : List (BitVec 12)) {m : Int} (moving : s.dev.frm.realign = some m) :
    -(260 * s.dev.slot : Int) ≤ (s.tickCore temps).dev.frm.realignNow ∧
    (s.tickCore temps).dev.frm.realignNow ≤ 260 * s.dev.slot ∧
    (s.tickCore temps).dev.frm.realign = some (m - (s.tickCore temps).dev.frm.realignNow) := by
  have view := s.tickCore_sync temps
  have reported := s.tickReported_sync temps
  obtain ⟨-, -, realign, least, most⟩ := s.dev.tickBegin_sync (s.tickReported temps)
  rw [Dev.slot_of_sync reported] at least most
  have now : (s.tickCore temps).dev.frm.realignNow = _ := congrArg SyncView.realignNow view
  have left : (s.tickCore temps).dev.frm.realign = _ := congrArg SyncView.realign view
  have was : (s.tickReported temps).frm.realign = some m := (congrArg SyncView.realign reported).trans moving
  rw [was] at realign
  rw [now, left]
  exact ⟨least, most, realign⟩

theorem State.tickCore_lock (s : State) (temps : List (BitVec 12)) : (s.tickCore temps).dev.frm.locked = s.dev.frm.locked ∧
    (s.tickCore temps).dev.frm.syncFault = s.dev.frm.syncFault := by
  have view := s.tickCore_sync temps
  have reported := s.tickReported_sync temps
  obtain ⟨locked, fault, -⟩ := s.dev.tickBegin_sync (s.tickReported temps)
  exact ⟨((congrArg SyncView.locked view).trans locked).trans (congrArg SyncView.locked reported),
    ((congrArg SyncView.fault view).trans fault).trans (congrArg SyncView.fault reported)⟩

theorem Dev.cutPasses_pend (d : Dev) {k : Nat} (h : d.evt.pend.getLsbD k = true) : d.cutPasses.evt.pend.getLsbD k = true := by
  rw [d.cutPasses_eq]
  exact List.foldlRecOn d.arr.passes Dev.cutPass (motive := fun d' : Dev => d'.evt.pend.getLsbD k = true) h
    (fun _ pends _ _ => Evt.raise_keeps _ _ _ pends)

theorem State.tickCore_pend (s : State) (temps : List (BitVec 12)) {k : Nat} (h : s.dev.evt.pend.getLsbD k = true) :
    (s.tickCore temps).dev.evt.pend.getLsbD k = true :=
  (s.tickCore_array temps).pend k ((TickPart.tickRead s temps).array.pend k (s.dev.cutPasses_pend h))

/-! ## Edges and samples of SYNC_IN (R100 to R102) -/

theorem Dev.syncFault_eq (d : Dev) (fault : Nat) : d.syncFault fault = (d.onFrm (fun f => { f with
    locked := false, partnerReady := false, syncFault := fault, syncFaults := Nat.min 255 (f.syncFaults + 1), edges := 0, badEdges := 0
    goodEdges := 0, aligned := false, realign := none })).raise 69 := by
  simp only [Dev.syncFault, satInc_eq_min]

/-- The sample of a master whose own gates hold, before the limit. -/
theorem Dev.syncInSample_decides {d : Dev} (master : d.syncRole = 1) (locked : d.frm.locked = true)
    (await : d.frm.awaitSample = true) (jitter : d.test.jitter = 0) (cand : d.candidate = true) (before : d.frm.period < 23)
    (high : Bool) : d.syncInSample high = { d with frm := { d.frm with
      partnerReady := high, awaitSample := false, decision := if high then .tick else .none, syncOut := if high then 4 else 2 } } := by
  have pair : d.masterPair = true := by rw [Dev.masterPair, master, locked]; rfl
  have early : (d.frm.period == 23) = false := beq_eq_false_iff_ne.mpr (by omega)
  have role : (d.onFrm (fun f => { f with partnerReady := high })).syncRole = 1 := master
  cases high with
  | true => simp [Dev.syncInSample, pair, cand, await, Dev.allHold, jitter, role, Dev.decide_]; rfl
  | false => simp [Dev.syncInSample, pair, cand, await, early, role, Dev.decide_]; rfl

/-- A tick pulse in its place. -/
theorem Dev.followerEdge_tick {d : Dev} {spacing delay place : Nat} (inPlace : place ≤ 400) (even : d.spacingOk spacing = true)
    (may : d.mayTick = true) : d.followerEdge true spacing delay place =
      { d with frm := { d.frm with offset := Nat.min 255 delay, badEdges := 0, decision := .tick } } := by
  simp only [Dev.followerEdge, if_neg (Nat.not_lt.mpr inPlace)]
  have match_ : ¬ (!d.spacingOk spacing || (true && !d.mayTick)) = true := by
    rw [even, may]
    exact Bool.false_ne_true
  exact (if_neg (by decide : ¬ 0 = 2)).trans ((if_neg match_).trans (if_pos trivial))

/-- A pulse that is valid at a follower whose boundaries are not aligned yet. -/
theorem Dev.freeEdge_counts {d : Dev} {spacing : Nat} (pulse : Bool) (delay : Nat) (even : d.spacingOk spacing = true)
    (apart : d.frm.aligned = false) : d.freeEdge pulse spacing delay =
      { d with frm := { d.frm with goodEdges := Nat.min 16 (d.frm.goodEdges + 1) } } := by
  have valid : ¬ (!d.spacingOk spacing) = true := by
    rw [even]
    exact Bool.false_ne_true
  have stays : ¬ (d.frm.aligned && pulse && d.mayTick) = true := by
    rw [apart]
    exact Bool.false_ne_true
  exact (if_neg valid).trans (if_neg stays)

/-- What a follower has to move is nothing where its boundaries fall on the master's, and else as much later or the rest of a period
earlier. -/
theorem Dev.realignBy_cases (d : Dev) (offset : Nat) :
    (offset % (1040 * d.slot) = 0 ∧ d.realignBy offset = 0) ∨
    (offset % (1040 * d.slot) ≠ 0 ∧ d.realignBy offset ≠ 0 ∧
      (d.realignBy offset = (offset % (1040 * d.slot) : Nat) ∨
        d.realignBy offset = (offset % (1040 * d.slot) : Nat) - (1040 * d.slot : Nat))) := by
  have rest : d.slot = 0 ∨ offset % (1040 * d.slot) < 1040 * d.slot := by
    rcases Nat.eq_zero_or_pos d.slot with zero | pos
    · exact .inl zero
    · exact .inr (Nat.mod_lt _ (by omega))
  unfold Dev.realignBy
  generalize offset % (1040 * d.slot) = m at rest ⊢
  dsimp only
  split <;> omega

/-- A follower that has seen its 16 pulses begins to realign. -/
def Dev.beginRealign (d : Dev) (offset : Nat) : Dev :=
  d.onFrm (fun f => { f with
    aligned := d.realignBy offset == 0, realign := if d.realignBy offset = 0 then none else some (d.realignBy offset) })

end Sys2Proof.Machine

namespace Sys2Proof.Proofs

open Sys2Proof Sys2Proof.Machine Sys2Proof.Claims

section
variable {s : State} {h : Nat} (runs : s.timebaseRuns = true)
include runs

theorem exec_syncInEdge_short (sp delay off : Nat) (short : h < 8) : exec (.syncInEdge h sp delay off) s = .next s := by
  simp only [exec, execSyncInEdge, State.onDev, runs, decide_eq_true short, Bool.not_true, Bool.false_or, if_true]

theorem exec_syncInEdge_master (sp off : Nat) {delay : Nat} (long : 8 ≤ h) (master : s.dev.syncRole = 1) (soon : delay ≤ 400) :
    exec (.syncInEdge h sp delay off) s = .next (s.onDev (fun d => d.onFrm (fun f => { f with
      edges := Nat.min 2 (f.edges + 1), locked := f.locked || decide (1 ≤ f.edges) }))) := by
  have pulse : ¬ (!s.timebaseRuns || decide (h < 8)) = true := by simp [runs, long]
  simp only [exec, execSyncInEdge, State.onDev, if_neg pulse, master, if_true, if_pos soon]

theorem exec_syncInEdge_follower (sp delay off : Nat) (long : 8 ≤ h) (follower : s.dev.syncRole = 2) :
    exec (.syncInEdge h sp delay off) s = .next (s.onDev (fun d =>
      if d.frm.locked then d.followerEdge (decide (3 * d.slotNow ≤ h)) sp delay off
      else d.freeEdge (decide (3 * d.slotNow ≤ h)) sp delay)) := by
  have pulse : ¬ (!s.timebaseRuns || decide (h < 8)) = true := by simp [runs, long]
  have other : ¬ s.dev.syncRole = 1 := by omega
  simp only [exec, execSyncInEdge, State.onDev, if_neg pulse, if_neg other, if_pos follower]

theorem exec_fallingEdgeMissing_master (master : s.dev.syncRole = 1) (locked : s.dev.frm.locked = true) :
    exec .fallingEdgeMissing s = .next (s.onDev (fun d => d.syncFault 1)) := by
  simp only [exec, execFallingEdgeMissing, State.onDev, runs, master, locked, Bool.not_true, Bool.false_eq_true, if_false, if_true]

end

theorem exec_syncInSample {s : State} (run : s.running = true) (high : Bool) :
    exec (.syncInSample high) s = .next (s.onDev (fun d => d.syncInSample high)) := congrArg Host.Outcome.next (if_pos run)

theorem exec_syncRealign {s : State} (run : s.running = true) (follower : s.dev.syncRole = 2) (free : s.dev.frm.locked = false)
    (valid : s.dev.frm.goodEdges = 16) (still : s.dev.frm.realign = none) (apart : s.dev.frm.aligned = false) (off : Nat) :
    exec (.syncRealign off) s = .next (s.onDev (fun d => d.beginRealign off)) := by
  have begins : (s.running && s.dev.syncRole == 2 && !s.dev.frm.locked && s.dev.frm.goodEdges == 16 && s.dev.frm.realign.isNone &&
      !s.dev.frm.aligned) = true := by
    rw [run, follower, free, valid, still, apart]
    rfl
  exact congrArg (fun d => Host.Outcome.next { s with dev := d }) (if_pos begins)

/-- A locked follower that no tick pulse has reached by the limit loses its lock before the tick (R102). -/
theorem limitState_follower {s : State} (follower : s.dev.syncRole = 2) (locked : s.dev.frm.locked = true)
    (limit : s.dev.frm.decision = .limit) : limitState s = s.onDev (fun d => d.syncFault 1) := by
  have loses : (s.dev.lockedFollower && s.dev.frm.decision == .limit) = true := by
    rw [Dev.lockedFollower, follower, locked, limit]
    rfl
  exact congrArg (fun d => { s with dev := d }) (if_pos loses)

/-- Settles O37: each event of SYNC_IN is one change of the frame timing, and the parts of a tick other than its period 0 keep the lock
and what is left to realign. -/
theorem syncPairEvents : Obligations.SyncPairEvents := by
  refine fun s runs => ⟨fun run master locked await jitter base before high => ?_, fun h sp delay off short => ?_,
    fun master h sp delay off long soon => ?_, fun master locked => ?_,
    fun follower locked base most h sp delay off long pulse place even => ?_,
    fun run follower locked limit last temps => ?_, fun run follower free valid still apart off => ?_,
    fun follower free h sp delay off long even apart => ?_, fun m run moving decided temps => ?_⟩
  · exact ⟨_, exec_syncInSample run high, ⟨rfl, rfl, rfl, rfl, rfl⟩,
      Dev.syncInSample_decides master locked await jitter (Dev.candidate_of_base base (by omega)) before high⟩
  · exact exec_syncInEdge_short runs sp delay off short
  · exact ⟨_, exec_syncInEdge_master runs sp off long master soon, ⟨rfl, rfl, rfl, rfl, rfl⟩, rfl⟩
  · refine ⟨_, exec_fallingEdgeMissing_master runs master locked, ⟨rfl, rfl, rfl, rfl, rfl⟩, raises_one rfl rfl, ?_⟩
    rw [State.onDev_dev, Dev.syncFault_eq]
    exact ⟨rfl, rfl, rfl, rfl, rfl⟩
  · refine ⟨_, exec_syncInEdge_follower runs sp delay off long follower, ⟨rfl, rfl, rfl, rfl, rfl⟩, ?_⟩
    rw [State.onDev_dev, if_pos locked, decide_eq_true pulse]
    exact Dev.followerEdge_tick place even (Dev.candidate_of_base base most)
  · have decided : s.dev.frm.decision ≠ .none := by rw [limit]; nofun
    refine ⟨_, exec_limitTick s temps run decided last, ?_⟩
    rw [limitState_follower follower locked limit]
    obtain ⟨unlocked, fault⟩ := (s.onDev (fun d => d.syncFault 1)).tickCore_lock temps
    exact ⟨unlocked, fault, State.tickCore_pend _ temps (Evt.raise_self _ 69 rfl)⟩
  · refine ⟨_, exec_syncRealign run follower free valid still apart off, ⟨rfl, rfl, rfl, rfl, rfl⟩, ?_⟩
    rw [State.onDev_dev, Dev.beginRealign]
    rcases s.dev.realignBy_cases off with ⟨zero, none_⟩ | ⟨nonzero, some_, by_⟩
    · refine ⟨fun _ => ?_, fun nonzero => absurd zero nonzero⟩
      rw [none_, if_pos rfl, ← still]
      rfl
    · refine ⟨fun zero => absurd zero nonzero, fun _ => ⟨s.dev.realignBy off, ?_, by exact_mod_cast by_⟩⟩
      rw [if_neg some_, beq_false_of_ne some_, ← apart]
      rfl
  · refine ⟨_, exec_syncInEdge_follower runs sp delay off long follower, ⟨rfl, rfl, rfl, rfl, rfl⟩, ?_⟩
    rw [State.onDev_dev, free]
    exact Dev.freeEdge_counts _ delay even apart
  · exact ⟨_, exec_tick s temps run decided, s.tickCore_realigns temps moving⟩

end Sys2Proof.Proofs

/-! ## COMPOSE adds its batches (R105, R160, R163, R174) -/

namespace Sys2Proof.Machine

/-- What composition keeps of a frame while it reads and closes: the frame timing and the batches composed. -/
structure BatchesKept (d d' : Dev) : Prop where
  frm : d'.frm = d.frm
  batches : d'.comp.batches = d.comp.batches

namespace BatchesKept

theorem refl (d : Dev) : BatchesKept d d := ⟨rfl, rfl⟩

theorem trans {a b c : Dev} (h : BatchesKept a b) (h' : BatchesKept b c) : BatchesKept a c :=
  ⟨h'.frm.trans h.frm, h'.batches.trans h.batches⟩

theorem foldl {α : Type} {f : Dev → α → Dev} (hf : ∀ d x, BatchesKept d (f d x)) (l : List α) (d : Dev) :
    BatchesKept d (l.foldl f d) :=
  List.foldlRecOn l f (motive := fun d' => BatchesKept d d') (refl d) (fun _ h x _ => h.trans (hf _ x))

theorem ite {d a b : Dev} {c : Prop} [Decidable c] (h : BatchesKept d a) (h' : BatchesKept d b) :
    BatchesKept d (if c then a else b) := by
  split
  · exact h
  · exact h'

theorem raise (d : Dev) (n : Nat) : BatchesKept d (d.raise n) := ⟨rfl, rfl⟩

theorem raiseIf (d : Dev) (c : Bool) (n : Nat) : BatchesKept d (d.raiseIf c n) := .ite (.raise d n) (.refl d)

theorem send (d : Dev) (source kind sev addr : Nat) : BatchesKept d (d.send source kind sev addr) := ⟨rfl, rfl⟩

theorem onMemc (d : Dev) (f : Memc → Memc) : BatchesKept d (d.onMemc f) := ⟨rfl, rfl⟩

/-! ### Reads of layer memory (R250, R256, R257) -/

theorem uncorrectable (d : Dev) (a : Nat) : BatchesKept d (d.uncorrectable a) := ⟨rfl, rfl⟩

theorem correctedErrors (d : Dev) (n : Nat) : BatchesKept d (d.correctedErrors n) :=
  have counted := (onMemc d _).trans (raiseIf _ _ 41)
  .ite (counted.trans (.onMemc _ _)) counted

theorem countReads (d : Dev) (total n : Nat) : BatchesKept d (d.countReads total n) := .ite (.refl d) (.onMemc d _)

theorem entryReads (d : Dev) (total n : Nat) (poison corrected : List Nat) :
    BatchesKept d (d.entryReads total n poison corrected) :=
  ((countReads d total n).trans (.ite (.refl _) (.correctedErrors _ _))).trans (.foldl uncorrectable poison _)

/-! ### The begin and the end of a frame's composition (R70 to R75, R146) -/

theorem enterDip (d : Dev) : BatchesKept d d.enterDip := .ite ⟨rfl, rfl⟩ ⟨rfl, rfl⟩

theorem closeRow (d : Dev) (ty : Nat) : BatchesKept d (d.closeRow ty) := ⟨rfl, rfl⟩

theorem frameComposed (d : Dev) : BatchesKept d d.frameComposed := by
  refine .trans ?_ ((((raiseIf _ _ 72).trans (.raiseIf _ _ 73)).trans (.raiseIf _ _ 54)).trans (.raiseIf _ _ 55))
  exact ⟨rfl, rfl⟩

end BatchesKept

/-! ### Batches (R105) -/

theorem State.foldl_quad_batches (s : State) (po quads : List Nat) (acc : SMap (BitVec 16) × Comp) :
    (quads.foldl (s.quad po) acc).2.batches = acc.2.batches := by
  refine List.foldlRecOn quads (s.quad po) (motive := fun r => r.2.batches = acc.2.batches) rfl ?_
  exact fun _ h _ _ => h

theorem State.batch_batches (s : State) (po : List Nat) (b : Nat) :
    (s.batch po b).dev.comp.batches = s.dev.comp.batches ||| (1#88 <<< b) :=
  congrArg (· ||| (1#88 <<< b)) (s.foldl_quad_batches po (batchQuads b) (s.dev.eng.bbuf, s.dev.comp))

theorem State.batch_frm (s : State) (po : List Nat) (b : Nat) : (s.batch po b).dev.frm = s.dev.frm := by
  rw [State.batch, State.onDev_dev, Dev.onComp_frm, Dev.onEng_frm]

theorem State.batch_store {s t : State} (h : Claims.SameStore s t) (po : List Nat) (b : Nat) : Claims.SameStore s (t.batch po b) := by
  obtain ⟨pending, otp, mem, cells, lat⟩ := h
  exact ⟨(State.onDev_pending ..).trans pending, (State.onDev_otp ..).trans otp, (State.onDev_mem ..).trans mem,
    (State.onDev_cells ..).trans cells, (State.onDev_lat ..).trans lat⟩

theorem getLsbD_batchBit {b k : Nat} (lt : k < 88) : (1#88 <<< b).getLsbD k = decide (k = b) := by
  rw [BitVec.getLsbD_shiftLeft, BitVec.getLsbD_one]
  simp only [lt]
  by_cases below : k < b
  · simp [below]; omega
  · simp [below]; omega

/-- From `s` to `t` batches `b0` to `b0 + n − 1` are composed: the stores and the frame timing stay. -/
structure BatchesAdded (b0 n : Nat) (s t : State) : Prop where
  store : Claims.SameStore s t
  frm : t.dev.frm = s.dev.frm
  batches : ∀ b, b < 88 →
    t.dev.comp.batches.getLsbD b = (s.dev.comp.batches.getLsbD b || (decide (b0 ≤ b) && decide (b < b0 + n)))

namespace BatchesAdded

theorem none (s : State) (b0 : Nat) : BatchesAdded b0 0 s s where
  store := ⟨rfl, rfl, rfl, rfl, rfl⟩
  frm := rfl
  batches b _ := by
    have empty : (decide (b0 ≤ b) && decide (b < b0 + 0)) = false := by simp
    rw [empty, Bool.or_false]

/-- One more batch. -/
theorem batch {s t : State} {b0 n : Nat} (h : BatchesAdded b0 n s t) (po : List Nat) :
    BatchesAdded b0 (n + 1) s (t.batch po (b0 + n)) where
  store := State.batch_store h.store po _
  frm := (t.batch_frm po _).trans h.frm
  batches b lt := by
    rw [State.batch_batches, BitVec.getLsbD_or, h.batches b lt, getLsbD_batchBit lt, Bool.or_assoc]
    congr 1
    rw [Bool.eq_iff_iff]
    simp only [Bool.or_eq_true, Bool.and_eq_true, decide_eq_true_eq]
    omega

theorem foldl_batch (s : State) (po : List Nat) (b0 : Nat) : ∀ n,
    BatchesAdded b0 n s ((List.range n).foldl (fun s i => s.batch po (b0 + i)) s)
  | 0 => none s b0
  | n + 1 => by
    rw [List.range_succ, List.foldl_append]
    exact (foldl_batch s po b0 n).batch po

/-- Work before the batches that keeps them. -/
theorem after {s t : State} {b0 n : Nat} {f : Dev → Dev} (keeps : BatchesKept s.dev (f s.dev))
    (h : BatchesAdded b0 n (s.onDev f) t) : BatchesAdded b0 n s t where
  store := h.store
  frm := h.frm.trans keeps.frm
  batches b lt := by rw [h.batches b lt, State.onDev_dev, keeps.batches]

/-- Work after the batches that keeps them. -/
theorem onDev {s t : State} {b0 n : Nat} {f : Dev → Dev} (h : BatchesAdded b0 n s t) (keeps : BatchesKept t.dev (f t.dev)) :
    BatchesAdded b0 n s (t.onDev f) where
  store := h.store
  frm := keeps.frm.trans h.frm
  batches b lt := by rw [State.onDev_dev, keeps.batches, h.batches b lt]

/-- The engine reads, adds its batches, and closes the rows and the frame that they complete. -/
theorem composeBatches (s : State) (b0 n : Nat) (po co fetched : List Nat) :
    BatchesAdded b0 n s (s.composeBatches b0 n po co fetched) := by
  have rows := BatchesKept.foldl BatchesKept.closeRow
  unfold State.composeBatches
  refine .onDev (.after ?_ (foldl_batch _ _ b0 n)) ?_
  · exact (BatchesKept.ite (.enterDip _) (.refl _)).trans (.entryReads ..)
  · exact .ite (((BatchesKept.onMemc _ _).trans (rows _ _)).trans (.frameComposed _)) ((BatchesKept.onMemc _ _).trans (rows _ _))

end BatchesAdded

/-! ### Entries that wait (R163) -/

theorem State.entryReady_spec {s : State} {i act : Nat} (ready : s.entryReady i act = true) :
    (s.dev.entry i).act = act ∧ s.dev.inMode i = true ∧ (s.dev.entry i).start ≤ s.dev.sinceTick ∧ s.dev.predsDone i = true := by
  simp only [State.entryReady, Bool.and_eq_true, beq_iff_eq, decide_eq_true_eq] at ready
  obtain ⟨⟨⟨⟨⟨⟨-, mode⟩, kind⟩, -⟩, start⟩, preds⟩, -⟩ := ready
  exact ⟨kind, mode, start, preds⟩

theorem Dev.mem_entriesOf {d : Dev} {p : Nat → Bool} {j : Nat} :
    j ∈ d.entriesOf p ↔ d.inMode j = true ∧ p (d.entry j).act = true := by
  simp only [Dev.entriesOf, Dev.inMode, List.mem_filter, List.mem_map, List.mem_range, Bool.and_eq_true, decide_eq_true_eq]
  refine and_congr_left fun _ => ⟨?_, fun ⟨first, last⟩ => ⟨j - d.modeFirst d.frm.mode, by omega, by omega⟩⟩
  rintro ⟨k, lt, rfl⟩
  omega

/-- The entries of a mode stand in order. -/
theorem Dev.entriesOf_sorted (d : Dev) (p : Nat → Bool) : (d.entriesOf p).Pairwise (· ≤ ·) := by
  refine List.Pairwise.filter _ (List.Pairwise.map _ (fun a b h => ?_) List.pairwise_le_range)
  exact Nat.add_le_add_left h _

/-- The entry before `i` of an activity is the last of those that stand before it. -/
theorem Dev.lastEntryBefore {d : Dev} {p : Nat → Bool} {i j : Nat} (before : j < i) (mode : d.inMode j = true)
    (kind : p (d.entry j).act = true) (last : ∀ k, j < k → k < i → p (d.entry k).act = false) :
    ((d.entriesOf p).filter (fun k => decide (k < i))).getLast? = some j := by
  have mem : j ∈ (d.entriesOf p).filter (fun k => decide (k < i)) :=
    List.mem_filter.mpr ⟨Dev.mem_entriesOf.mpr ⟨mode, kind⟩, decide_eq_true before⟩
  have above := ((d.entriesOf_sorted p).filter (fun k => decide (k < i))).rel_getLast mem
  obtain ⟨own, lt⟩ := List.mem_filter.mp (List.getLast_mem (List.ne_nil_of_mem mem))
  obtain ⟨-, other⟩ := Dev.mem_entriesOf.mp own
  rw [List.getLast?_eq_some_getLast (List.ne_nil_of_mem mem), Option.some.injEq]
  refine Nat.le_antisymm (Nat.le_of_not_lt fun after => ?_) above
  exact Bool.noConfusion (other.symm.trans (last _ after (of_decide_eq_true lt)))

/-- A COMPOSE entry waits for the one before it. -/
theorem Dev.predsDone_compose {d : Dev} {i j : Nat} (kind : (d.entry i).act = 1) (before : j < i) (mode : d.inMode j = true)
    (own : (d.entry j).act = 1) (last : ∀ k, j < k → k < i → (d.entry k).act ≠ 1) : d.predsDone i = d.entryDone j 0 := by
  have found := Dev.lastEntryBefore (p := fun a => a == 1) before mode (beq_iff_eq.mpr own)
    (fun k after lt => beq_false_of_ne (last k after lt))
  simp only [Dev.predsDone, if_pos kind, found]

theorem State.completed_of_entryDone {s : State} {j : Nat} (done : s.dev.entryDone j 0 = true) :
    Claims.Completed s j s.dev.sinceTick := by
  obtain ⟨⟨k, fin⟩, mem, own⟩ := List.any_eq_true.mp done
  cases fin with
  | none => simp at own
  | some c =>
    simp only [Bool.and_eq_true, beq_iff_eq, decide_eq_true_eq, Nat.add_zero] at own
    obtain ⟨rfl, past⟩ := own
    exact ⟨c, mem, past⟩

end Sys2Proof.Machine

namespace Sys2Proof.Proofs

open Sys2Proof Sys2Proof.Machine Sys2Proof.Claims

section
variable {s : State} {doneAt : Nat} {po co fetched : List Nat}

theorem exec_compose_entry {i : Nat} (may : MayBegin s i 1) (own : s.dev.frm.suspended = false)
    (next : s.dev.mayCompose (bits (s.dev.entry i).operand 0 7) (bits (s.dev.entry i).operand 8 7) = true) :
    exec (.compose (.entry i) doneAt po co fetched) s =
      .next ((s.composeBatches (bits (s.dev.entry i).operand 0 7) (bits (s.dev.entry i).operand 8 7) po co fetched).onDev
        (fun d => d.begin i (some doneAt))) := by
  have goes : (s.entryReady i 1 && s.dev.tableRuns &&
      s.dev.mayCompose (bits (s.dev.entry i).operand 0 7) (bits (s.dev.entry i).operand 8 7)) = true := by
    rw [entryReady_of_mayBegin may (by decide), next, Dev.tableRuns, own]
    rfl
  exact congrArg Host.Outcome.next (if_pos goes)

theorem exec_compose_waits {i : Nat} (waits : ¬ s.entryReady i 1 = true) :
    exec (.compose (.entry i) doneAt po co fetched) s = .next s := by
  have stays : ¬ (s.entryReady i 1 && s.dev.tableRuns &&
      s.dev.mayCompose (bits (s.dev.entry i).operand 0 7) (bits (s.dev.entry i).operand 8 7)) = true := by
    rw [Bool.and_eq_true, Bool.and_eq_true]
    exact fun h => waits h.1.1
  exact congrArg Host.Outcome.next (if_neg stays)

theorem exec_compose_rebuild {b0 n : Nat} (run : s.running = true) (rebuilding : s.dev.chg.rebuilding = true)
    (next : s.dev.mayCompose b0 n = true) :
    exec (.compose (.rebuild b0 n) doneAt po co fetched) s = .next (s.composeBatches b0 n po co fetched) := by
  have goes : (s.running && s.dev.chg.rebuilding && s.dev.mayCompose b0 n) = true := by
    rw [run, rebuilding, next]
    rfl
  exact congrArg Host.Outcome.next (if_pos goes)

end

/-- Settles O41: the batches are a run of single ones, each adding its own, and what stands before and after them keeps the batches and
the frame timing; an entry is ready once its START has come and the last COMPOSE entry before it is done. -/
theorem composeAddsBatches : Obligations.ComposeAddsBatches := by
  refine fun s doneAt po co fetched => ⟨fun i may own next => ?_, fun i early => ?_, fun i j before mode kind last waits => ?_,
    fun b0 n run rebuilding next => ?_⟩
  · have added := BatchesAdded.composeBatches s (bits (s.dev.entry i).operand 0 7) (bits (s.dev.entry i).operand 8 7) po co fetched
    refine ⟨_, exec_compose_entry may own next, added.store, begun_begin _ i (some doneAt), added.batches, ?_⟩
    rw [State.onDev_dev, Dev.begin, Dev.onFrm_frm, added.frm]
  · refine exec_compose_waits fun ready => ?_
    obtain ⟨-, -, start, -⟩ := State.entryReady_spec ready
    exact Nat.not_le.mpr early start
  · refine exec_compose_waits fun ready => ?_
    obtain ⟨act, -, -, preds⟩ := State.entryReady_spec ready
    rw [Dev.predsDone_compose act before mode kind last] at preds
    exact waits (State.completed_of_entryDone preds)
  · have added := BatchesAdded.composeBatches s b0 n po co fetched
    exact ⟨_, exec_compose_rebuild run rebuilding next, added.store, added.batches, added.frm⟩

end Sys2Proof.Proofs

/-! ## Packets are staged or refused (R14, R109, R117, R138, R139, R150, R151, R226, R437) -/

namespace Sys2Proof.Machine

theorem State.onPacket_on {s : State} (on : s.dev.contentOn = true) (f : Dev → Dev) : s.onPacket f = s.onDev f := by
  rw [State.onPacket, State.onDev, if_pos on]
  rfl

theorem State.onPacket_off {s : State} (off : s.dev.contentOn = false) (f : Dev → Dev) : s.onPacket f = s := by
  rw [State.onPacket, State.onDev, off]
  rfl

theorem Dev.fairwayOn_of_contentOn {d : Dev} (on : d.contentOn = true) : d.fairwayOn = true := by
  simp only [Dev.contentOn, Dev.rxOn, Bool.and_eq_true] at on
  exact on.1.1

theorem bits_of_lt {n w : Nat} (lt : n < 2 ^ w) : bits n 0 w = n := by
  rw [bits, pow_zero, Nat.div_one, Nat.mod_eq_of_lt lt]

theorem bits_above {n lo : Nat} (lt : n < 2 ^ lo) (w : Nat) : bits n lo w = 0 := by
  rw [bits, Nat.div_eq_of_lt lt, Nat.zero_mod]

/-! ### Replies while LRX runs (R17, R234, R237) -/

theorem OnlyReplies.fairwayOn {d d' : Dev} (h : OnlyReplies d d') : d'.fairwayOn = d.fairwayOn := by
  rw [h.dev]
  rfl

/-- While LRX runs no reply waits for its clock. -/
theorem Dev.reply_crossing {d : Dev} (on : d.fairwayOn = true) (ty : Nat) (ws : List Nat) :
    (d.reply ty ws).fw.crossing = d.fw.crossing := by
  rcases d.reply_cases ty ws with ⟨-, queued⟩ | ⟨off, -⟩
  · rw [queued]
    rcases d.queueReply_cases (packet ty (ws.flatMap word32)) with ⟨-, joins⟩ | ⟨-, drops⟩
    · rw [joins]
      rfl
    · rw [drops]
      rfl
  · exact Bool.noConfusion (on.symm.trans off)

theorem Dev.releases_crossing {d : Dev} (on : d.fairwayOn = true) (was : Dev) :
    (d.releases was).fw.crossing = d.fw.crossing := by
  unfold Dev.releases
  refine (List.foldlRecOn (motive := fun d' : Dev => d'.fairwayOn = true ∧ d'.fw.crossing = d.fw.crossing) _ _ ⟨on, rfl⟩ ?_).2
  exact fun d' ⟨on', same⟩ b _ => ⟨(OnlyReplies.reply d' 0x86 [b]).fairwayOn.trans on', (Dev.reply_crossing on' ..).trans same⟩

theorem OnlyReplies.eng {d d' : Dev} {f : Eng → Eng} (h : OnlyReplies (d.onEng f) d') : d'.eng = f d.eng := by
  rw [h.dev]
  rfl

theorem OnlyReplies.onEng {d d' : Dev} {f : Eng → Eng} (h : OnlyReplies (d.onEng f) d') :
    d' = { d with eng := d'.eng, fw := d'.fw, evt := d'.evt } := by
  rw [h.eng]
  exact h.dev

/-! ### Refusals (R226, R237) -/

theorem OnlyReplies.raise (d : Dev) (n : Nat) : OnlyReplies d (d.raise n) := ⟨rfl, rfl, Evt.raise_keeps d.evt n⟩

/-- A refusal raises its event and queues REJECT. -/
theorem OnlyReplies.refusal (d : Dev) (n ty reason idx : Nat) : OnlyReplies d ((d.raise n).reject ty reason idx) :=
  (raise d n).trans (reject ..)

theorem Dev.refusal_pends (d : Dev) {n : Nat} (own : reservedEvent n = false) (ty reason idx : Nat) :
    ((d.raise n).reject ty reason idx).evt.pend.getLsbD n = true :=
  (OnlyReplies.reject (d.raise n) ty reason idx).keeps n (Evt.raise_self d.evt n own)

theorem Dev.malformed_frame (d : Dev) (ty : Nat) :
    (d.malformed ty).evt.pend.getLsbD 36 = true ∧ (d.malformed ty).fw.malformed = Nat.min 65535 (d.fw.malformed + 1) ∧
    d.malformed ty = { d with fw := (d.malformed ty).fw, evt := (d.malformed ty).evt } := by
  have replies : OnlyReplies (d.onFw _) (d.malformed ty) := OnlyReplies.refusal ..
  refine ⟨Dev.refusal_pends _ rfl .., ?_, replies.dev⟩
  rw [replies.fw]
  exact satInc_eq_min ..

/-! ### LAYER (R109, R117) -/

/-- A descriptor is staged in slot `n`. -/
def Eng.stageLayer (n : Nat) (w : List Nat) (e : Eng) : Eng := { e with slots := updNth e.slots n (fun x => { x with staged := some w }) }

/-- A descriptor of slot `n` is refused for `reason`. -/
def Eng.refuseLayer (n reason : Nat) (e : Eng) : Eng :=
  { e with rejects := Nat.min 65535 (e.rejects + 1), rejectSlot := n, rejectReason := reason }

section
variable {d : Dev} {body : Bytes} {n : Nat}

theorem Dev.layerPacket_malformed (len : body.length ≠ 36) : d.layerPacket body = d.malformed 1 := if_pos (.inl len)

variable (len : body.length = 36) (first : wordAt body 0 = n) (range : n < 16)
include len first range

theorem Dev.layerPacket_staged (good : d.layerReason n (bodyWords body 1 8) = 0) :
    d.layerPacket body = (d.onEng (Eng.stageLayer n (bodyWords body 1 8))).releases d := by
  have fits : ¬ (body.length ≠ 36 ∨ 16 ≤ n) := by omega
  simp only [Dev.layerPacket, first, bits_of_lt (w := 4) range, if_neg fits, good, ne_eq, not_true_eq_false, if_false]
  rfl

/-- Refusals for the bounds have a counter of their own in the frame timing. -/
theorem Dev.layerPacket_refused {r : Nat} (bad : d.layerReason n (bodyWords body 1 8) = r) (reason : r ≠ 0) :
    d.layerPacket body = (((d.onEng (Eng.refuseLayer n r)).onFrm (fun f => { f with
      limitReject := satAdd 65535 f.limitReject (b1 (r == 9)) })).raise 52).reject 1 r n := by
  have fits : ¬ (body.length ≠ 36 ∨ 16 ≤ n) := by omega
  simp only [Dev.layerPacket, first, bits_of_lt (w := 4) range, if_neg fits, bad, if_pos reason, satInc_eq_min]
  rfl

end

/-! ### Sets of sectors and of symbols (R137 to R139, R150, R151) -/

/-- A body of `count` items of `size` bytes behind a header that names their count and nothing else. -/
structure SetBody (body : Bytes) (size count : Nat) : Prop where
  len : body.length = 16 + size * count
  first : wordAt body 0 = count
  second : wordAt body 1 = 0
  third : wordAt body 2 = 0
  fourth : wordAt body 3 = 0

namespace SetBody
variable {body : Bytes} {size count w : Nat} (h : SetBody body size count)
include h

theorem whole : ¬ (body.length < 16 ∨ body.length ≠ 16 + size * count) := by
  have len := h.len
  omega

variable (lt : count < 2 ^ w)
include lt

theorem count_eq : bits (wordAt body 0) 0 w = count := by rw [h.first, bits_of_lt lt]

theorem clear (v : Nat) : ¬ (bits (wordAt body 0) w v ≠ 0 ∨ wordAt body 1 ≠ 0 ∨ wordAt body 2 ≠ 0 ∨ wordAt body 3 ≠ 0) := by
  rw [h.first, bits_above lt, h.second, h.third, h.fourth]
  simp

end SetBody

/-- The items of a set, of `m` words each: boxes of 4 and symbols of 14. -/
def itemsOf (body : Bytes) (m count : Nat) : List (List Nat) := (List.range count).map (fun i => bodyWords body (4 + m * i) m)

theorem length_itemsOf (body : Bytes) (m count : Nat) : (itemsOf body m count).length = count := by simp [itemsOf]

theorem firstIdx_itemsOf_none {p : List Nat → Bool} {body : Bytes} {m count : Nat}
    (good : ∀ i, i < count → p (bodyWords body (4 + m * i) m) = false) : firstIdx p (itemsOf body m count) = none := by
  refine List.findIdx?_eq_none_iff.mpr fun x mem => ?_
  obtain ⟨i, lt, rfl⟩ := List.mem_map.mp mem
  exact good i (List.mem_range.mp lt)

theorem firstIdx_itemsOf_some {p : List Nat → Bool} {body : Bytes} {m count i : Nat} (inside : i < count)
    (bad : p (bodyWords body (4 + m * i) m) = true) (first : ∀ j, j < i → p (bodyWords body (4 + m * j) m) = false) :
    firstIdx p (itemsOf body m count) = some i := by
  refine List.findIdx?_eq_some_iff_getElem.mpr ⟨(length_itemsOf body m count).symm ▸ inside, ?_, fun j before => ?_⟩
  · simpa [itemsOf] using bad
  · simpa [itemsOf] using first j before

/-- A sector set is staged, less what the limit drops. -/
def Dev.stageSectors (d : Dev) (boxes : List (List Nat)) : Eng → Eng := fun e => { e with
  sectStaged := some { boxes := boxes.take d.nSect }
  sectDropped := satAdd 65535 e.sectDropped (boxes.length - (boxes.take d.nSect).length) }

theorem Dev.sectorPacket_good {d : Dev} {body : Bytes} {count : Nat} (h : SetBody body 16 count) (lt : count < 128)
    (good : ∀ i, i < count → boxBad (bodyWords body (4 + 4 * i) 4) = false) :
    d.sectorPacket body = (d.onEng (d.stageSectors (itemsOf body 4 count))).raiseIf (decide (d.nSect < count)) 58 := by
  have clean := firstIdx_itemsOf_none good
  have drops : (count - ((itemsOf body 4 count).take d.nSect).length != 0) = decide (d.nSect < count) := by
    rw [List.length_take, length_itemsOf, Bool.eq_iff_iff, bne_iff_ne, decide_eq_true_eq]
    omega
  unfold Dev.stageSectors
  rw [length_itemsOf]
  unfold itemsOf at clean drops ⊢
  simp only [Dev.sectorPacket, if_neg h.whole, if_neg (h.clear (w := 7) lt 25), h.count_eq (w := 7) lt, clean, drops]

theorem Dev.sectorPacket_bad {d : Dev} {body : Bytes} {count i : Nat} (h : SetBody body 16 count) (lt : count < 128) (inside : i < count)
    (bad : boxBad (bodyWords body (4 + 4 * i) 4) = true)
    (first : ∀ j, j < i → boxBad (bodyWords body (4 + 4 * j) 4) = false) :
    d.sectorPacket body = d.refuseSectors 1 i (bits (dw (nth [] (itemsOf body 4 count) i) 2) 24 8) := by
  have found := firstIdx_itemsOf_some inside bad first
  unfold itemsOf at found ⊢
  simp only [Dev.sectorPacket, if_neg h.whole, if_neg (h.clear (w := 7) lt 25), h.count_eq (w := 7) lt, found]

theorem Dev.refuseSectors_frame (d : Dev) (reason box id : Nat) :
    (d.refuseSectors reason box id).evt.pend.getLsbD 57 = true ∧
    (d.refuseSectors reason box id).eng = { d.eng with
      sectRefused := Nat.min 65535 (d.eng.sectRefused + 1), sectReason := reason, sectBox := box, sectId := id } ∧
    d.refuseSectors reason box id = { d with
      eng := (d.refuseSectors reason box id).eng, fw := (d.refuseSectors reason box id).fw
      evt := (d.refuseSectors reason box id).evt } := by
  have replies : OnlyReplies (d.onEng _) (d.refuseSectors reason box id) := OnlyReplies.refusal ..
  refine ⟨Dev.refusal_pends _ rfl .., ?_, replies.onEng⟩
  rw [replies.eng, satInc_eq_min]

/-- A symbol set is staged, less what the limits drop. -/
def Dev.stageSymbols (d : Dev) (insts : List (List Nat)) : Eng → Eng := fun e => { e with
  symStaged := some { insts := keepInsts d.nSym d.symArea 0 0 insts }
  symDropped := satAdd 65535 e.symDropped (insts.length - (keepInsts d.nSym d.symArea 0 0 insts).length) }

theorem Dev.symbolPacket_good {d : Dev} {body : Bytes} {count : Nat} (h : SetBody body 56 count) (lt : count < 64)
    (good : ∀ x ∈ itemsOf body 14 count, instBad x = false ∧ instOut x = false ∧ (d.eng.libReady = true → d.noSprite x = false)) :
    d.symbolPacket body = (d.onEng (d.stageSymbols (itemsOf body 14 count))).raiseIf
      (count - (keepInsts d.nSym d.symArea 0 0 (itemsOf body 14 count)).length != 0) 60 := by
  have valid : firstIdx instBad (itemsOf body 14 count) = none := List.findIdx?_eq_none_iff.mpr fun x mem => (good x mem).1
  have inside : firstIdx instOut (itemsOf body 14 count) = none := List.findIdx?_eq_none_iff.mpr fun x mem => (good x mem).2.1
  have known : firstIdx (fun x => d.eng.libReady && d.noSprite x) (itemsOf body 14 count) = none :=
    List.findIdx?_eq_none_iff.mpr fun x mem => Bool.and_eq_false_imp.mpr (good x mem).2.2
  unfold Dev.stageSymbols
  rw [length_itemsOf]
  unfold itemsOf at valid inside known ⊢
  simp only [Dev.symbolPacket, if_neg h.whole, if_neg (h.clear (w := 6) lt 26), h.count_eq (w := 6) lt, valid, inside, known]

theorem Dev.raiseIf_onEng (d : Dev) (f : Eng → Eng) (c : Bool) (n : Nat) :
    (d.onEng f).raiseIf c n = { d with eng := f d.eng, evt := ((d.onEng f).raiseIf c n).evt } := by
  cases c <;> rfl

/-! ### BLEND and TIME (R110, R226, R437) -/

theorem Dev.blendPacket_good {d : Dev} {body : Bytes} {w : Nat} (len : body.length = 4) (first : wordAt body 0 = w) (range : w < 16)
    (program : bit w 0 = true → bits w 1 3 < d.nProg ∧ d.memc.dramLess = false) :
    d.blendPacket body = d.onEng (fun e => { e with blendStaged := some (if bit w 0 then some (bits w 1 3) else none) }) := by
  have fits : ¬ (body.length ≠ 4 ∨ 16 ≤ w) := by omega
  have runs : ¬ (bit w 0 && (decide (d.nProg ≤ bits w 1 3) || d.memc.dramLess)) = true := by
    rw [Bool.and_eq_true]
    rintro ⟨named, barred⟩
    obtain ⟨some, dram⟩ := program named
    rw [dram, Bool.or_false, decide_eq_true_eq] at barred
    omega
  simp only [Dev.blendPacket, first, if_neg fits, if_neg runs]

theorem Dev.timePacket_good {d : Dev} {body : Bytes} (len : body.length = 8) :
    d.timePacket body = d.onLedg (fun l => { l with anchorUtc := beNat body, anchorClock := d.lampMs }) :=
  if_neg (not_not.mpr len)

end Sys2Proof.Machine

namespace Sys2Proof.Proofs

open Sys2Proof Sys2Proof.Machine Sys2Proof.Claims

/-- Settles O54: each kind of packet has one lemma for each way in which it ends, and a refusal is its event and a REJECT; while LRX runs,
as content asks, a RELEASE joins the queue of replies or is dropped, and never waits. -/
theorem packetsAreStaged : Obligations.PacketsAreStaged := by
  refine fun s body => ⟨rfl, fun off c kind => ?_, fun on => ⟨fun n len first range => ⟨fun good => ?_, fun r bad reason => ?_⟩,
    fun len => ?_, fun count lt len first second third fourth => ⟨fun good => ?_, fun i inside bad before => ?_⟩,
    fun count insts lt len first second third fourth named good => ?_, fun w len first range program => ?_, fun len => ?_⟩⟩
  · rcases kind with rfl | rfl | rfl | rfl | rfl | rfl | rfl
    all_goals exact congrArg Host.Outcome.next (State.onPacket_off off _)
  all_goals refine ⟨_, congrArg Host.Outcome.next (State.onPacket_on on _), ⟨rfl, rfl, rfl, rfl, rfl⟩, ?_⟩
  · have replies := OnlyReplies.releases (s.dev.onEng (Eng.stageLayer n (bodyWords body 1 8))) s.dev
    have fw := replies.fw
    rw [Dev.releases_crossing (d := s.dev.onEng _) (Dev.fairwayOn_of_contentOn on)] at fw
    rw [State.onDev_dev, Dev.layerPacket_staged len first range good]
    exact ⟨replies.eng, fw, replies.onEng⟩
  · have replies := OnlyReplies.refusal ((s.dev.onEng (Eng.refuseLayer n r)).onFrm (fun f => { f with
      limitReject := satAdd 65535 f.limitReject (b1 (r == 9)) })) 52 1 r n
    rw [Pends, State.onDev_dev, Dev.layerPacket_refused len first range bad reason]
    refine ⟨Dev.refusal_pends _ rfl .., ?_, ?_⟩
    · rw [replies.dev]
      rfl
    · rw [replies.dev]
      rfl
  · rw [Pends, State.onDev_dev, Dev.layerPacket_malformed len]
    exact s.dev.malformed_frame 1
  · rw [Pends, State.onDev_dev, Dev.sectorPacket_good ⟨len, first, second, third, fourth⟩ lt good, Dev.raiseIf_eng]
    refine ⟨rfl, fun more => ?_, Dev.raiseIf_onEng ..⟩
    rw [decide_eq_true more]
    exact Evt.raise_self _ 58 rfl
  · rw [Pends, State.onDev_dev, Dev.sectorPacket_bad ⟨len, first, second, third, fourth⟩ lt inside bad before]
    obtain ⟨pends, eng, frame⟩ := s.dev.refuseSectors_frame 1 i _
    exact ⟨pends, by rw [eng], frame⟩
  · subst named
    rw [State.onDev_dev, Dev.symbolPacket_good ⟨len, first, second, third, fourth⟩ lt good, Dev.raiseIf_eng]
    exact ⟨rfl, Dev.raiseIf_onEng ..⟩
  · exact Dev.blendPacket_good len first range program
  · exact Dev.timePacket_good len

end Sys2Proof.Proofs

/-! ## REFRESH, RETRAIN and HEALTH entries (R161, R251, R252, R255, R258, R295) -/

namespace Sys2Proof.Machine

/-! ### MR4 (R251) -/

/-- The events of a read of MR4 that finds `code` after `old`. -/
def mr4Events (old code : Nat) : List Nat := (if Claims.rateChanges old code then [46] else []) ++ if 5 ≤ code then [47] else []

/-- Its message. -/
def mr4Messages (code : Nat) : List Msg := if 5 ≤ code then [mkMsg 0xC4 0x18 1 code] else []

theorem Dev.readMr4_eq (d : Dev) (ch code : Nat) : d.readMr4 ch code = { d with
    memc := d.memc.onChan ch (fun x => { x with mr4 := code })
    evt := (mr4Events (d.memc.chan ch).mr4 code).foldl Evt.raise d.evt
    keep := { d.keep with transit := d.keep.transit ++ mr4Messages code } } := by
  have rate : ((mr4Normal (d.memc.chan ch).mr4 && mr4Doubled code) || (mr4Doubled (d.memc.chan ch).mr4 && mr4Normal code)) =
    Claims.rateChanges (d.memc.chan ch).mr4 code := rfl
  unfold Dev.readMr4 mr4Events mr4Messages
  simp only [rate]
  cases Claims.rateChanges (d.memc.chan ch).mr4 code <;> split <;> simp [Dev.raiseIf, Dev.raise, Dev.onMemc, Dev.send]

/-- Both channels are read, channel 0 first. -/
theorem Dev.readMr4_both {d : Dev} {a b : Chan} (both : d.memc.chans = [a, b]) (c0 c1 : Nat) :
    ((d.onMemc (fun m => { m with mr4Read := true })).readMr4 0 c0).readMr4 1 c1 = { d with
      memc := { d.memc with mr4Read := true, chans := [{ a with mr4 := c0 }, { b with mr4 := c1 }] }
      evt := (mr4Events a.mr4 c0 ++ mr4Events b.mr4 c1).foldl Evt.raise d.evt
      keep := { d.keep with transit := d.keep.transit ++ (mr4Messages c0 ++ mr4Messages c1) } } := by
  simp only [Dev.readMr4_eq, Dev.onMemc, Memc.onChan, Memc.chan, both, updNth, nth, List.getD_cons_zero, List.getD_cons_succ,
    List.foldl_append, List.append_assoc]

/-! ### Refreshes (R252) -/

theorem Chan.occupy_refreshed (now r : Nat) (x : Chan) :
    ({ x with debt := x.debt - Nat.min x.debt r } : Chan).occupy now (Nat.min x.debt r) = Claims.refreshed now r x := by
  unfold Chan.occupy Claims.refreshed
  split <;> rfl

/-- The refreshes of a REFRESH entry are issued on every channel. -/
def Dev.refreshAll (d : Dev) (r : Nat) : Dev :=
  d.onMemc (fun m => { m with chans := m.chans.map (Claims.refreshed d.now r) })

/-! ### HEALTH leaves the controller of layer memory alone until it writes the map -/

@[simp] theorem Dev.onPix_memc (d : Dev) (p : Nat) (f : Pix → Pix) : (d.onPix p f).memc = d.memc := rfl
@[simp] theorem Dev.onDtile_memc (d : Dev) (t : Nat) (f : DiagTile → DiagTile) : (d.onDtile t f).memc = d.memc := rfl
@[simp] theorem Dev.begin_memc (d : Dev) (i : Nat) (fin : Option Nat) : (d.begin i fin).memc = d.memc := rfl
@[simp] theorem Dev.closeCycle_memc (d : Dev) (unres : List Nat) : (d.closeCycle unres).memc = d.memc := rfl

theorem Dev.foldl_memc {α : Type} {f : Dev → α → Dev} (hf : ∀ d x, (f d x).memc = d.memc) (l : List α) (d : Dev) :
    (l.foldl f d).memc = d.memc :=
  List.foldlRecOn l f (motive := fun d' => d'.memc = d.memc) rfl (fun _ h x _ => (hf _ x).trans h)

@[simp] theorem Dev.nshortReturned_memc (d : Dev) (t p : Nat) (phs : List Nat) : (d.nshortReturned t p phs).memc = d.memc := by
  unfold Dev.nshortReturned
  split <;> rfl

@[simp] theorem Dev.statusReturned_memc (d : Dev) (t p st own : Nat) (phs : List Nat) :
    (d.statusReturned t p st own phs).memc = d.memc := by
  unfold Dev.statusReturned
  split
  · rfl
  · dsimp only
    split
    · rw [Dev.nshortReturned_memc, Dev.onDiag_memc, Dev.onPix_memc]
    · rw [Dev.onDiag_memc, Dev.onPix_memc]

@[simp] theorem Dev.processStatus_memc (d : Dev) (r : Returned) : (d.processStatus r).memc = d.memc := by
  rw [Dev.processStatus]
  exact Dev.foldl_memc (fun _ _ => Dev.statusReturned_memc ..) _ d

@[simp] theorem Dev.processReturned_memc (d : Dev) : d.processReturned.memc = d.memc := by
  rw [Dev.processReturned, Dev.foldl_memc Dev.processStatus_memc, Dev.onDiag_memc]

/-- Diagnostics and tile `t` note whether more than 64 of its pixels change class (R293). -/
def Dev.noteEpisode (d : Dev) (t : Nat) (agg : Bool) : Dev :=
  let d := if (d.dtile t).episode == agg then d else d.onDtile t (fun y => { y with episode := agg })
  if (d.tile t).aggregated == agg then d else d.onTile t (fun x => { x with aggregated := agg })

theorem Dev.aggregate_eq (d : Dev) (fs : List Finding) (t : Nat) : d.aggregate fs t =
    if decide (64 < changesIn fs t) && !(d.dtile t).episode then
      (((d.noteEpisode t (decide (64 < changesIn fs t))).onDiag (fun g =>
        { g with episodes := satInc 65535 g.episodes, aggLast := t })).raise 84).send t 0x0E 1 (changesIn fs t)
    else d.noteEpisode t (decide (64 < changesIn fs t)) := rfl

@[simp] theorem Dev.noteEpisode_memc (d : Dev) (t : Nat) (agg : Bool) : (d.noteEpisode t agg).memc = d.memc := by
  unfold Dev.noteEpisode
  dsimp only
  split <;> split <;> rfl

@[simp] theorem Dev.aggregate_memc (d : Dev) (fs : List Finding) (t : Nat) : (d.aggregate fs t).memc = d.memc := by
  rw [Dev.aggregate_eq]
  split
  · rw [Dev.send_memc, Dev.raise_memc, Dev.onDiag_memc, Dev.noteEpisode_memc]
  · exact Dev.noteEpisode_memc ..

@[simp] theorem Dev.dispose_memc (d : Dev) (withheld : List Nat) (f : Finding) : (d.dispose withheld f).memc = d.memc := by
  simp only [Dev.dispose, apply_ite Dev.memc, Dev.send_memc, Dev.onPix_memc, ite_self]

/-- A HEALTH entry reads and writes the map after work that leaves the controller of layer memory alone. -/
theorem State.health_writesMap {s : State} {i : Nat} (ready : s.entryReady i 7 = true) (doneAt : Nat) (po co : List Nat) :
    ∃ f : Dev → Dev, (f s.dev).memc = s.dev.memc ∧ s.health i doneAt po co = (s.onDev f).writeMap po co := by
  have goes : ¬ (!s.entryReady i 7) = true := by rw [ready]; decide
  refine ⟨_, ?_, if_neg goes⟩
  dsimp only
  split
  · rfl
  · rw [Dev.onDiag_memc, Dev.raiseIf_memc, Dev.foldl_memc (fun d x => Dev.dispose_memc d _ x),
      Dev.foldl_memc (fun d x => Dev.aggregate_memc d _ x), apply_ite Dev.memc, Dev.closeCycle_memc, ite_self,
      Dev.processReturned_memc, Dev.begin_memc]

/-! ### The pixel health map (R295) -/

/-- The bytes that a HEALTH entry writes as the map. -/
def State.mapBytes (s : State) (po : List Nat) : Bytes :=
  (List.range nPixels).map (fun p => BitVec.ofNat 8 (s.dev.mapByte p (s.glitch (s.dev.memc.fromDram po) p)))

theorem State.mapBytes_length (s : State) (po : List Nat) : (s.mapBytes po).length = nPixels := by
  rw [State.mapBytes, List.length_map, List.length_range]

/-- With layer memory the map is written whole and is valid. -/
theorem State.writeMap_written {s : State} (dram : s.dev.memc.dramLess = false) (po co : List Nat) :
    (s.writeMap po co).dev.diag.mapValid = true ∧ (s.writeMap po co).cells = s.cells ∧ (s.writeMap po co).otp = s.otp ∧
    (s.writeMap po co).lat = s.lat ∧ (s.writeMap po co).mem = s.mem.writeAll 0x36000000 (s.mapBytes po) := by
  have present : ¬ s.dev.memc.dramLess = true := by rw [dram]; decide
  rw [State.writeMap, if_neg present]
  exact ⟨rfl, rfl, rfl, rfl, rfl⟩

theorem State.writeMap_dramLess {s : State} (dram : s.dev.memc.dramLess = true) (po co : List Nat) :
    s.writeMap po co = s.onDev (fun d => d.onDiag (fun g => { g with mapValid := false })) := if_pos dram

end Sys2Proof.Machine

namespace Sys2Proof.Proofs

open Sys2Proof Sys2Proof.Machine Sys2Proof.Claims

/-- The sequencer finds ready what may begin. -/
theorem entryReady_iff_mayBegin {s : State} {i act : Nat} : s.entryReady i act = true ↔ MayBegin s i act := by
  simp only [State.entryReady, MayBegin, Bool.and_eq_true, Bool.or_eq_true, Bool.not_eq_true', beq_iff_eq, decide_eq_true_eq,
    List.any_eq_false, List.mem_cons, List.not_mem_nil, or_false, and_assoc, or_assoc, ne_eq]
  rfl

section
variable {s : State} {i doneAt : Nat}

theorem ready_of_mayBegin {act : Nat} (may : MayBegin s i act) : ¬ (!s.entryReady i act) = true := by
  rw [entryReady_iff_mayBegin.mpr may]
  decide

/-- The begin of an entry leaves the DRAM in service. -/
theorem serves_of_dramOn (on : s.dev.dramOn = true) (fin : Option Nat) : ¬ (!(s.dev.begin i fin).dramOn) = true := by
  have same : (s.dev.begin i fin).dramOn = s.dev.dramOn := rfl
  rw [same, on]
  decide

theorem exec_refresh (may : MayBegin s i 4) (on : s.dev.dramOn = true) (m0 m1 : BitVec 3) :
    exec (.refresh i doneAt m0 m1) s = .next (s.onDev (fun d =>
      let d := (d.begin i (some doneAt)).refreshAll (bits (d.entry i).operand 0 4)
      if d.memc.mr4Read then d
      else ((d.onMemc (fun m => { m with mr4Read := true })).readMr4 0 m0.toNat).readMr4 1 m1.toNat)) := by
  refine congrArg Host.Outcome.next ((if_neg (ready_of_mayBegin may)).trans ?_)
  simp only [State.onDev, if_neg (serves_of_dramOn on _), Chan.occupy_refreshed]
  rfl

theorem exec_retrain (may : MayBegin s i 8) (on : s.dev.dramOn = true) (drifted pass : Bool) :
    exec (.retrain i doneAt drifted pass) s = .next (s.onDev (fun d =>
      let d := (d.begin i (some doneAt)).onMemc (fun m =>
        { m with chans := m.chans.map (fun x => { x with retrainUntil := d.frm.tickAt + doneAt }) })
      if drifted && !pass then
        ((d.onMemc (fun m => { m with flagged := true, retrainFails := satInc 255 m.retrainFails })).raise 44).send 0xC4 0x1B 1 0
      else d.onMemc (fun m => { m with flagged := false }))) := by
  refine congrArg Host.Outcome.next ((if_neg (ready_of_mayBegin may)).trans ?_)
  simp only [State.onDev, if_neg (serves_of_dramOn on _)]
  rfl

/-- While diagnostics stands still a HEALTH entry is its begin and the map. -/
theorem exec_health_stopped (may : MayBegin s i 7) (stopped : s.dev.diag.stopped = true) (po co : List Nat) :
    exec (.health i doneAt po co) s = .next ((s.onDev (fun d => d.begin i (some doneAt))).writeMap po co) := by
  refine congrArg Host.Outcome.next ((if_neg (ready_of_mayBegin may)).trans ?_)
  have stands : (s.dev.begin i (some doneAt)).diag.stopped = true := stopped
  simp only [State.onDev, if_pos stands]

/-- Events are newly pending whatever their order and number. -/
theorem Raises.congr {t : State} {ns ns' : List Nat} (h : Raises s t ns) (same : ∀ n, n ∈ ns ↔ n ∈ ns') : Raises s t ns' := by
  refine ⟨h.1, fun n => (h.2 n).trans ?_⟩
  rw [Bool.eq_iff_iff.mpr (List.contains_iff_mem.trans ((same n).trans List.contains_iff_mem.symm))]

end

theorem mr4Events_good (old code : Nat) : ∀ n ∈ mr4Events old code, reservedEvent n = false := by
  unfold mr4Events
  split <;> split <;> decide

/-- The events of both reads are those of the rate and those of the range, each once. -/
theorem mem_mr4Events_both (a b c0 c1 n : Nat) : n ∈ mr4Events a c0 ++ mr4Events b c1 ↔
    n ∈ (if rateChanges a c0 || rateChanges b c1 then [46] else []) ++ (if 5 ≤ c0 ∨ 5 ≤ c1 then [47] else []) := by
  simp only [mr4Events, List.mem_append, List.mem_ite_nil_right, List.mem_singleton, Bool.or_eq_true]
  tauto

/-- Settles O43: an entry that may begin is ready; each entry is its begin and one change of the controller of layer memory, the reads of
MR4 come channel by channel, and a HEALTH entry reaches layer memory with its map alone. -/
theorem memoryEntriesComplete : Obligations.MemoryEntriesComplete := by
  refine fun s i doneAt => ⟨fun m0 m1 may on read => ?_, fun m0 m1 a b may on unread both => ?_,
    fun may on => ⟨fun drifted pass holds => ?_, ?_⟩, fun po co may stopped dramLess => ?_, fun po co may dram => ?_⟩
  · rw [Next, exec_refresh may on]
    have read' : ((s.dev.begin i (some doneAt)).refreshAll (bits (s.dev.entry i).operand 0 4)).memc.mr4Read = true := read
    exact ⟨_, rfl, ⟨rfl, rfl, rfl, rfl, rfl⟩, if_pos read'⟩
  · rw [Next, exec_refresh may on]
    have read' : ¬ ((s.dev.begin i (some doneAt)).refreshAll (bits (s.dev.entry i).operand 0 4)).memc.mr4Read = true :=
      (Bool.not_eq_true _).mpr unread
    have both' : ((s.dev.begin i (some doneAt)).refreshAll (bits (s.dev.entry i).operand 0 4)).memc.chans =
        [refreshed s.dev.now (bits (s.dev.entry i).operand 0 4) a, refreshed s.dev.now (bits (s.dev.entry i).operand 0 4) b] :=
      congrArg (List.map _) both
    rw [State.onDev, if_neg read', Dev.readMr4_both both']
    have raised := fun n => mem_mr4Events_both a.mr4 b.mr4 m0.toNat m1.toNat n
    refine ⟨_, rfl, ⟨rfl, rfl, rfl, rfl, rfl⟩, Raises.congr (raises_of_evt ?_ rfl) raised, rfl, rfl⟩
    exact fun n mem => (List.mem_append.mp mem).elim (mr4Events_good _ _ n) (mr4Events_good _ _ n)
  · rw [Next, exec_retrain may on]
    have centred : ¬ (drifted && !pass) = true := by simpa [imp_iff_not_or] using holds
    simp only [State.onDev, if_neg centred]
    exact ⟨_, rfl, ⟨rfl, rfl, rfl, rfl, rfl⟩, rfl, rfl⟩
  · rw [Next, exec_retrain may on]
    have drifted : (true && !false) = true := rfl
    simp only [State.onDev, if_pos drifted, satInc_eq_min]
    exact ⟨_, rfl, ⟨rfl, rfl, rfl, rfl, rfl⟩, raises_one rfl rfl, rfl, rfl⟩
  · have dramLess' : (s.onDev (fun d => d.begin i (some doneAt))).dev.memc.dramLess = true := dramLess
    rw [Next, exec_health_stopped may stopped, State.writeMap_dramLess dramLess']
    exact ⟨_, rfl, ⟨rfl, rfl, rfl, rfl, rfl⟩, rfl⟩
  · obtain ⟨f, memc, writes⟩ := State.health_writesMap (entryReady_iff_mayBegin.mpr may) doneAt po co
    have dram' : (s.onDev f).dev.memc.dramLess = false := by rw [State.onDev_dev, memc, dram]
    obtain ⟨valid, cells, otp, lat, mem⟩ := State.writeMap_written dram' po co
    refine ⟨_, congrArg Host.Outcome.next writes, valid, cells, otp, lat, fun x out => ?_, fun x low high => ?_⟩
    · rw [mem, Memory.read_writeAll, if_neg (by rw [State.mapBytes_length]; omega)]
      rfl
    · have inside : x - 0x36000000 < ((s.onDev f).mapBytes po).length := by rw [State.mapBytes_length]; omega
      rw [mem, Memory.read_writeAll, if_pos ⟨low, by omega, by unfold nPixels at high; unfold memTop; omega⟩,
        List.getElem?_eq_getElem inside]
      rfl

end Sys2Proof.Proofs

/-! ## Deadlines of schedule entries (R172, R173, R176) -/

namespace Sys2Proof.Machine

/-- A tile row has no auxiliary need left where no chain of its lit tiles needs a pass (R162). -/
theorem Dev.rowNeeds_eq_false_iff {d : Dev} {ty : Nat} (row : ty < 8) : d.rowNeeds ty = false ↔
    ∀ x k, x < 192 → x / 24 = ty → k < 4 → d.isDark x = false → d.auxNeed x k = none := by
  simp only [Dev.rowNeeds, List.any_eq_false, Bool.and_eq_true, Bool.not_eq_true', not_and, Option.not_isSome_iff_eq_none,
    Prod.forall, mem_rowChains]
  refine ⟨fun h x k _ own chain lit => h x k ⟨own, chain⟩ lit, fun h x k ⟨own, chain⟩ lit => h x k ?_ own chain lit⟩
  omega

/-! ### What has missed its deadline (R172) -/

theorem Dev.missed_of_idles {d : Dev} {i : Nat} (idle : d.idles i = true) : d.missed i = false := if_pos idle

theorem Dev.missed_of_stopped {d : Dev} {i : Nat} (busy : ¬ d.idles i = true) (stopped : d.frm.stopped.contains i = true) :
    d.missed i = true :=
  (if_neg busy).trans (if_pos stopped)

/-- An entry that began has missed its deadline unless it ends by then. -/
theorem Dev.missed_of_began {d : Dev} {i j : Nat} {fin : Option Nat} (busy : ¬ d.idles i = true)
    (whole : ¬ d.frm.stopped.contains i = true) (began : d.frm.begun.find? (fun e => e.1 == i) = some (j, fin)) :
    d.missed i = false ↔ ∃ c, fin = some c ∧ c ≤ (d.entry i).deadline := by
  simp only [Dev.missed, if_neg busy, if_neg whole, began]
  cases fin with
  | none => simp
  | some c => simp

/-- An entry that did not begin has missed its deadline unless nothing was left for it to do. -/
theorem Dev.missed_of_fresh {d : Dev} {i : Nat} (busy : ¬ d.idles i = true) (whole : ¬ d.frm.stopped.contains i = true)
    (fresh : d.frm.begun.find? (fun e => e.1 == i) = none) : d.missed i = false ↔
      ((d.entry i).act = 3 ∧ d.rowNeeds (bits (d.entry i).operand 0 3) = false) ∨
      ((d.entry i).act = 4 ∧ ∀ x ∈ d.memc.chans, Nat.min x.debt (bits (d.entry i).operand 0 4) = 0) := by
  simp only [Dev.missed, if_neg busy, if_neg whole, fresh]
  by_cases aux : (d.entry i).act = 3
  · simp [aux]
  · by_cases refresh : (d.entry i).act = 4
    · simp only [refresh, if_true, List.any_eq_false, decide_eq_true_eq, Nat.not_lt, Nat.le_zero, true_and, Nat.reduceEqDiff, if_false,
        false_and, false_or]
    · simp [aux, refresh]

end Sys2Proof.Machine

namespace Sys2Proof.Proofs

open Sys2Proof Sys2Proof.Machine Sys2Proof.Claims

theorem idle_iff {s : State} {i : Nat} : Idle s i ↔ s.dev.idles i = true := by
  simp only [Idle, Dev.idles, Bool.or_eq_true, Bool.and_eq_true, beq_iff_eq, List.isEmpty_iff]
  exact or_comm

theorem nothingToDo_iff {s : State} {i : Nat} : NothingToDo s i ↔ (∀ e ∈ s.dev.frm.begun, e.1 ≠ i) ∧
    (((s.dev.entry i).act = 3 ∧ s.dev.rowNeeds (bits (s.dev.entry i).operand 0 3) = false) ∨
      ((s.dev.entry i).act = 4 ∧ ∀ x ∈ s.dev.memc.chans, Nat.min x.debt (bits (s.dev.entry i).operand 0 4) = 0)) := by
  rw [NothingToDo, Dev.rowNeeds_eq_false_iff (bits_lt _ 0 3)]

theorem fresh_iff {s : State} {i : Nat} :
    s.dev.frm.begun.find? (fun e => e.1 == i) = none ↔ ∀ e ∈ s.dev.frm.begun, e.1 ≠ i := by
  simp only [List.find?_eq_none, beq_iff_eq, ne_eq]

/-- An entry has begun as the schedule holds it, or not at all. -/
theorem beganAs_or_fresh (s : State) (i : Nat) : (∃ fin, BeganAs s i fin) ∨ ∀ e ∈ s.dev.frm.begun, e.1 ≠ i := by
  cases found : s.dev.frm.begun.find? (fun e => e.1 == i) with
  | none => exact .inr (fresh_iff.mp found)
  | some e =>
    obtain rfl : e.1 = i := by simpa using List.find?_some found
    exact .inl ⟨e.2, found⟩

theorem not_beganAs_of_fresh {s : State} {i : Nat} {fin : Option Nat} (fresh : ∀ e ∈ s.dev.frm.begun, e.1 ≠ i) :
    ¬ BeganAs s i fin := fun began => nomatch (fresh_iff.mpr fresh).symm.trans began

theorem beganAs_unique {s : State} {i : Nat} {fin fin' : Option Nat} (h : BeganAs s i fin) (h' : BeganAs s i fin') : fin = fin' := by
  injection h.symm.trans h' with same
  exact congrArg Prod.snd same

/-- The schedule monitor finds a miss where the entry is not on time. -/
theorem onTime_iff {s : State} {i : Nat} : OnTime s i ↔ s.dev.missed i = false := by
  rw [OnTime, idle_iff]
  by_cases idle : s.dev.idles i = true
  · exact iff_of_true (.inl idle) (Dev.missed_of_idles idle)
  by_cases stopped : s.dev.frm.stopped.contains i = true
  · rw [Dev.missed_of_stopped idle stopped]
    exact iff_of_false (fun h => Bool.noConfusion (stopped.symm.trans (h.resolve_left idle).1)) Bool.noConfusion
  rw [or_iff_right idle, and_iff_right ((Bool.not_eq_true _).mp stopped)]
  rcases beganAs_or_fresh s i with ⟨fin, began⟩ | fresh
  · rw [Dev.missed_of_began idle stopped began]
    constructor
    · rintro (⟨c, own, past⟩ | free)
      · exact ⟨c, beganAs_unique began own, past⟩
      · exact absurd began (not_beganAs_of_fresh (nothingToDo_iff.mp free).1)
    · rintro ⟨c, rfl, past⟩
      exact .inl ⟨c, began, past⟩
  · rw [Dev.missed_of_fresh idle stopped (fresh_iff.mpr fresh), nothingToDo_iff]
    constructor
    · rintro (⟨c, began, -⟩ | ⟨-, free⟩)
      · exact absurd began (not_beganAs_of_fresh fresh)
      · exact free
    · exact fun free => .inr ⟨fresh, free⟩

/-- An idle entry and one that may have nothing to do are none that the least slack counts. -/
theorem act_of_nothing {s : State} {i : Nat} (nothing : Idle s i ∨ (s.dev.frm.stopped.contains i = false ∧ NothingToDo s i)) :
    (s.dev.entry i).act ∉ [1, 2] := by
  have kind : (s.dev.entry i).act ∈ [3, 4, 6, 8] := by
    unfold Idle NothingToDo at nothing
    simp only [List.mem_cons, List.not_mem_nil]
    tauto
  simp only [List.mem_cons, List.not_mem_nil, or_false] at kind ⊢
  omega

/-! ### What the monitor records (R173, R176) -/

theorem slackOf_miss (s : State) (i : Nat) : s.dev.slackOf i true = 0 := by
  unfold Dev.slackOf
  split <;> rfl

theorem slackOf_of_beganAs {s : State} {i c : Nat} (began : BeganAs s i (some c)) :
    s.dev.slackOf i false = (s.dev.entry i).deadline - c := by
  rw [Dev.slackOf, began]
  rfl

/-- The frame timing of an entry that the least slack does not count. -/
theorem judgedWith_of_other {s : State} {i : Nat} (other : (s.dev.entry i).act ∉ [1, 2]) (x : Nat) :
    judgedWith s i x = { s.dev.frm with judged := s.dev.frm.judged ++ [i] } := by
  rw [judgedWith, if_neg other]

/-- The monitor judges an entry with its slack, and records a miss. -/
theorem exec_entryDeadline {s : State} {i : Nat} (judges : Judges s i) : exec (.entryDeadline i) s =
    .next (s.onDev (fun d => if d.missed i then (d.onFrm (fun _ => judgedWith s i (d.slackOf i true))).recordMiss i
      else d.onFrm (fun _ => judgedWith s i (d.slackOf i false)))) := by
  obtain ⟨run, normal, mode, fresh, works⟩ := judges
  have own : ¬ (!(s.running && !s.dev.frm.transitional && s.dev.inMode i && !s.dev.frm.judged.contains i)) = true := by
    rw [run, normal, mode, fresh]
    decide
  have table : ¬ (s.dev.frm.suspended && ((s.dev.entry i).act == 1 || (s.dev.entry i).act == 2 || (s.dev.entry i).act == 3 ||
      (s.dev.entry i).act == 7)) = true := by
    simpa [imp_iff_not_or, and_assoc] using works
  refine congrArg Host.Outcome.next (((if_neg own).trans (if_neg table)).trans ?_)
  have counted : (s.dev.entry i).act = 1 ∨ (s.dev.entry i).act = 2 ↔ (s.dev.entry i).act ∈ [1, 2] := by
    rw [List.mem_cons, List.mem_singleton]
  dsimp only [State.onDev, Dev.onFrm, judgedWith]
  by_cases counts : (s.dev.entry i).act ∈ [1, 2]
  · rw [if_pos counts, if_pos counts, if_pos (counted.mpr counts)]
    cases s.dev.missed i <;> cases s.dev.frm.slackNow <;> rfl
  · rw [if_neg counts, if_neg counts, if_neg (mt counted.mp counts)]

theorem exec_entryDeadline_other {s : State} {i : Nat} (other : ¬ Judges s i) : exec (.entryDeadline i) s = .next s := by
  refine congrArg Host.Outcome.next ?_
  unfold State.entryDeadline
  dsimp only
  split
  · rfl
  · next own =>
    split
    · rfl
    · next table =>
      refine absurd ?_ other
      simp only [Bool.not_eq_true', Bool.not_eq_false, Bool.and_eq_true] at own
      obtain ⟨⟨⟨run, normal⟩, mode⟩, fresh⟩ := own
      exact ⟨run, by simpa using normal, mode, by simpa using fresh, by simpa [imp_iff_not_or, and_assoc] using table⟩

/-- A miss is counted and recorded, with event 62, and the first of the frame is reported. -/
theorem Dev.recordMiss_eq (d : Dev) (i : Nat) : d.recordMiss i = { d with
    frm := { d.frm with
      misses := Nat.min 65535 (d.frm.misses + 1), missEntry := i, missAct := (d.entry i).act % 16
      missTick := d.frm.tick, missSent := true }
    evt := d.evt.raise 62
    keep := { d.keep with
      transit := d.keep.transit ++ if d.frm.missSent then [] else [mkMsg 0xCD 0x15 1 (d.frm.mode * 4096 + i)] } } := by
  simp only [Dev.recordMiss, satInc_eq_min]
  cases sent : d.frm.missSent
  · rfl
  · simp only [Bool.not_true, Bool.false_eq_true, if_false, if_true, List.append_nil]
    rfl

/-- Settles O45: the monitor's test for a miss is that the entry is not on time; it records the entry with its slack, and a miss besides. -/
theorem deadlinesAreJudged : Obligations.DeadlinesAreJudged := by
  refine fun s i => ⟨fun judges late => ?_, fun c judges began past whole => ?_, fun judges nothing => ?_, exec_entryDeadline_other⟩
  · have missed : s.dev.missed i = true := by rwa [onTime_iff, Bool.not_eq_false] at late
    rw [Next, exec_entryDeadline judges]
    simp only [State.onDev, missed, if_true, slackOf_miss, Dev.recordMiss_eq]
    exact ⟨_, rfl, ⟨rfl, rfl, rfl, rfl, rfl⟩, raises_one rfl rfl, rfl, rfl, rfl⟩
  · have onTime : s.dev.missed i = false := onTime_iff.mp (.inr ⟨whole, .inl ⟨c, began, past⟩⟩)
    rw [Next, exec_entryDeadline judges]
    simp only [State.onDev, onTime, Bool.false_eq_true, if_false, slackOf_of_beganAs began]
    exact ⟨_, rfl, ⟨rfl, rfl, rfl, rfl, rfl⟩, rfl⟩
  · have onTime : s.dev.missed i = false := onTime_iff.mp (nothing.imp_right fun ⟨whole, free⟩ => ⟨whole, .inr free⟩)
    have other := act_of_nothing nothing
    rw [Next, exec_entryDeadline judges]
    simp only [State.onDev, onTime, Bool.false_eq_true, if_false, judgedWith_of_other other]
    exact ⟨_, rfl, ⟨rfl, rfl, rfl, rfl, rfl⟩, rfl⟩

end Sys2Proof.Proofs

/-! ## Credits, generations, replies and witness slots (R166, R213, R216, R220, R231, R237 to R239, R469) -/

namespace Sys2Proof.Machine

/-! ### Frames to the host (R212, R213, R217) -/

theorem slice_of_begins {a b f : Bytes} (h : a ++ b <+: f) : slice f a.length b.length = b := by
  obtain ⟨rest, rfl⟩ := h
  rw [slice, List.append_assoc, List.drop_left, List.take_left]

/-- The first six bytes of a frame: type, flags, length and number. -/
def State.frameHead (s : State) (ty len sn : Nat) : Bytes :=
  toBe 1 ty ++ toBe 1 (b1 (numbered ty && encFor s.dev.ses.mode ty) + 2 * b1 s.lat.perturbed) ++ toBe 2 len ++
    toBe 2 (if numbered ty then sn % 65536 else 0)

/-- The limits of both channels, which every frame carries (R213). -/
def Fw.limits (f : Fw) : Bytes := toBe 1 f.limit0 ++ toBe 1 f.limit1

theorem Fw.limits_eq (f : Fw) : f.limits = [BitVec.ofNat 8 f.limit0, BitVec.ofNat 8 f.limit1] := by
  simp [Fw.limits, toBe]

/-- The header of a frame, whose type fields take eight bytes. -/
def State.frameHeader (s : State) (ty len sn : Nat) (fields : Bytes) : Bytes :=
  s.frameHead ty len sn ++ s.dev.fw.limits ++ (fields ++ List.replicate (8 - fields.length) 0)

theorem State.frameHead_limits_length (s : State) (ty len sn : Nat) : (s.frameHead ty len sn ++ s.dev.fw.limits).length = 8 := by
  simp [State.frameHead, Fw.limits, toBe_length]

theorem sealFrame_begins (key : Bytes) (dir sn : Nat) (enc : Bool) (header payload : Bytes) :
    header <+: (sealFrame key dir sn enc header payload).1 := by
  unfold sealFrame
  split <;> exact ⟨_, rfl⟩

/-- A frame to the host goes out with its header as it is. -/
theorem State.frameOut_begins (s : State) (ty len sn : Nat) (fields payload : Bytes) :
    s.frameHeader ty len sn fields <+: s.frameOut ty len sn fields payload := by
  refine .trans (.trans ?_ ⟨_, rfl⟩) ⟨_, rfl⟩
  rw [State.frameHeader, Fw.limits, ← List.append_assoc, State.frameHead]
  split
  · exact sealFrame_begins ..
  · exact ⟨_, rfl⟩

/-- And with its payload as it is where its type is not encrypted (R361). -/
theorem State.frameOut_clear (s : State) {ty : Nat} (len sn : Nat) (fields payload : Bytes)
    (clear : encFor s.dev.ses.mode ty = false) :
    s.frameHeader ty len sn fields ++ payload <+: s.frameOut ty len sn fields payload := by
  refine .trans (.trans ?_ ⟨_, rfl⟩) ⟨_, rfl⟩
  rw [State.frameHeader, Fw.limits, ← List.append_assoc, State.frameHead]
  simp only [clear, Bool.and_false, sealFrame, Bool.false_eq_true, if_false]
  split <;> exact ⟨_, List.append_assoc ..⟩

theorem State.frameOut_type (s : State) (ty len sn : Nat) (fields payload : Bytes) :
    (s.frameOut ty len sn fields payload).take 1 = toBe 1 ty := by
  obtain ⟨rest, whole⟩ := s.frameOut_begins ty len sn fields payload
  rw [← whole]
  rfl

theorem State.frameOut_limits (s : State) (ty len sn : Nat) (fields payload : Bytes) :
    slice (s.frameOut ty len sn fields payload) 6 2 = s.dev.fw.limits := by
  have head : (s.frameHead ty len sn).length = 6 := by simp [State.frameHead, toBe_length]
  have begins := slice_of_begins (.trans ⟨_, rfl⟩ (s.frameOut_begins ty len sn fields payload))
  rwa [head] at begins

/-- Type fields come after the limits. -/
theorem State.frameOut_fields (s : State) (ty len sn : Nat) (fields more payload : Bytes) :
    slice (s.frameOut ty len sn (fields ++ more) payload) 8 fields.length = fields := by
  have begins := s.frameOut_begins ty len sn (fields ++ more) payload
  rw [State.frameHeader, List.append_assoc fields, ← List.append_assoc _ fields] at begins
  have fields := slice_of_begins (.trans ⟨_, rfl⟩ begins)
  rwa [State.frameHead_limits_length] at fields

theorem State.frameOut_payload (s : State) {ty : Nat} (len sn : Nat) (payload : Bytes)
    (clear : encFor s.dev.ses.mode ty = false) : slice (s.frameOut ty len sn [] payload) 16 payload.length = payload := by
  have header : (s.frameHeader ty len sn []).length = 16 := by
    rw [State.frameHeader, List.length_append, State.frameHead_limits_length]
    rfl
  have payload := slice_of_begins (s.frameOut_clear len sn [] payload clear)
  rwa [header] at payload

/-! ### Replies in a frame (R237, R238) -/

/-- The packets that go out fit the frame. -/
theorem fitReplies_fits : ∀ (ps : List Bytes) {used : Nat}, used ≤ 2048 → used + (fitReplies used ps).1.flatten.length ≤ 2048
  | [], _, room => room
  | p :: ps, used, room => by
    unfold fitReplies
    split
    · next fits =>
      have rest := fitReplies_fits ps fits
      simp only [List.flatten_cons, List.length_append]
      omega
    · exact room

/-- The first packet goes out where it fits. -/
theorem fitReplies_first {ps : List Bytes} {used : Nat} {p : Bytes} (first : p ∈ ps.head?) (fits : used + p.length ≤ 2048) :
    (fitReplies used ps).1 ≠ [] := by
  cases ps with
  | nil => cases first
  | cons q qs =>
    obtain rfl : q = p := by simpa using first
    rw [fitReplies, if_pos fits]
    exact List.cons_ne_nil _ _

/-- The first packet that waits on does not fit behind those that go out. -/
theorem fitReplies_full : ∀ (ps : List Bytes) (used : Nat), ∀ p ∈ (fitReplies used ps).2.head?,
    2048 < used + (fitReplies used ps).1.flatten.length + p.length
  | [], _, p, waits => nomatch waits
  | q :: qs, used, p, waits => by
    unfold fitReplies at waits ⊢
    split at waits
    · next fits =>
      have full := fitReplies_full qs _ p waits
      rw [if_pos fits]
      simp only [List.flatten_cons, List.length_append]
      omega
    · next full =>
      obtain rfl : q = p := by simpa using waits
      rw [if_neg full]
      simpa using full

end Sys2Proof.Machine

namespace Sys2Proof.Machine

/-! ### Frames that go out -/

/-- The fields of a WITNESS frame that name its frame and its payload (R239). -/
theorem State.frameOut_witness (s : State) (ty len sn tick payload gen : Nat) (bs : Bytes) :
    slice (s.frameOut ty len sn (witnessFields tick payload gen) bs) 8 6 = toBe 4 tick ++ toBe 2 payload := by
  rw [witnessFields, List.append_assoc (toBe 4 tick ++ toBe 2 payload)]
  exact s.frameOut_fields ty len sn (toBe 4 tick ++ toBe 2 payload) (toBe 1 gen ++ toBe 1 0) bs

/-- A WITNESS frame goes out and is counted; `g` moves the witness stream on. -/
def State.witnessOut (s : State) (fields payload : Bytes) (g : Wit → Wit) : State :=
  (s.sendNumbered 5 2048 fields payload).onDev (fun d => d.countWitness.onWit g)

theorem State.witnessOut_eq (s : State) (fields payload : Bytes) (g : Wit → Wit) : s.witnessOut fields payload g =
    s.onDev (fun d => { d with
      link := d.link.sendFrame (s.frameOut 5 2048 d.fw.txNext fields payload)
      fw := { d.fw with
        txFrame := s.frameOut 5 2048 d.fw.txNext fields payload, txNext := d.fw.txNext + 1
        sinceReply := Nat.min 32 (d.fw.sinceReply + 1) }
      wit := g { d.wit with frames := Nat.min 0xFFFFFFFF (d.wit.frames + 1) } }) := by
  simp only [State.witnessOut, State.sendNumbered, Dev.countWitness, satInc_eq_min, State.onDev, Dev.onWit, Dev.onFw, Dev.onLink]

/-! ### Generations (R231, R237) -/

/-- While LRX runs a reply joins a queue that has room for it. -/
theorem Dev.reply_of_room {d : Dev} (on : d.fairwayOn = true) (room : d.fw.replies.length < 256) (ty : Nat) (ws : List Nat) :
    d.reply ty ws = d.onFw (fun f => { f with replies := f.replies ++ [packet ty (ws.flatMap word32)] }) :=
  (if_pos on).trans (if_pos room)

/-- Generation `g` of a buffer becomes its last complete one. -/
def Buf.complete (g : Nat) (x : Buf) : Buf := { x with gen := none, gotLast := false, first := 0, ready := g, hasReady := true }

def Dev.endGeneration (d : Dev) (b g : Nat) : Dev := d.onFw (fun f => { f with bufs := SMap.upd {} f.bufs b (Buf.complete g) })

theorem Dev.endGeneration_buf (d : Dev) (b g c : Nat) : SMap.get {} (d.endGeneration b g).fw.bufs c =
    if c = b then (SMap.get {} d.fw.bufs b).complete g else SMap.get {} d.fw.bufs c := SMap.get_upd ..

/-! ### Errors of the back buffer that a witness slot finds (R106) -/

theorem OnlyBbuf.bbufFound (d : Dev) (e : BbufErr) : OnlyBbuf d (d.bbufFound e) := by
  unfold Dev.bbufFound
  cases e.bad with
  | true => exact ⟨rfl, fun m mem => List.mem_append_left _ mem, fun n mem => mem⟩
  | false => exact ⟨rfl, fun m mem => mem, fun n mem => Evt.raise_keeps _ _ _ mem⟩

theorem OnlyBbuf.found (d : Dev) (es : List BbufErr) : OnlyBbuf d (es.foldl Dev.bbufFound d) :=
  List.foldlRecOn es Dev.bbufFound (motive := fun d' => OnlyBbuf d d') ⟨rfl, fun _ h => h, fun _ h => h⟩
    (fun d' h e _ => h.trans (bbufFound d' e))

end Sys2Proof.Machine

namespace Sys2Proof.Proofs

open Sys2Proof Sys2Proof.Machine Sys2Proof.Claims

/-! ### Credits and generations (R166, R220, R231, R469) -/

theorem exec_linkThrottle {s : State} (on : s.dev.fairwayOn = true) : exec .linkThrottle s = .next (s.onDev (fun d => { d with
    fw := { d.fw with vc1Bytes := 0, throttled := false }
    frm := { d.frm with throttle := if d.fw.throttled then Nat.min 65535 (d.frm.throttle + 1) else d.frm.throttle }
    evt := if d.fw.throttled then d.evt.raise 70 else d.evt })) := by
  have runs : ¬ (!s.dev.fairwayOn) = true := by rw [on]; decide
  refine congrArg Host.Outcome.next ?_
  simp only [State.onDev, if_neg runs, ← satInc_eq_min]
  split <;> rfl

theorem exec_vc0BufferFree {s : State} (on : s.dev.fairwayOn = true) (held : 0 < s.dev.fw.held0) :
    exec .vc0BufferFree s = .next (s.onDev (fun d => d.onFw (fun f =>
      ({ f with held0 := f.held0 - 1 } : Fw).freeVc0 1 d.test.hold0))) := by
  have goes : ¬ (s.dev.fw.held0 = 0 || !s.dev.fairwayOn) = true := by simp [on, Nat.ne_of_gt held]
  refine congrArg Host.Outcome.next ?_
  rw [State.onDev, if_neg goes]
  rfl

/-- A credit is returned once HOLD0 withholds no more. -/
theorem Fw.freeVc0_returns {f : Fw} {hold0 : Nat} (full : hold0 ≤ f.kept0) :
    f.freeVc0 1 hold0 = { f with limit0 := (f.limit0 + 1) % 256 } := by
  rw [Fw.freeVc0, Nat.sub_eq_zero_of_le full]
  rfl

theorem Fw.freeVc0_keeps {f : Fw} {hold0 : Nat} (room : f.kept0 < hold0) :
    f.freeVc0 1 hold0 = { f with kept0 := f.kept0 + 1, limit0 := f.limit0 % 256 } := by
  have one : Nat.min 1 (hold0 - f.kept0) = 1 := Nat.min_eq_left (by omega)
  rw [Fw.freeVc0, one]
  rfl

theorem exec_generationComplete_off {s : State} (b : Nat) (off : s.dev.fairwayOn = false) :
    exec (.generationComplete b) s = .next s := by
  refine congrArg Host.Outcome.next ?_
  rw [State.onDev, if_neg (by simp [off])]

/-- A generation is whole once its last frame has come, no frame of it was lost and no data of it wait. -/
theorem generationDone_iff {s : State} {b g : Nat} (own : (SMap.get {} s.dev.fw.bufs b).gen = some g) :
    s.dev.generationDone b = true ↔ (SMap.get {} s.dev.fw.bufs b).gotLast = true ∧ (SMap.get {} s.dev.fw.bufs b).lost = false ∧
      ∀ w ∈ s.dev.fw.writes, w.buf ≠ b ∨ w.gen ≠ some g := by
  simp [Dev.generationDone, own, and_assoc, imp_iff_not_or]

theorem exec_generationComplete {s : State} {b g : Nat} (on : s.dev.fairwayOn = true)
    (own : (SMap.get {} s.dev.fw.bufs b).gen = some g) (done : s.dev.generationDone b = true) (room : s.dev.fw.replies.length < 256) :
    exec (.generationComplete b) s = .next (s.onDev (fun d => (d.endGeneration b g).onFw (fun f => { f with
      replies := f.replies ++ [packet 0x85 (word32 (packNat [(b, 0, 8), (g, 8, 16)]))] }))) := by
  have goes : (s.dev.generationDone b && s.dev.fairwayOn) = true := by rw [done, on]; rfl
  have replied := Dev.reply_of_room (d := s.dev.endGeneration b g) on room 0x85 [packNat [(b, 0, 8), (g, 8, 16)]]
  rw [List.flatMap_singleton] at replied
  refine congrArg Host.Outcome.next ?_
  simp only [State.onDev, if_pos goes, own, Option.getD_some]
  exact congrArg (fun d => { s with dev := d }) replied

/-! ### Replies and IDLE (R213, R237, R238) -/

theorem overflowPacket_length (s : State) : (overflowPacket s).length ≤ 8 := by
  unfold overflowPacket
  split
  · exact Nat.zero_le 8
  · exact Nat.le_refl 8

/-- The replies that the next REPLY frame carries, and those that wait on. -/
def nextReplies (s : State) : List Bytes × List Bytes := fitReplies (overflowPacket s).length s.dev.fw.replies

/-- The payload of the next REPLY frame. -/
def replyBody (s : State) : Bytes := overflowPacket s ++ (nextReplies s).1.flatten

/-- The next REPLY frame, and the next IDLE frame. -/
def replyOut (s : State) : Bytes := s.frameOut 4 (replyBody s).length s.dev.fw.txNext [] (replyBody s)

def idleOut (s : State) : Bytes := s.frameOut 0 0 0 [] []

theorem exec_replyFrame_reply {s : State} (on : s.dev.txOn = true) (ready : s.dev.replyReady = true) :
    exec .replyFrame s = .next (s.onDev (fun d => { d with
      link := d.link.sendFrame (replyOut s)
      fw := { d.fw with
        txFrame := replyOut s, txNext := d.fw.txNext + 1, replies := (nextReplies s).2, overflow := 0, sinceReply := 0 } })) := by
  have goes : ¬ (!s.dev.txOn || (s.dev.witnessReady && !s.dev.replyReady)) = true := by simp [on, ready]
  refine congrArg Host.Outcome.next (((if_neg goes).trans (if_pos ready)).trans ?_)
  simp only [State.sendNumbered, State.onDev, Dev.onFw, Dev.onLink]
  rfl

theorem exec_replyFrame_witness {s : State} (witness : s.dev.witnessReady = true) (no : s.dev.replyReady = false) :
    exec .replyFrame s = .next s := by
  have waits : (!s.dev.txOn || (s.dev.witnessReady && !s.dev.replyReady)) = true := by simp [witness, no]
  exact congrArg Host.Outcome.next (if_pos waits)

theorem exec_replyFrame_idle {s : State} (on : s.dev.txOn = true) (witness : s.dev.witnessReady = false)
    (no : s.dev.replyReady = false) : exec .replyFrame s = .next (s.onDev (fun d => { d with
      link := d.link.sendFrame (idleOut s)
      fw := { d.fw with txFrame := idleOut s, sinceReply := Nat.min 32 (d.fw.sinceReply + 1) } })) := by
  have goes : ¬ (!s.dev.txOn || (s.dev.witnessReady && !s.dev.replyReady)) = true := by simp [on, witness]
  have idle : ¬ s.dev.replyReady = true := (Bool.not_eq_true _).mpr no
  refine congrArg Host.Outcome.next (((if_neg goes).trans (if_neg idle)).trans ?_)
  simp only [State.sendPlain, State.onDev, Dev.onFw, Dev.onLink]
  rfl

/-- What a REPLY frame holds: the oldest replies in order, as many as fit behind the OVERFLOW packet. -/
theorem replyBody_spec (s : State) : s.dev.fw.replies = (nextReplies s).1 ++ (nextReplies s).2 ∧ (replyBody s).length ≤ 2048 ∧
    (∀ p ∈ s.dev.fw.replies.head?, (overflowPacket s).length + p.length ≤ 2048 → (nextReplies s).1 ≠ []) ∧
    ∀ p ∈ (nextReplies s).2.head?, 2048 < (replyBody s).length + p.length := by
  have small : (overflowPacket s).length ≤ 2048 := (overflowPacket_length s).trans (by decide)
  rw [replyBody, List.length_append]
  exact ⟨fitReplies_split _ _, fitReplies_fits _ small, fun p first => fitReplies_first first, fitReplies_full _ _⟩

/-! ### Witness slots (R239) -/

section
variable {s : State} {bb : List BbufErr}

theorem witnessReady_of_waits (on : s.dev.txOn = true) (set : s.dev.link.txSet = 3) (number : s.dev.mayNumber = true)
    (waits : s.dev.witnessWaits = true) : s.dev.witnessReady = true := by
  rw [Dev.witnessReady, on, set, number, waits]
  rfl

/-- A witness slot carries a drive payload of the frame lit that is left, -/
theorem exec_witnessFrame_late {k : Nat} {bs : Bytes} {rest : List (Nat × Bytes)} (ready : s.dev.witnessReady = true)
    (late : s.dev.wit.late = (k, bs) :: rest) : exec (.witnessFrame bb) s = .next (s.sendLate k bs bb) := by
  simp only [exec, execWitnessFrame, ready, late, Bool.not_true, Bool.false_eq_true, if_false]

/-- else its statistics, -/
theorem exec_witnessFrame_stats (ready : s.dev.witnessReady = true) (late : s.dev.wit.late = [])
    (due : s.dev.wit.statsDue = true) : exec (.witnessFrame bb) s = .next s.sendStats := by
  simp only [exec, execWitnessFrame, ready, late, due, Bool.not_true, Bool.false_eq_true, if_false, if_true]

/-- else the next drive payload of the frame in composition. -/
theorem exec_witnessFrame_drive (ready : s.dev.witnessReady = true) (late : s.dev.wit.late = [])
    (due : s.dev.wit.statsDue = false) : exec (.witnessFrame bb) s = .next (s.sendDrive bb) := by
  simp only [exec, execWitnessFrame, ready, late, due, Bool.not_true, Bool.false_eq_true, if_false]

end

/-- From `s` a WITNESS frame has gone out for frame `tick` with payload `k`, after the errors of the back buffer that `u` has reported. -/
structure WitnessSent (s u t : State) (tick k : Nat) (wit : Wit) : Prop where
  store : SameStore s t
  type : t.dev.fw.txFrame.take 1 = [5]
  fields : slice t.dev.fw.txFrame 8 6 = toBe 4 tick ++ toBe 2 k
  link : t.dev.link = s.dev.link.sendFrame t.dev.fw.txFrame
  fw : t.dev.fw = { s.dev.fw with
    txFrame := t.dev.fw.txFrame, txNext := s.dev.fw.txNext + 1, sinceReply := Nat.min 32 (s.dev.fw.sinceReply + 1) }
  wit : t.dev.wit = wit
  dev : t.dev = { u.dev with fw := t.dev.fw, link := t.dev.link, wit := t.dev.wit }

theorem witnessSent_of_out {s u : State} (store : SameStore s u) (errors : OnlyBbuf s.dev u.dev) (tick k gen : Nat) (bs : Bytes)
    (g : Wit → Wit) : WitnessSent s u (u.witnessOut (witnessFields tick k gen) bs g) tick k
      (g { s.dev.wit with frames := Nat.min 0xFFFFFFFF (s.dev.wit.frames + 1) }) := by
  obtain ⟨pending, otp, mem, cells, lat⟩ := store
  have own := errors.dev
  rw [State.witnessOut_eq]
  refine ⟨⟨pending, otp, mem, cells, lat⟩, u.frameOut_type .., u.frameOut_witness .., ?_, ?_, ?_, rfl⟩
  all_goals
    simp only [State.onDev_dev]
    rw [own]

/-- The state once the errors that a slot finds for payload `k` are reported. -/
def reported (s : State) (report : Dev → BbufErr → Dev) (k : Nat) (bb : List BbufErr) : State :=
  s.onDev (fun d => (inPayload k bb).foldl report d)

/-- A drive payload of the frame lit. -/
theorem sendLate_sends (s : State) (k : Nat) (bs : Bytes) (bb : List BbufErr) :
    WitnessSent s (reported s Dev.bbufFound k bb) (s.sendLate k bs bb) s.dev.wit.stats.tick k
      { s.dev.wit with frames := Nat.min 0xFFFFFFFF (s.dev.wit.frames + 1), late := s.dev.wit.late.drop 1 } := by
  have store : SameStore s (reported s Dev.bbufFound k bb) := ⟨rfl, rfl, rfl, rfl, rfl⟩
  have errors : OnlyBbuf s.dev (reported s Dev.bbufFound k bb).dev := OnlyBbuf.found s.dev (inPayload k bb)
  have stats : (reported s Dev.bbufFound k bb).dev.wit.stats = s.dev.wit.stats := by
    rw [errors.dev]
  rw [← stats]
  exact witnessSent_of_out (u := reported s _ k bb) store errors _ k _ _ (fun w => { w with late := w.late.drop 1 })

/-- The statistics of the frame lit. -/
theorem sendStats_sends (s : State) : WitnessSent s s s.sendStats s.dev.wit.stats.tick 1056
    { s.dev.wit with
      frames := Nat.min 0xFFFFFFFF (s.dev.wit.frames + 1), statsDue := false, lastTick := s.dev.wit.stats.tick } :=
  witnessSent_of_out ⟨rfl, rfl, rfl, rfl, rfl⟩ ⟨rfl, fun _ h => h, fun _ h => h⟩ _ _ _ _
    (fun w => { w with statsDue := false, lastTick := s.dev.wit.stats.tick })

/-- The next drive payload of the frame in composition. -/
theorem sendDrive_sends (s : State) (bb : List BbufErr) :
    WitnessSent s (reported s Dev.bbufError s.dev.wit.next bb) (s.sendDrive bb) ((s.dev.comp.tick + 1) % 2 ^ 32) s.dev.wit.next
      { s.dev.wit with frames := Nat.min 0xFFFFFFFF (s.dev.wit.frames + 1), next := s.dev.wit.next + 1 } := by
  have store : SameStore s (reported s Dev.bbufError s.dev.wit.next bb) := ⟨rfl, rfl, rfl, rfl, rfl⟩
  have errors : OnlyBbuf s.dev (reported s Dev.bbufError s.dev.wit.next bb).dev := OnlyBbuf.errors s.dev _
  have comp : (reported s Dev.bbufError s.dev.wit.next bb).dev.comp = s.dev.comp := by
    rw [errors.dev]
  rw [← comp]
  exact witnessSent_of_out (u := reported s _ s.dev.wit.next bb) store errors _ _ _ _ (fun w => { w with next := s.dev.wit.next + 1 })

/-- An uncorrectable word of the payload reads as 0 from then on (R106). -/
theorem sendDrive_clears {s : State} {bb : List BbufErr} {e : BbufErr} (mem : e ∈ bb) (bad : e.bad = true)
    (own : e.p / 1024 = s.dev.wit.next) : SMap.get 0 (s.sendDrive bb).dev.eng.bbuf e.p = 0 := by
  have found : (inPayload s.dev.wit.next bb).any (fun x => x.bad && x.p == e.p) = true := by
    rw [List.any_eq_true]
    exact ⟨e, List.mem_filter.mpr ⟨mem, by simpa using own⟩, by simp [bad]⟩
  obtain ⟨word, -, -⟩ := Dev.foldl_bbufError_eng e.p (inPayload s.dev.wit.next bb) s.dev
  rw [(sendDrive_sends s bb).dev]
  exact word.trans (if_pos found)

/-- Settles O56: a slot carries replies, IDLE or a witness payload by the tests of the model; the header goes out as it is, in clear or
sealed, and the replies of a frame are the longest run that fits. -/
theorem creditsAndRepliesComplete : Obligations.CreditsAndRepliesComplete := by
  refine fun s => ⟨fun on => ?_, fun on held => ⟨fun full => ?_, fun room => ?_⟩, fun b => exec_generationComplete_off b,
    fun b g on own last whole written room => ?_, fun on => ⟨fun ready => ?_, exec_replyFrame_witness, fun witness no => ?_,
    fun set number waits bb => ?_⟩⟩
  · rw [Next, exec_linkThrottle on]
    refine ⟨_, rfl, ⟨rfl, rfl, rfl, rfl, rfl⟩, raises_of_evt ?_ ?_, rfl, rfl⟩
    · split <;> decide
    · rw [State.onDev_dev]
      cases s.dev.fw.throttled <;> rfl
  · have returns := Fw.freeVc0_returns (f := { s.dev.fw with held0 := s.dev.fw.held0 - 1 }) full
    rw [Next, exec_vc0BufferFree on held]
    exact ⟨_, rfl, ⟨rfl, rfl, rfl, rfl, rfl⟩, congrArg (fun f => { s.dev with fw := f }) returns⟩
  · have keeps := Fw.freeVc0_keeps (f := { s.dev.fw with held0 := s.dev.fw.held0 - 1 }) room
    rw [Next, exec_vc0BufferFree on held]
    exact ⟨_, rfl, ⟨rfl, rfl, rfl, rfl, rfl⟩, congrArg (fun f => { s.dev with fw := f }) keeps⟩
  · rw [Next, exec_generationComplete on own ((generationDone_iff own).mpr ⟨last, whole, written⟩) room]
    have self := s.dev.endGeneration_buf b g b
    rw [if_pos rfl] at self
    refine ⟨_, rfl, ⟨rfl, rfl, rfl, rfl, rfl⟩, congrArg Buf.ready self, congrArg Buf.hasReady self, congrArg Buf.gen self,
      fun c other => ?_, rfl⟩
    exact (s.dev.endGeneration_buf b g c).trans (if_neg other)
  · rw [Next, exec_replyFrame_reply on ready]
    obtain ⟨split, fits, first, full⟩ := replyBody_spec s
    have type : (replyOut s).take 1 = [4] := s.frameOut_type ..
    exact ⟨_, rfl, ⟨rfl, rfl, rfl, rfl, rfl⟩, type, ⟨_, replyBody s, split, rfl, fits, first, full, rfl,
      s.frameOut_payload _ _ (replyBody s)⟩, rfl⟩
  · rw [Next, exec_replyFrame_idle on witness no]
    have type : (idleOut s).take 1 = [0] := s.frameOut_type ..
    have limits : slice (idleOut s) 6 2 = [BitVec.ofNat 8 s.dev.fw.limit0, BitVec.ofNat 8 s.dev.fw.limit1] := by
      rw [idleOut, s.frameOut_limits, Fw.limits_eq]
    exact ⟨_, rfl, ⟨rfl, rfl, rfl, rfl, rfl⟩, type, limits, rfl⟩
  · have ready := witnessReady_of_waits on set number waits
    cases late : s.dev.wit.late with
    | cons x rest =>
      obtain ⟨k, bs⟩ := x
      have sent := sendLate_sends s k bs bb
      refine ⟨_, exec_witnessFrame_late ready late, sent.store, sent.type, sent.link, sent.fw, fun k' bs' rest' same => ?_, nofun, nofun,
        fun clean => ?_⟩
      · obtain ⟨⟨rfl, rfl⟩, rfl⟩ : (k = k' ∧ bs = bs') ∧ rest = rest' := by simpa using same
        refine ⟨sent.fields, ?_⟩
        rw [sent.wit, late]
        rfl
      · subst clean
        exact sent.dev
    | nil =>
      cases due : s.dev.wit.statsDue with
      | true =>
        have sent := sendStats_sends s
        refine ⟨_, exec_witnessFrame_stats ready late due, sent.store, sent.type, sent.link, sent.fw, nofun,
          fun _ _ => ⟨sent.fields, ?_⟩, nofun, fun _ => sent.dev⟩
        rw [← sent.wit]
        exact sent.dev
      | false =>
        have sent := sendDrive_sends s bb
        refine ⟨_, exec_witnessFrame_drive ready late due, sent.store, sent.type, sent.link, sent.fw, nofun, nofun,
          fun _ _ => ⟨sent.fields, sent.wit, ?_⟩, fun clean => ?_⟩
        · exact fun e mem bad own => sendDrive_clears mem bad own
        · subst clean
          exact sent.dev

end Sys2Proof.Proofs

/-! ## Receive lanes under blocks and losses (R191 to R193, R196, R199) -/

namespace Sys2Proof.Machine

theorem updNth_length {α : Type} (f : α → α) : ∀ (l : List α) (i : Nat), (updNth l i f).length = l.length
  | [], _ => rfl
  | _ :: _, 0 => rfl
  | _ :: l, i + 1 => congrArg (· + 1) (updNth_length f l i)

theorem updNth_of_le {α : Type} (f : α → α) : ∀ {l : List α} {i : Nat}, l.length ≤ i → updNth l i f = l
  | [], _, _ => rfl
  | x :: _, _ + 1, h => congrArg (x :: ·) (updNth_of_le f (Nat.le_of_succ_le_succ h))

theorem nth_updNth_ne {α : Type} (dflt : α) (f : α → α) : ∀ {l : List α} {i j : Nat}, j ≠ i →
    nth dflt (updNth l i f) j = nth dflt l j
  | [], _, _, _ => rfl
  | _ :: _, 0, 0, h => absurd rfl h
  | _ :: _, 0, _ + 1, _ => rfl
  | _ :: _, _ + 1, 0, _ => rfl
  | _ :: _, i + 1, j + 1, h => nth_updNth_ne dflt f (i := i) (j := j) (fun e => h (congrArg (· + 1) e))

theorem Link.lane_onLane {l : Link} {n : Nat} (lt : n < l.lanes.length) (f : Lane → Lane) : (l.onLane n f).lane n = f (l.lane n) :=
  nth_updNth ({} : Lane) f lt

theorem Link.lane_onLane_ne (l : Link) {n m : Nat} (ne : m ≠ n) (f : Lane → Lane) : (l.onLane n f).lane m = l.lane m :=
  nth_updNth_ne ({} : Lane) f ne

/-- What a change of one lane leaves alone in every lane it is given, it leaves alone in all. -/
theorem Link.onLane_keeps {α : Type} (p : Lane → α) {f : Lane → Lane} (kept : ∀ x, p (f x) = p x) (l : Link) (n m : Nat) :
    p ((l.onLane n f).lane m) = p (l.lane m) := by
  by_cases own : m = n
  · subst own
    by_cases lt : m < l.lanes.length
    · rw [Link.lane_onLane lt, kept]
    · rw [Link.onLane, updNth_of_le f (Nat.le_of_not_lt lt)]
  · rw [Link.lane_onLane_ne l own]

theorem Link.lane_lt_of_locked {l : Link} {n : Nat} (locked : (l.lane n).locked = true) : n < l.lanes.length := by
  by_contra ge
  rw [Link.lane, nth, List.getD_eq_default _ _ (Nat.le_of_not_lt ge)] at locked
  exact Bool.noConfusion locked

/-! ### Blocks leave what the link goes by -/

/-- The lanes of `l'` stand as those of `l`: as many, and locked, skewed and restored alike. -/
structure SameLocks (l l' : Link) : Prop where
  length : l'.lanes.length = l.lanes.length
  locked : ∀ n, (l'.lane n).locked = (l.lane n).locked
  skew : ∀ n, (l'.lane n).skew = (l.lane n).skew
  restoreRun : ∀ n, (l'.lane n).restoreRun = (l.lane n).restoreRun

namespace SameLocks

theorem of_lanes {l l' : Link} (h : l'.lanes = l.lanes) : SameLocks l l' := by
  have lane : ∀ n, l'.lane n = l.lane n := fun n => congrArg (nth ({} : Lane) · n) h
  exact ⟨congrArg _ h, fun n => by rw [lane], fun n => by rw [lane], fun n => by rw [lane]⟩

theorem trans {a b c : Link} (h : SameLocks a b) (h' : SameLocks b c) : SameLocks a c :=
  ⟨h'.length.trans h.length, fun n => (h'.locked n).trans (h.locked n), fun n => (h'.skew n).trans (h.skew n),
    fun n => (h'.restoreRun n).trans (h.restoreRun n)⟩

theorem onLane (l : Link) (n : Nat) {f : Lane → Lane} (locked : ∀ x, (f x).locked = x.locked) (skew : ∀ x, (f x).skew = x.skew)
    (run : ∀ x, (f x).restoreRun = x.restoreRun) : SameLocks l (l.onLane n f) :=
  ⟨updNth_length .., l.onLane_keeps Lane.locked locked n, l.onLane_keeps Lane.skew skew n, l.onLane_keeps Lane.restoreRun run n⟩

theorem take (l : Link) (lane : Nat) (block : Line) : SameLocks l (l.take lane block) := by
  unfold Link.take
  split
  · exact onLane l lane (fun _ => rfl) (fun _ => rfl) (fun _ => rfl)
  · exact of_lanes rfl

theorem hear (l : Link) (lane : Nat) (set : Bytes) : SameLocks l (l.hear lane set) := by
  unfold Link.hear
  split <;> exact of_lanes rfl

theorem takeSet (l : Link) (lane : Nat) (block : Line) : SameLocks l (l.takeSet lane block) := (take ..).trans (hear ..)

theorem adapt (l : Link) (lane : Nat) (x : Adapt) : SameLocks l (l.adapt lane x) := by
  unfold Link.adapt
  split
  · exact onLane l lane (fun _ => rfl) (fun _ => rfl) (fun _ => rfl)
  · exact onLane l lane (fun _ => rfl) (fun _ => rfl) (fun _ => rfl)
  · exact of_lanes rfl

variable {l l' : Link} (h : SameLocks l l')
include h

theorem validSet (lane ty : Nat) (set : Bytes) : l'.validSet lane ty set = l.validSet lane ty set := by
  rw [Link.validSet, h.locked, Link.validSet]

theorem countLane : l'.countLane = l.countLane := by
  simp only [Link.countLane, h.locked]

theorem good (n : Nat) : (l'.lane n).good = (l.lane n).good := by
  rw [Lane.good, h.locked, h.skew, Lane.good]

theorem goodLanes : l'.goodLanes = l.goodLanes := by
  simp only [Link.goodLanes, h.good]

end SameLocks

/-! ### What a block of an ordered set changes -/

theorem Link.take_eq (l : Link) (lane : Nat) (block : Line) :
    l.take lane block = { l with lanes := (l.take lane block).lanes } := by
  unfold Link.take
  split <;> rfl

theorem Link.takeSet_eq (l : Link) (lane : Nat) (block : Line) : l.takeSet lane block =
    { l with lanes := (l.takeSet lane block).lanes, hostGood := (l.takeSet lane block).hostGood } := by
  unfold Link.takeSet Link.hear
  rw [l.take_eq]
  split <;> rfl

theorem Link.takeSet_keeps {α : Type} (p : Link → α) (kept : ∀ l ls good, p { l with lanes := ls, hostGood := good } = p l)
    (l : Link) (lane : Nat) (block : Line) : p (l.takeSet lane block) = p l := by
  rw [Link.takeSet_eq, kept]

/-- RXGOOD of a valid set becomes HOST_GOOD, whatever its type (R196, R209). -/
theorem Link.takeSet_hostGood (l : Link) (lane : Nat) (block : Line) {ty : Nat} (own : ty = 0xA5 ∨ ty = 0xB6 ∨ ty = 0xC7)
    (valid : l.validSet lane ty (lineSet lane block) = true) :
    (l.takeSet lane block).hostGood = setByte (lineSet lane block) 6 % 4 := by
  rw [Link.takeSet, Link.hear, if_pos]
  rw [(SameLocks.take l lane block).validSet, (SameLocks.take l lane block).validSet, (SameLocks.take l lane block).validSet]
  rcases own with rfl | rfl | rfl <;> simp [valid]

theorem takeSet_heard (s : State) (lane : Nat) (block : Line) :
    (s.dev.link.takeSet lane block).hostGood = Claims.heard s lane (lineSet lane block) := by
  have locks := SameLocks.take s.dev.link lane block
  simp only [Link.takeSet, Link.hear, locks.validSet, Claims.heard, Bool.or_eq_true, or_assoc]
  split
  · rfl
  · rw [Link.take_eq]

end Sys2Proof.Machine

namespace Sys2Proof.Proofs

open Sys2Proof Sys2Proof.Machine Sys2Proof.Claims

/-- A command that changes the blocks alone, to `d`. -/
theorem next_onDev {c : Instr} {s : State} {f : Dev → Dev} {d : Dev} {P : State → Prop} (run : exec c s = .next (s.onDev f))
    (same : f s.dev = d) (spec : P { s with dev := d }) : Next c s (fun t => SameStore s t ∧ P t) :=
  ⟨s.onDev f, run, ⟨rfl, rfl, rfl, rfl, rfl⟩, by rwa [State.onDev, same]⟩

/-- The blocks once a block of an ordered set has been received on a lane, where nothing counts it: the lanes `ls`, and HOST_GOOD. -/
def heardBlock (s : State) (ls : List Lane) (lane : Nat) (set : Bytes) : Dev :=
  { s.dev with link := { s.dev.link with lanes := ls, hostGood := heard s lane set } }

theorem onLink_takeSet (s : State) (lane : Nat) (block : Line) : s.dev.onLink (fun l => l.takeSet lane block) =
    heardBlock s (s.dev.link.takeSet lane block).lanes lane (lineSet lane block) := by
  rw [heardBlock, ← takeSet_heard]
  exact congrArg (fun l => { s.dev with link := l }) (Link.takeSet_eq ..)

end Sys2Proof.Proofs

/-! ## Training (O47, O49) -/

namespace Sys2Proof.Machine

/-! ### Into BACKOFF (R198, R206) -/

/-- The link in BACKOFF, its training failed for `reason`. -/
def Link.fallBack (now reason : Nat) (l : Link) : Link :=
  { l.detect now with
    state := .backoff, fails := satInc 255 l.fails, lastFail := reason, backoffMs := Nat.min 64 (2 * l.backoffMs) }

/-- Training that fails changes the link alone, with event 28 and its message. -/
theorem Dev.backoff_training {d : Dev} (training : d.link.carries = false) {reason : Nat} (own : reason ≠ 5) :
    d.backoff reason = ((d.onLink (Link.fallBack d.now reason)).raise 28).send 0xC5
      (if reason ≠ 3 ∧ d.link.beenActive = false then 0x1D else 0x1A)
      (if reason ≠ 3 ∧ d.link.beenActive = false then 0 else 1) reason := by
  unfold Dev.backoff
  rw [training]
  simp only [Bool.false_eq_true, if_false, if_neg own]
  split <;> rfl

/-! ### A lane that loses lock (R192) -/

/-- Lane `n` has lost lock for cause `c`. -/
def Link.loseLane (n : Nat) (c : LossCause) (l : Link) : Link :=
  { l.onLane n (fun x => { (x.takeCause c).unlock with losses := satInc 255 x.losses, restoreRun := 0 }) with eqRun := 0, agreeRun := 0 }

theorem Link.goodLanes_loseLane {l : Link} {n : Nat} (locked : (l.lane n).locked = true) (c : LossCause) :
    (l.loseLane n c).goodLanes = l.goodLanes.filter (· != n) := by
  simp only [Link.goodLanes, List.filter_filter]
  refine List.filter_congr fun m _ => ?_
  by_cases own : m = n
  · subst own
    have lost : ((l.loseLane m c).lane m).locked = false :=
      congrArg Lane.locked (Link.lane_onLane (Link.lane_lt_of_locked locked) _)
    simp [Lane.good, lost]
  · have kept : (l.loseLane n c).lane m = l.lane m := l.lane_onLane_ne own _
    simp [kept, own]

/-- A loss of lock: the link's own lane begins a change of width, the last good one ends TRAIN_B (R192, R197, R201). -/
theorem Dev.laneLoss_eq {d : Dev} {n : Nat} {c : LossCause} (on : d.fairwayOn = true) (lt : n < 4)
    (locked : (d.link.lane n).locked = true) (loses : d.link.loses n c = true) :
    d.laneLoss n c =
      if d.link.carries && d.link.uses n then (d.onLink (Link.loseLane n c)).laneLost n
      else if d.link.state == .trainB && (d.link.goodLanes.filter (· != n)).isEmpty then (d.onLink (Link.loseLane n c)).backoff 3
      else d.onLink (Link.loseLane n c) := by
  have heard : ¬ (!(d.fairwayOn && decide (n < 4) && (d.link.lane n).locked && d.link.loses n c)) = true := by
    simp [on, lt, locked, loses]
  rw [← Link.goodLanes_loseLane locked c]
  exact if_neg heard

end Sys2Proof.Machine

namespace Sys2Proof.Proofs

open Sys2Proof Sys2Proof.Machine Sys2Proof.Claims

/-- Training that fails after a change `g` of the link that keeps what BACKOFF goes by. -/
theorem backedOff {s : State} {g : Link → Link} {reason : Nat} (own : reason ≠ 5) (training : (g s.dev.link).carries = false)
    (fails : (g s.dev.link).fails = s.dev.link.fails) (wait : (g s.dev.link).backoffMs = s.dev.link.backoffMs)
    (been : (g s.dev.link).beenActive = s.dev.link.beenActive) :
    let t : State := { s with dev := (s.dev.onLink g).backoff reason }
    Raises s t [28] ∧
      Sends s t [if reason ≠ 3 ∧ s.dev.link.beenActive = false then mkMsg 0xC5 0x1D 0 reason else mkMsg 0xC5 0x1A 1 reason] ∧
      BackedOff s t reason := by
  have fell := Dev.backoff_training (d := s.dev.onLink g) training own
  rw [Dev.onLink_link, been] at fell
  refine ⟨raises_one (n := 28) ?_ rfl, ?_, ?_⟩
  · rw [fell]
    rfl
  · rw [Sends, fell]
    split <;> rfl
  · rw [BackedOff, fell]
    refine ⟨rfl, rfl, rfl, rfl, ?_, ?_, rfl⟩
    · exact (congrArg (satInc 255) fails).trans (satInc_eq_min ..)
    · exact congrArg (fun n => Nat.min 64 (2 * n)) wait

end Sys2Proof.Proofs

namespace Sys2Proof.Machine

/-! ### Skew (R193) -/

/-- Where the first comma of a block arrives on a locked lane, in UI. -/
def Link.earliest (l : Link) (arrivals : List Nat) : Nat :=
  (((List.range 4).filter (fun n => (l.lane n).locked)).map (nth 0 arrivals)).foldl Nat.min (nth 0 arrivals l.countLane)

theorem Link.lane_measure (l : Link) (arrivals : List Nat) (n : Nat) : (l.measure arrivals).lane n =
    if (l.lane n).locked then { l.lane n with skew := Nat.min 127 (nth 0 arrivals n - l.earliest arrivals) } else l.lane n := by
  simp only [Link.measure, Link.lane, nth, List.getD_eq_getElem?_getD, List.getElem?_mapIdx]
  cases l.lanes[n]? with
  | none => rfl
  | some x => rfl

theorem SameLocks.measure {l l' : Link} (h : SameLocks l l') (arrivals : List Nat) :
    SameLocks (l.measure arrivals) (l'.measure arrivals) := by
  have first : l'.earliest arrivals = l.earliest arrivals := by simp only [Link.earliest, h.locked, h.countLane]
  refine ⟨?_, fun n => ?_, fun n => ?_, fun n => ?_⟩
  · simp only [Link.measure, List.length_mapIdx, h.length]
  all_goals
    rw [Link.lane_measure, Link.lane_measure, h.locked, first]
    split
  exacts [h.locked n, h.locked n, rfl, h.skew n, h.restoreRun n, h.restoreRun n]

theorem Link.countLane_measure (l : Link) (arrivals : List Nat) : (l.measure arrivals).countLane = l.countLane := by
  have locked : ∀ n, ((l.measure arrivals).lane n).locked = (l.lane n).locked := by
    intro n
    rw [Link.lane_measure]
    split <;> rfl
  simp only [Link.countLane, locked]

/-! ### Blocks of TRAIN_B (R197, R199) -/

/-- A valid set of FTS-B received on the lane that counts, before it is counted. -/
def Link.hearB (lane : Nat) (block : Line) (arrivals : List Nat) (l : Link) : Link :=
  { (l.takeSet lane block).measure arrivals with partnerGood := setByte (lineSet lane block) 6 % 16 }

theorem Link.hearB_eq (lane : Nat) (block : Line) (arrivals : List Nat) (l : Link) : l.hearB lane block arrivals =
    { l with
      lanes := (l.hearB lane block arrivals).lanes, hostGood := (l.takeSet lane block).hostGood
      partnerGood := setByte (lineSet lane block) 6 % 16 } := by
  unfold Link.hearB Link.measure
  rw [l.takeSet_eq]

/-- A block of TRAIN_B: without a set of good lanes it ends the training, else it is counted. -/
theorem Dev.ftsB_valid {d : Dev} {lane : Nat} {block : Line} (on : d.fairwayOn = true) (st : d.link.state = .trainB)
    (valid : d.link.validSet lane 0xB6 (lineSet lane block) = true) (counts : lane = d.link.countLane) (arrivals : List Nat)
    {rx tx : Nat} (rxSet : rx = usedSet (d.link.measure arrivals).goodLanes) (txSet : tx = usedTx (setByte (lineSet lane block) 6)) :
    d.ftsB lane block arrivals =
      let heard := d.onLink (Link.hearB lane block arrivals)
      if rx = 0 ∨ tx = 0 then heard.backoff 3
      else
        let counted := heard.onLink (fun l => l.blockB (lineSet lane block) rx tx)
        if counted.link.agreeRun = 16 ∧ counted.link.sentRun = 16 then counted.arrive rx tx else counted := by
  have locks := SameLocks.takeSet d.link lane block
  have good : ((d.link.takeSet lane block).measure arrivals).goodLanes = (d.link.measure arrivals).goodLanes :=
    (locks.measure arrivals).goodLanes
  have here : ((d.link.takeSet lane block).measure arrivals).countLane = lane := by
    rw [Link.countLane_measure, locks.countLane, counts]
  subst rxSet txSet
  simp only [Dev.ftsB, on, st, valid, Dev.onLink_link, here, good, Bool.not_true, bne_self_eq_false, Bool.false_eq_true, if_false]
  rfl

end Sys2Proof.Machine

namespace Sys2Proof.Proofs

open Sys2Proof Sys2Proof.Machine Sys2Proof.Claims

theorem exec_trainingTimeout {s : State} {c : Instr} {st : LinkState} {reason : Nat} (own :
      (c = .detectTimeout ∧ st = .detect ∧ reason = 1) ∨ (c = .trainATimeout ∧ st = .trainA ∧ reason = 2) ∨
        (c = .trainBTimeout ∧ st = .trainB ∧ reason = 4)) (state : s.dev.link.state = st) :
    exec c s = .next (s.onDev (fun d => (d.onLink id).backoff reason)) := by
  rcases own with ⟨rfl, rfl, rfl⟩ | ⟨rfl, rfl, rfl⟩ | ⟨rfl, rfl, rfl⟩
  all_goals
    refine congrArg Host.Outcome.next ?_
    rw [State.onDev, state]
    rfl

theorem exec_backoffEnd {s : State} (state : s.dev.link.state = .backoff) :
    exec .backoffEnd s = .next (s.onDev (fun d => d.onLink (Link.detect d.now))) := by
  refine congrArg Host.Outcome.next ?_
  rw [State.onDev, state]
  rfl

/-- Settles O47: every failure of training is one entry into BACKOFF, after what the block or the loss has changed. -/
theorem trainingTimeoutsBackOff : Obligations.TrainingTimeoutsBackOff := by
  refine fun s => ⟨fun c st reason own state => ?_, fun lane block set arrivals on state same valid counts none => ?_,
    fun n c on state lt locked loses others len => ?_, fun state => ?_⟩
  · obtain ⟨training, reasons⟩ : s.dev.link.carries = false ∧ (reason = 1 ∨ reason = 2 ∨ reason = 4) := by
      rw [Link.carries, state]
      rcases own with ⟨-, rfl, rfl⟩ | ⟨-, rfl, rfl⟩ | ⟨-, rfl, rfl⟩ <;> decide
    have msg : (if reason ≠ 3 ∧ s.dev.link.beenActive = false then mkMsg 0xC5 0x1D 0 reason else mkMsg 0xC5 0x1A 1 reason) =
        if s.dev.link.beenActive then mkMsg 0xC5 0x1A 1 reason else mkMsg 0xC5 0x1D 0 reason := by
      have early : reason ≠ 3 := by omega
      cases s.dev.link.beenActive <;> simp [early]
    rw [← msg]
    exact next_onDev (exec_trainingTimeout own state) rfl (backedOff (g := id) (by omega) training rfl rfl rfl)
  · subst same
    have lost := Dev.ftsB_valid on state valid counts arrivals rfl rfl
    rw [if_pos none] at lost
    refine next_onDev rfl lost (backedOff (g := Link.hearB lane block arrivals) (by decide) ?_ ?_ ?_ ?_)
    all_goals rw [Link.hearB_eq]
    rw [Link.carries, state]
    rfl
  · have alone : s.dev.link.goodLanes.filter (· != n) = [] := by
      rw [List.filter_eq_nil_iff]
      intro m mem
      obtain ⟨lt', good⟩ : m < 4 ∧ (s.dev.link.lane m).good = true := by simpa [Link.goodLanes] using mem
      by_contra other
      exact Bool.noConfusion (good.symm.trans (others m lt' (by simpa using other)))
    have training : s.dev.link.carries = false := by rw [Link.carries, state]; rfl
    have lost := Dev.laneLoss_eq on lt locked loses
    rw [training, Bool.false_and, if_neg Bool.false_ne_true, state, alone, if_pos (by decide)] at lost
    exact next_onDev rfl lost (backedOff (g := Link.loseLane n c) (by decide) training rfl rfl rfl)
  · refine next_onDev (exec_backoffEnd state) rfl ⟨rfl, rfl, rfl, ?_, rfl⟩
    intro l mem
    obtain ⟨x, -, rfl⟩ := List.mem_map.mp mem
    rfl

end Sys2Proof.Proofs

/-! ## Training reaches ACTIVE (O49) -/

namespace Sys2Proof.Machine

/-- A change of every listed value reaches the one that `k` reads as, in any map, where neither it nor the outcome is the unlisted value. -/
theorem SMap.get_mapAll_of_ne {α : Type} [DecidableEq α] (dflt : α) (f : Nat → α → α) {k : Nat} : ∀ {m : SMap α},
    SMap.get dflt m k ≠ dflt → f k (SMap.get dflt m k) ≠ dflt → SMap.get dflt (SMap.mapAll dflt f m) k = f k (SMap.get dflt m k)
  | [], listed, _ => absurd rfl listed
  | (a, b) :: m, listed, stays => by
    have rest := SMap.get_mapAll_of_ne dflt f (k := k) (m := m)
    simp only [SMap.mapAll, List.map_cons, List.filter_cons, SMap.get] at rest listed stays ⊢
    by_cases own : k = a
    · subst own
      rw [if_pos rfl] at listed stays ⊢
      rw [if_pos (decide_eq_true stays), SMap.get, if_pos rfl]
    · rw [if_neg own] at listed stays ⊢
      rw [← rest listed stays]
      split
      · rw [SMap.get, if_neg own]
      · rfl

/-! ### Blocks of FTS-A (R194, R197) -/

/-- A block of FTS-A received, before it is counted. -/
def Link.hearA (lane : Nat) (block : Line) (x : Adapt) (l : Link) : Link := (l.takeSet lane block).adapt lane x

theorem Link.hearA_eq (lane : Nat) (block : Line) (x : Adapt) (l : Link) : l.hearA lane block x =
    { l with lanes := (l.hearA lane block x).lanes, hostGood := (l.takeSet lane block).hostGood } := by
  unfold Link.hearA Link.adapt
  rw [l.takeSet_eq]
  split <;> rfl

theorem SameLocks.hearA (lane : Nat) (block : Line) (x : Adapt) (l : Link) : SameLocks l (l.hearA lane block x) :=
  (takeSet ..).trans (adapt ..)

/-- What a block of FTS-A does in each state of the link. -/
theorem Dev.ftsA_eq {d : Dev} (on : d.fairwayOn = true) (lane : Nat) (block : Line) (x : Adapt) : d.ftsA lane block x =
    let set := lineSet lane block
    let valid := d.link.validSet lane 0xA5 set
    let heard := d.onLink (Link.hearA lane block x)
    match d.link.state with
    | .detect => if valid then heard.onLink Link.trainA else heard
    | .trainA =>
      if lane = d.link.countLane then heard.onLink (fun l => if valid then l.blockA set x.complete else l.breakA) else heard
    | .active => if bit ((d.link.attempt.map (·.1)).getD 0) lane then heard.restoreBlock lane set valid else heard
    | _ => heard := by
  have fold : (fun l : Link => (l.takeSet lane block).adapt lane x) = Link.hearA lane block x := rfl
  have state : (d.link.hearA lane block x).state = d.link.state := by rw [Link.hearA_eq]
  have attempt : (d.link.hearA lane block x).attempt = d.link.attempt := by rw [Link.hearA_eq]
  have here : (d.link.hearA lane block x).countLane = d.link.countLane := (SameLocks.hearA ..).countLane
  simp only [Dev.ftsA, on, fold, Dev.onLink_link, state, attempt, here, Bool.not_true, Bool.false_eq_true, if_false, beq_iff_eq]
  cases d.link.state <;> rfl

/-- The sixteenth block in a row with both ends' equalisation complete and the same good lanes ends TRAIN_A (R197). -/
theorem Link.blockA_sixteenth {l : Link} {set : Bytes} (run : l.eqRun = 15) (same : setByte set 6 % 16 = l.partnerGood)
    (complete : bit (setByte set 7) 0 = true) (asks0 : bit (setByte set 2) 7 = false) (asks1 : bit (setByte set 3) 7 = false) :
    (l.blockA set true).state = .trainB ∧ (l.blockA set true).agreeRun = 0 ∧ (l.blockA set true).hostGood = l.hostGood := by
  simp [Link.blockA, Link.request, run, same, complete, asks0, asks1]

/-! ### Arrival in ACTIVE (R198, R210, R221, R231, R364) -/

/-- The link ACTIVE on its sets. -/
def Link.arrived (rx tx : Nat) (l : Link) : Link := { l with
  state := .active, rxSet := rx, txSet := tx, trained := satInc 65535 l.trained, backoffMs := 1, fails := 0
  beenActive := true, rxSlots := 0, txSlots := 0, txSyms := [], txBlocks := [], rxSyms := [] }

/-- Traffic that begins again, with fresh credits. -/
def Fw.begun (f : Fw) : Fw := { f with
  limit0 := 8, limit1 := 32, exp0 := 0, exp1 := 0, held0 := 0, held1 := 0, kept0 := 0, kept1 := 0, rises := [], partPkt := none
  writes := f.writes.map (fun w => { w with owes := false }), bufs := SMap.mapAll {} (fun _ b => b.lose) f.bufs }

theorem Dev.arrive_eq (d : Dev) (rx tx : Nat) :
    d.arrive rx tx = ((d.onLink (Link.arrived rx tx)).onFw Fw.begun).endSession.raise 24 := rfl

theorem Dev.arrive_link (d : Dev) (rx tx : Nat) : (d.arrive rx tx).link = d.link.arrived rx tx := by
  obtain ⟨dev, -, -⟩ := ((d.onLink (Link.arrived rx tx)).onFw Fw.begun).endSession_frame
  rw [Dev.arrive_eq, dev]
  rfl

theorem Dev.arrive_ses (d : Dev) (rx tx : Nat) : (d.arrive rx tx).ses =
    { d.ses with keys := none, oldKeys := none, mode := 0, oldMode := 0, rekeySent := false, hs := none } := by
  obtain ⟨-, ses, -⟩ := ((d.onLink (Link.arrived rx tx)).onFw Fw.begun).endSession_frame
  exact ses

theorem Dev.arrive_fw (d : Dev) (rx tx : Nat) :
    (d.arrive rx tx).fw = { d.fw.begun with rxNext := 0, rxNextOld := 0, txNext := 0, partPkt := none } := by
  obtain ⟨-, -, fw⟩ := ((d.onLink (Link.arrived rx tx)).onFw Fw.begun).endSession_frame
  exact fw

/-- A generation of which the last frame has not come has lost frames (R231). -/
theorem Fw.begun_loses {f : Fw} {b : Nat} (own : (SMap.get {} f.bufs b).gen.isSome = true)
    (more : (SMap.get {} f.bufs b).gotLast = false) : (SMap.get {} f.begun.bufs b).lost = true := by
  have loses : (SMap.get {} f.bufs b).lose = { SMap.get {} f.bufs b with lost := true } := by simp [Buf.lose, own, more]
  have found := SMap.get_mapAll_of_ne {} (fun _ (x : Buf) => x.lose) (k := b) (m := f.bufs)
    (fun none => by rw [none] at own; exact Bool.noConfusion own)
    (fun none => Bool.noConfusion ((congrArg Buf.lost loses).symm.trans (congrArg Buf.lost none)))
  exact (congrArg Buf.lost found).trans (congrArg Buf.lost loses)

/-- The block that completes both runs of 16 brings ACTIVE (R197, R199). -/
theorem Dev.ftsB_arrives {d : Dev} {lane : Nat} {block : Line} (on : d.fairwayOn = true) (st : d.link.state = .trainB)
    (valid : d.link.validSet lane 0xB6 (lineSet lane block) = true) (counts : lane = d.link.countLane) (arrivals : List Nat)
    {rx tx : Nat} (rxSet : rx = usedSet (d.link.measure arrivals).goodLanes) (txSet : tx = usedTx (setByte (lineSet lane block) 6))
    (rx0 : rx ≠ 0) (tx0 : tx ≠ 0) (runs : 15 ≤ d.link.agreeRun) (sent : 15 ≤ d.link.sentRun) (agree : d.link.agree = true)
    (agrees : bit (setByte (lineSet lane block) 7) 1 = true) (names : setByte (lineSet lane block) 8 % 16 = tx)
    (names' : setByte (lineSet lane block) 9 % 16 = rx) : d.ftsB lane block arrivals =
      ((d.onLink (Link.hearB lane block arrivals)).onLink (fun l => l.blockB (lineSet lane block) rx tx)).arrive rx tx := by
  have kept : (d.link.hearB lane block arrivals).agreeRun = d.link.agreeRun ∧
      (d.link.hearB lane block arrivals).sentRun = d.link.sentRun ∧
      (d.link.hearB lane block arrivals).agree = d.link.agree := by
    rw [Link.hearB_eq]
    exact ⟨rfl, rfl, rfl⟩
  obtain ⟨runs', sent', agree'⟩ := kept
  have sixteen : ∀ n, 15 ≤ n → Nat.min 16 (n + 1) = 16 := fun n h => Nat.min_eq_left (by omega)
  have whole : ((d.link.hearB lane block arrivals).blockB (lineSet lane block) rx tx).agreeRun = 16 ∧
      ((d.link.hearB lane block arrivals).blockB (lineSet lane block) rx tx).sentRun = 16 := by
    simp [Link.blockB, agrees, names, names', runs', sent', agree', agree, sixteen _ runs, sixteen _ sent]
  rw [Dev.ftsB_valid on st valid counts arrivals rxSet txSet, if_neg (not_or.mpr ⟨rx0, tx0⟩)]
  exact if_pos whole

end Sys2Proof.Machine

namespace Sys2Proof.Proofs

open Sys2Proof Sys2Proof.Machine Sys2Proof.Claims

/-- Settles O49: the bits of a block read back, and what a block of each type does in each state of the link. -/
theorem trainingReachesActive : Obligations.TrainingReachesActive := by
  refine ⟨lineSet_blockLine, fun s lane block set on same => ?_⟩
  subst same
  have hostGood : s.dev.link.validSet lane 0xA5 (lineSet lane block) = true → ∀ x,
      (s.dev.link.hearA lane block x).hostGood = setByte (lineSet lane block) 6 % 4 := by
    intro valid x
    rw [Link.hearA_eq]
    exact s.dev.link.takeSet_hostGood lane block (.inl rfl) valid
  refine ⟨fun state valid x => ?_, fun state valid counts run same complete asks0 asks1 x done => ?_, fun state invalid counts x => ?_,
    fun arrivals rx tx state valid counts rxSet txSet rx0 tx0 runs sent agree agrees names names' => ?_, fun state arrivals => ?_⟩
  · have begins := Dev.ftsA_eq on lane block x
    simp only [state, valid, if_true] at begins
    exact next_onDev rfl begins ⟨rfl, hostGood valid x, rfl⟩
  · have counted := Dev.ftsA_eq on lane block x
    simp only [state, valid, done, if_true, if_pos counts] at counted
    have kept : (s.dev.link.hearA lane block x).eqRun = s.dev.link.eqRun ∧
        (s.dev.link.hearA lane block x).partnerGood = s.dev.link.partnerGood := by
      rw [Link.hearA_eq]
      exact ⟨rfl, rfl⟩
    obtain ⟨eqRun, partnerGood⟩ := kept
    obtain ⟨ends, agreeRun, good⟩ := Link.blockA_sixteenth (eqRun.trans run) (same.trans partnerGood.symm) complete asks0 asks1
    exact next_onDev rfl counted ⟨ends, agreeRun, good.trans (hostGood valid x), rfl⟩
  · have broken := Dev.ftsA_eq on lane block x
    simp only [state, invalid, if_pos counts] at broken
    have stays : (s.dev.link.hearA lane block x).state = .trainA := by
      rw [Link.hearA_eq]
      exact state
    exact next_onDev rfl broken ⟨stays, rfl, rfl⟩
  · have arrives := Dev.ftsB_arrives on state valid counts arrivals rxSet txSet rx0 tx0 runs sent agree agrees names names'
    have kept : (s.dev.link.hearB lane block arrivals).trained = s.dev.link.trained ∧
        (s.dev.link.hearB lane block arrivals).hostGood = (s.dev.link.takeSet lane block).hostGood := by
      rw [Link.hearB_eq]
      exact ⟨rfl, rfl⟩
    obtain ⟨trained, good⟩ := kept
    refine next_onDev rfl arrives ?_
    rw [Dev.arrive_link, Dev.arrive_fw, Dev.arrive_ses]
    refine ⟨rfl, rfl, rfl, rfl, rfl, ?_, rfl, rfl, rfl, rfl, rfl, rfl, ?_, Evt.raise_self _ 24 rfl, fun b => Fw.begun_loses⟩
    · exact (congrArg (satInc 65535) trained).trans (satInc_eq_min ..)
    · exact good.trans (s.dev.link.takeSet_hostGood lane block (.inr (.inl rfl)) valid)
  · have unheard : s.dev.ftsB lane block arrivals = s.dev.onLink (fun l => l.takeSet lane block) := by
      simp [Dev.ftsB, on, state]
    exact next_onDev rfl (unheard.trans (onLink_takeSet s lane block)) rfl

end Sys2Proof.Proofs

/-! ## Changes of width (O50) -/

namespace Sys2Proof.Machine

/-! ### The loss of a lane in use (R201, R203) -/

/-- In ACTIVE the loss of a lane in use begins the handshake with the lanes that are left. -/
theorem Dev.laneLoss_rewidth {d : Dev} {n : Nat} {c : LossCause} (on : d.fairwayOn = true) (lt : n < 4)
    (locked : (d.link.lane n).locked = true) (loses : d.link.loses n c = true) (active : d.link.state = .active)
    (uses : bit d.link.rxSet n = true) {rx : Nat} (left : rx = usedSet (d.link.goodLanes.filter (· != n))) (some : rx ≠ 0) :
    d.laneLoss n c = ((d.raise 26).send 0xC5 0x1E 0 n).onLink (fun l => (l.loseLane n c).rewidth rx l.txSet) := by
  have own : (d.link.carries && d.link.uses n) = true := by simp [Link.carries, Link.uses, active, uses]
  have active' : ((d.link.loseLane n c).state == .rewidth) = false := by
    have kept : (d.link.loseLane n c).state = .active := active
    rw [kept]
    rfl
  rw [Dev.laneLoss_eq on lt locked loses, if_pos own]
  simp only [Dev.laneLost, Dev.send_link, Dev.raise_link, Dev.onLink_link, Link.goodLanes_loseLane locked, ← left, if_neg some]
  simp only [Dev.onLink, Dev.send_link, Dev.raise_link, active']
  rfl

/-- The RELEASE set of an attempt: only one of the MZN1080's own has lanes to receive on (R203). -/
theorem Link.releases_eq (l : Link) (rx tx : Nat) : l.releases rx tx =
    match l.attempt with
    | some (own, _) => if own = 0 then [] else [(16, rx, tx)]
    | none => [] := by
  unfold Link.releases
  cases l.attempt <;> rfl

/-! ### WIDTH sets of the partner (R201) -/

/-- A WIDTH set, neither acknowledging nor of an attempt, that names receive and transmit sets which both ends can use. -/
structure NamesSets (l : Link) (lane : Nat) (set : Bytes) (rx tx : Nat) : Prop where
  valid : l.validSet lane 0xC7 set = true
  plain : bits (setByte set 7) 2 3 = 0
  here : l.setLane = some lane
  txSet : tx = usedTx (setByte set 8)
  rxSet : rx = usedSet ((lanesOf (setByte set 9 % 16)).filter (fun n => (l.lane n).good))
  named : rx = setByte set 9 % 16
  tx0 : tx ≠ 0
  rx0 : rx ≠ 0

/-- The MZN1080 takes up sets that the partner has named. -/
def Dev.takeSets (d : Dev) (rx tx : Nat) (safe : Bool) : Dev :=
  if d.link.state = .active ∧ rx = d.link.rxSet ∧ tx = d.link.txSet then d
  else if d.link.state = .rewidth ∧ rx = d.link.newRx ∧ tx = d.link.newTx then
    if d.link.detecting then d.onLink (fun l => { l with out := [(4, rx, tx), (4, rx, tx)] })
    else if d.link.acks = 0 then d.onLink (fun l => { l with acks := 1 }) else d.atWidth rx tx safe
  else
    let crossed := d.link.state == .rewidth && d.link.detecting
    let answered := (d.txLost tx).onLink (fun l => { l.answer rx tx with detecting := crossed })
    if tx = 3 then answered else answered.witnessStop

theorem Dev.widthSet_names {d : Dev} {lane : Nat} {block : Line} (on : d.fairwayOn = true) (carries : d.link.carries = true) {rx tx : Nat}
    (names : NamesSets d.link lane (lineSet lane block) rx tx) (safe : Bool) :
    d.widthSet lane block safe = (d.onLink (fun l => l.takeSet lane block)).takeSets rx tx safe := by
  have used : usedSet ((lanesOf rx).filter (fun n => ((d.link.takeSet lane block).lane n).good)) = rx := by
    simp only [(SameLocks.takeSet d.link lane block).good]
    rw [names.named, ← names.rxSet, names.named]
  have sets : ¬ (tx = 0 ∨ rx = 0) := not_or.mpr ⟨names.tx0, names.rx0⟩
  simp only [Dev.widthSet, on, carries, names.here, names.valid, names.plain, Dev.onLink_link, ← names.txSet, ← names.named,
    used, Bool.not_true, Bool.false_eq_true, if_false, beq_self_eq_true, Bool.and_true, Bool.and_eq_true, beq_iff_eq, if_neg sets,
    bne_self_eq_false, Bool.false_or, and_assoc]
  rfl

/-- Transmit lanes named lost are counted and reported, and nothing else. -/
theorem Dev.txLost_frame (d : Dev) (tx : Nat) : d.txLost tx = { d with
    link := { d.link with txLosses := (d.txLost tx).link.txLosses }, evt := (d.txLost tx).evt, keep := (d.txLost tx).keep } := by
  unfold Dev.txLost
  refine List.foldlRecOn (motive := fun d' : Dev => d' = { d with
    link := { d.link with txLosses := d'.link.txLosses }, evt := d'.evt, keep := d'.keep }) _ _ rfl fun d' same n _ => ?_
  rw [same]
  rfl

theorem Dev.witnessWait_frame (d : Dev) (safe : Bool) : d.witnessWait safe = { d with wit := (d.witnessWait safe).wit } := by
  unfold Dev.witnessWait
  split <;> rfl

/-- The link ACTIVE at the sets of a handshake. -/
structure AtWidth (rx tx : Nat) (d d' : Dev) : Prop where
  state : d'.link.state = .active
  rxSet : d'.link.rxSet = rx
  txSet : d'.link.txSet = tx
  rewidths : d'.link.rewidths = Nat.min 65535 (d.link.rewidths + 1)
  ses : d'.ses = d.ses
  frm : d'.frm = d.frm

theorem Dev.atWidth_spec (d : Dev) (rx tx : Nat) (safe : Bool) : AtWidth rx tx d (d.atWidth rx tx safe) := by
  have raised : ∀ (e : Dev) (c : Bool), e.raiseIf c 27 = { e with evt := (e.raiseIf c 27).evt } := fun e c => by cases c <;> rfl
  unfold Dev.atWidth
  dsimp only
  rw [raised]
  split
  · rw [Dev.witnessWait_frame]
    exact ⟨rfl, rfl, rfl, satInc_eq_min .., rfl, rfl⟩
  · rw [(Dev.witnessStop_frame _).1]
    exact ⟨rfl, rfl, rfl, satInc_eq_min .., rfl, rfl⟩

/-- Sets that differ from those in force are answered by two acknowledging blocks (R201). -/
theorem Dev.takeSets_answers {d : Dev} {rx tx : Nat} (active : d.link.state = .active) (new : rx ≠ d.link.rxSet ∨ tx ≠ d.link.txSet)
    (safe : Bool) : (∃ lost, (d.takeSets rx tx safe).link =
      { Link.answer { d.link with txLosses := lost } rx tx with detecting := false }) ∧
    (d.takeSets rx tx safe).ses = d.ses ∧ (d.takeSets rx tx safe).frm = d.frm := by
  have other : ¬ (d.link.state = .active ∧ rx = d.link.rxSet ∧ tx = d.link.txSet) := fun ⟨_, same, same'⟩ =>
    new.elim (· same) (· same')
  have first : ¬ (d.link.state = .rewidth ∧ rx = d.link.newRx ∧ tx = d.link.newTx) := by simp [active]
  have own : (d.link.state == .rewidth) = false := by rw [active]; rfl
  simp only [Dev.takeSets, if_neg other, if_neg first, own, Bool.false_and]
  rw [d.txLost_frame tx]
  split
  · exact ⟨⟨_, rfl⟩, rfl, rfl⟩
  · rw [(Dev.witnessStop_frame _).1]
    exact ⟨⟨_, rfl⟩, rfl, rfl⟩

/-- The partner's sets in the blocks of the answer: the second brings ACTIVE (R201). -/
theorem Dev.takeSets_again {d : Dev} {rx tx : Nat} (st : d.link.state = .rewidth) (answers : d.link.detecting = false)
    (rxSet : rx = d.link.newRx) (txSet : tx = d.link.newTx) (safe : Bool) :
    d.takeSets rx tx safe = if d.link.acks = 0 then d.onLink (fun l => { l with acks := 1 }) else d.atWidth rx tx safe := by
  have waits : ¬ (d.link.state = .active ∧ rx = d.link.rxSet ∧ tx = d.link.txSet) := by simp [st]
  rw [Dev.takeSets, if_neg waits, if_pos ⟨st, rxSet, txSet⟩, answers]
  rfl

/-- A set that acknowledges the MZN1080's own handshake: the second brings ACTIVE at its sets (R201). -/
theorem Dev.widthAck_acknowledges {d : Dev} {lane : Nat} {block : Line} (on : d.fairwayOn = true)
    (ack : d.link.acknowledges lane (lineSet lane block) = true) (safe : Bool) : d.widthAck lane block safe =
      if d.link.acks = 0 then (d.onLink (fun l => l.takeSet lane block)).onLink (fun l => { l with acks := 1 })
      else (d.onLink (fun l => l.takeSet lane block)).atWidth d.link.newRx d.link.newTx safe := by
  have acks : (d.link.takeSet lane block).acks = d.link.acks := Link.takeSet_keeps Link.acks (fun _ _ _ => rfl) ..
  have newRx : (d.link.takeSet lane block).newRx = d.link.newRx := Link.takeSet_keeps Link.newRx (fun _ _ _ => rfl) ..
  have newTx : (d.link.takeSet lane block).newTx = d.link.newTx := Link.takeSet_keeps Link.newTx (fun _ _ _ => rfl) ..
  simp only [Dev.widthAck, on, ack, Bool.not_true, Bool.false_eq_true, if_false, Dev.onLink_link, acks, newRx, newTx]

/-! ### A handshake that fails (R205, R206, R364) -/

/-- A link that is lost leaves ACTIVE or REWIDTH with its commits, its staged sets and its session, and event 25. -/
theorem Dev.backoff_lost {d : Dev} (carries : d.link.carries = true) :
    (d.backoff 5).link = d.link.fallBack d.now 5 ∧ (d.backoff 5).ses.keys = none ∧
    (d.backoff 5).frm = { d.frm with commits := [], modePend := none, delayed := [] } ∧
    (d.backoff 5).eng = { d.eng with sectStaged := none, symStaged := none } ∧
    (d.backoff 5).evt.pend.getLsbD 25 = true ∧ mkMsg 0xC5 0x20 1 0 ∈ (d.backoff 5).keep.transit := by
  obtain ⟨frm, eng, discards⟩ := d.discardPending_frame
  obtain ⟨ends, ses, -⟩ := d.discardPending.endSession_frame
  have leaves : d.backoff 5 = (((d.discardPending.endSession).raise 25).onLink
      (fun l => l.fallBack ((d.discardPending.endSession).raise 25).now 5)).send 0xC5 0x20 1 0 := by
    rw [Dev.backoff, if_pos carries]
    rfl
  rw [leaves]
  refine ⟨?_, congrArg Ses.keys ses, ?_, ?_, Evt.raise_self _ 25 rfl, List.mem_append_right _ (List.mem_singleton.mpr rfl)⟩
  · rw [ends, discards]
    rfl
  · rw [ends, ← frm]
    rfl
  · rw [ends, ← eng]
    rfl

end Sys2Proof.Machine

namespace Sys2Proof.Proofs

open Sys2Proof Sys2Proof.Machine Sys2Proof.Claims

/-- A WIDTH set that does not count. -/
theorem widthSet_unheard {s : State} {lane : Nat} (on : s.dev.fairwayOn = true)
    (other : s.dev.link.carries = false ∨ s.dev.link.setLane ≠ some lane) (block : Line) (safe : Bool) :
    s.dev.widthSet lane block safe = heardBlock s (s.dev.link.takeSet lane block).lanes lane (lineSet lane block) := by
  rw [← onLink_takeSet]
  cases carries : s.dev.link.carries with
  | false => simp [Dev.widthSet, on, carries]
  | true =>
    have elsewhere : (s.dev.link.setLane == some lane) = false := by simpa [carries] using other
    simp [Dev.widthSet, on, carries, elsewhere]

theorem heard_widthSet {s : State} {lane : Nat} {set : Bytes} (valid : s.dev.link.validSet lane 0xC7 set = true) :
    heard s lane set = setByte set 6 % 4 := if_pos (.inr (.inr valid))

theorem exec_rewidthTimeout {s : State} (rewidth : s.dev.link.state = .rewidth) :
    exec .rewidthTimeout s = .next (s.onDev (fun d => d.backoff 5)) := by
  refine congrArg Host.Outcome.next ?_
  rw [State.onDev, rewidth]
  rfl

/-- Settles O50: a loss or a WIDTH set of the partner begins a handshake, and its second acknowledging block ends it. -/
theorem widthChanges : Obligations.WidthChanges := by
  rintro s lane block set rfl
  refine ⟨fun c rx on lt locked loses active uses left some => ?_, fun on other => ?_,
    fun rx tx on valid plain here txSet rxSet named tx0 rx0 => ⟨fun active new => ?_, fun active same same' => ?_,
      fun rewidth answers same same' => ?_⟩,
    fun on rewidth own valid flag names names' lies lowest => ?_, fun rewidth => ?_⟩
  · refine next_onDev rfl (Dev.laneLoss_rewidth on lt locked loses active uses left some)
      ⟨raises_one (n := 26) rfl rfl, rfl, rfl, rfl, rfl, rfl, rfl, rfl, ?_, rfl⟩
    exact (Link.releases_eq (s.dev.link.loseLane lane c) rx s.dev.link.txSet).trans rfl
  · exact next_onDev rfl (widthSet_unheard on other block s.lat.safe) rfl
  · have carries : s.dev.link.carries = true := by rw [Link.carries, active]; rfl
    have taken := Dev.widthSet_names on carries ⟨valid, plain, here, txSet, rxSet, named, tx0, rx0⟩ s.lat.safe
    rw [onLink_takeSet] at taken
    obtain ⟨⟨lost, link⟩, ses, frm⟩ := Dev.takeSets_answers (d := heardBlock s _ lane _) active new s.lat.safe
    refine next_onDev rfl taken ?_
    rw [link, ses, frm]
    refine ⟨rfl, rfl, rfl, rfl, rfl, rfl,
      ⟨s.dev.link.releases rx tx, rfl, fun own asked attempt own0 => ?_, fun partner => ?_⟩, rfl, rfl⟩
    · rw [Link.releases_eq, attempt]
      exact if_neg own0
    · rw [Link.releases_eq]
      cases attempt : s.dev.link.attempt with
      | none => rfl
      | some a => exact if_pos (by simpa [attempt] using partner)
  · have carries : s.dev.link.carries = true := by rw [Link.carries, active]; rfl
    have taken := Dev.widthSet_names on carries ⟨valid, plain, here, txSet, rxSet, named, tx0, rx0⟩ s.lat.safe
    rw [onLink_takeSet] at taken
    exact next_onDev rfl (taken.trans (if_pos ⟨active, same, same'⟩)) rfl
  · have carries : s.dev.link.carries = true := by rw [Link.carries, rewidth]; rfl
    have taken := Dev.widthSet_names on carries ⟨valid, plain, here, txSet, rxSet, named, tx0, rx0⟩ s.lat.safe
    rw [onLink_takeSet, Dev.takeSets_again (d := heardBlock s _ lane _) rewidth answers same same'] at taken
    refine ⟨fun none => next_onDev rfl (taken.trans (if_pos none)) ?_, fun one => ?_⟩
    · rw [← heard_widthSet valid]
      rfl
    · have wide := Dev.atWidth_spec (heardBlock s (s.dev.link.takeSet lane block).lanes lane (lineSet lane block)) rx tx s.lat.safe
      exact next_onDev rfl (taken.trans (if_neg one))
        ⟨wide.state, wide.rxSet, wide.txSet, wide.rewidths, wide.ses, wide.frm⟩
  · have ack : s.dev.link.acknowledges lane (lineSet lane block) = true := by
      simp [Link.acknowledges, rewidth, own, valid, flag, names, names', lies, lowest]
    have acks := Dev.widthAck_acknowledges on ack s.lat.safe
    rw [onLink_takeSet] at acks
    refine ⟨fun none => next_onDev rfl (acks.trans (if_pos none)) ?_, fun one => ?_⟩
    · rw [← heard_widthSet valid]
      rfl
    · have again : s.dev.link.acks ≠ 0 := by omega
      have wide := Dev.atWidth_spec (heardBlock s (s.dev.link.takeSet lane block).lanes lane (lineSet lane block)) s.dev.link.newRx
        s.dev.link.newTx s.lat.safe
      exact next_onDev rfl (acks.trans (if_neg again))
        ⟨wide.state, wide.rxSet, wide.txSet, wide.rewidths, wide.ses⟩
  · have carries : s.dev.link.carries = true := by rw [Link.carries, rewidth]; rfl
    obtain ⟨link, keys, frm, eng, event, msg⟩ := Dev.backoff_lost carries
    refine next_onDev (exec_rewidthTimeout rewidth) rfl ?_
    rw [link, frm, eng]
    exact ⟨rfl, rfl, keys, rfl, rfl, rfl, rfl, event, msg⟩

end Sys2Proof.Proofs

/-! ## Restoring lanes (O51) -/

namespace Sys2Proof.Machine

/-- An attempt begins: for the receive link the MZN1080's own, for the transmit link the partner's turn (R203). -/
def Link.beginAttempt (rx : Bool) (l : Link) : Link := { l with
  attempt := if rx then some (15 - l.rxSet, 0) else none, lastRx := rx
  out := if rx then l.out ++ [(8, 15 - l.rxSet, l.txSet)] else l.out
  lanes := l.lanes.map (fun x => { x with restoreRun := 0 }) }

theorem Link.beginAttempt_partner {l : Link} (idle : l.attempt = none) :
    l.beginAttempt false = { l with lastRx := false, lanes := l.lanes.map (fun x => { x with restoreRun := 0 }) } :=
  congrArg (fun a : Option (Nat × Nat) => { l with
    attempt := a, lastRx := false, lanes := l.lanes.map (fun x : Lane => { x with restoreRun := 0 }) }) idle.symm

theorem Link.lane_mem_or_default (l : Link) (n : Nat) : l.lane n ∈ l.lanes ∨ l.lane n = {} := by
  by_cases lt : n < l.lanes.length
  · rw [Link.lane, nth, List.getD_eq_getElem _ _ lt]
    exact .inl (List.getElem_mem lt)
  · exact .inr (List.getD_eq_default _ _ (Nat.le_of_not_lt lt))

/-- A lane on which a block of FTS-A is received while it is being restored. -/
def Lane.restored (ok : Bool) (x : Lane) : Lane := { x with restoreRun := if ok then Nat.min 64 (x.restoreRun + 1) else 0 }

theorem Lane.restored_run {x : Lane} (few : x.restoreRun < 63) (ok : Bool) :
    (x.restored ok).restoreRun = if ok then x.restoreRun + 1 else 0 := by
  have small : Nat.min 64 (x.restoreRun + 1) = x.restoreRun + 1 := Nat.min_eq_right (by omega)
  rw [← small]
  rfl

/-- An attempt waits while a lane that it names has not had its 64 blocks (R203). -/
theorem Dev.joinLanes_waits {d : Dev} {rx tx lane : Nat} (attempt : d.link.attempt = some (rx, tx)) (own : lane ∈ lanesOf rx)
    (few : (d.link.lane lane).restoreRun ≠ 64) : d.joinLanes true = d := by
  have fewer : ((lanesOf rx).filter (fun n => (d.link.lane n).good && (d.link.lane n).restoreRun == 64)).length < (lanesOf rx).length :=
    List.length_filter_lt_length_iff_exists.mpr ⟨lane, own, by simp [few]⟩
  simp [Dev.joinLanes, attempt, Nat.ne_of_lt fewer]

/-- At a timeout with no lane ready the MZN1080's own attempt ends with RELEASE (R203). -/
theorem Dev.joinLanes_releases {d : Dev} {rx tx : Nat} (attempt : d.link.attempt = some (rx, tx)) (own : rx ≠ 0)
    (none : ∀ n, (d.link.lane n).restoreRun ≠ 64) : d.joinLanes false = d.onLink (fun l => { l with
      attempt := .none, out := l.out ++ [(16, l.rxSet, l.txSet)] }) := by
  have ready : (lanesOf rx).filter (fun n => (d.link.lane n).good && (d.link.lane n).restoreRun == 64) = [] :=
    List.filter_eq_nil_iff.mpr fun n _ => by simp [none n]
  simp [Dev.joinLanes, attempt, own, ready, Dev.onLink, Link.releases]

/-- The partner's attempt is the partner's to end. -/
theorem Dev.joinLanes_partner {d : Dev} {tx : Nat} (attempt : d.link.attempt = some (0, tx)) (all : Bool) : d.joinLanes all = d := by
  rw [Dev.joinLanes, attempt]
  rfl

theorem Dev.restoreBlock_waits {d : Dev} {rx tx lane : Nat} (attempt : d.link.attempt = some (rx, tx)) (own : lane ∈ lanesOf rx)
    (lt : lane < d.link.lanes.length) (few : (d.link.lane lane).restoreRun < 63) (set : Bytes) (valid : Bool) :
    d.restoreBlock lane set valid = d.onLink (fun l => l.onLane lane (Lane.restored (valid && bit (setByte set 7) 0))) := by
  refine Dev.joinLanes_waits (lane := lane) attempt own ?_
  have run := Lane.restored_run few (valid && bit (setByte set 7) 0)
  rw [Dev.onLink_link, Link.lane_onLane lt]
  refine Nat.ne_of_lt ((Nat.le_of_eq run).trans_lt ?_)
  split <;> omega

/-- A block of FTS-A on a lane that an attempt names counts towards its 64, or breaks their row (R203). -/
theorem Dev.ftsA_restores {d : Dev} {rx tx lane : Nat} (on : d.fairwayOn = true) (active : d.link.state = .active) (lt : lane < 4)
    (len : d.link.lanes.length = 4) (attempt : d.link.attempt = some (rx, tx)) (own : bit rx lane = true)
    (few : (d.link.lane lane).restoreRun < 63) (block : Line) (x : Adapt) : d.ftsA lane block x =
      (d.onLink (Link.hearA lane block x)).onLink (fun l => l.onLane lane
        (Lane.restored (d.link.validSet lane 0xA5 (lineSet lane block) && bit (setByte (lineSet lane block) 7) 0))) := by
  have locks := SameLocks.hearA lane block x d.link
  have attempt' : (d.link.hearA lane block x).attempt = some (rx, tx) := by rw [Link.hearA_eq, attempt]
  have own' : lane ∈ lanesOf rx := List.mem_filter.mpr ⟨List.mem_range.mpr lt, own⟩
  have lt' : lane < (d.link.hearA lane block x).lanes.length := by rw [locks.length, len]; exact lt
  have few' : ((d.link.hearA lane block x).lane lane).restoreRun < 63 := by rw [locks.restoreRun]; exact few
  have counted := Dev.ftsA_eq on lane block x
  simp only [active, attempt, Option.map_some, Option.getD_some, own, if_true] at counted
  exact counted.trans (Dev.restoreBlock_waits attempt' own' lt' few' ..)

end Sys2Proof.Machine

namespace Sys2Proof.Proofs

open Sys2Proof Sys2Proof.Machine Sys2Proof.Claims

theorem exec_restoreAttempt {s : State} (active : s.dev.link.state = .active) (idle : s.dev.link.attempt = none)
    {rx : Bool} (lacks : s.dev.link.rxSet ≠ 15 ∨ s.dev.link.txSet ≠ 3)
    (turn : (s.dev.link.rxSet != 15 && (s.dev.link.txSet == 3 || !s.dev.link.lastRx)) = rx) :
    exec .restoreAttempt s = .next (s.onDev (fun d => d.onLink (Link.beginAttempt rx))) := by
  have begins : (s.dev.link.state == .active && s.dev.link.attempt.isNone && (s.dev.link.rxSet != 15 || s.dev.link.txSet != 3)) = true := by
    simpa [active, idle] using lacks
  subst turn
  exact congrArg (fun d => Host.Outcome.next { s with dev := d }) (if_pos begins)

theorem exec_restoreSet {s : State} {lane : Nat} {block : Line} (on : s.dev.fairwayOn = true) (active : s.dev.link.state = .active)
    (valid : s.dev.link.validSet lane 0xC7 (lineSet lane block) = true) (flag : bit (setByte (lineSet lane block) 7) 3 = true)
    (idle : s.dev.link.attempt = none)
    (names : Nat.land (setByte (lineSet lane block) 8 % 4) (3 - s.dev.link.txSet) ≠ 0) : exec (.restoreSet lane block) s =
      .next (s.onDev (fun d => (d.onLink (fun l => l.takeSet lane block)).onLink (fun l => { l with
        attempt := some (0, Nat.land (setByte (lineSet lane block) 8 % 4) (3 - d.link.txSet)) }))) := by
  have begins : (s.dev.flagSet lane (lineSet lane block) 3 && s.dev.link.attempt.isNone &&
      Nat.land (setByte (lineSet lane block) 8 % 4) (3 - s.dev.link.txSet) != 0) = true := by
    rw [Bool.and_eq_true, bne_iff_ne]
    exact ⟨by simp [Dev.flagSet, on, active, valid, flag, idle], names⟩
  refine congrArg Host.Outcome.next ?_
  simp only [State.onDev, begins, on, if_true]

theorem exec_releaseSet {s : State} {lane tx : Nat} {block : Line} (on : s.dev.fairwayOn = true) (active : s.dev.link.state = .active)
    (valid : s.dev.link.validSet lane 0xC7 (lineSet lane block) = true) (flag : bit (setByte (lineSet lane block) 7) 4 = true)
    (partner : s.dev.link.attempt = some (0, tx)) : exec (.releaseSet lane block) s =
      .next (s.onDev (fun d => (d.onLink (fun l => l.takeSet lane block)).onLink (fun l => { l with attempt := none }))) := by
  simp [exec, execReleaseSet, State.onDev, Dev.flagSet, on, active, valid, flag, partner]

theorem exec_restoreTimeout {s : State} (active : s.dev.link.state = .active) :
    exec .restoreTimeout s = .next (s.onDev (fun d => d.joinLanes false)) := by
  refine congrArg Host.Outcome.next ?_
  rw [State.onDev, active]
  rfl

/-- Settles O51: an attempt's beginning, its blocks on the lanes that it names, and its end. -/
theorem laneRestoreEvents : Obligations.LaneRestoreEvents := by
  refine fun s active => ⟨fun idle lacks whole => ?_, fun idle whole lacks => ?_,
    fun lane block set rx tx x on lt len same attempt own few => ?_,
    fun lane block set on same valid flag idle names => ?_, fun lane block set tx on same valid flag partner => ?_,
    fun rx tx attempt own none => ?_, fun tx partner => ?_⟩
  · refine next_onDev (exec_restoreAttempt active idle (rx := true) (.inl lacks) (by simp [lacks, whole])) rfl
      ⟨rfl, ?_, rfl, rfl, rfl⟩
    rw [← whole]
    rfl
  · refine next_onDev (exec_restoreAttempt active idle (rx := false) (.inr lacks) (by simp [whole])) rfl
      ⟨fun l mem => ?_, ?_⟩
    · obtain ⟨x, -, rfl⟩ := List.mem_map.mp mem
      rfl
    · exact congrArg (fun l => { s.dev with link := l }) (Link.beginAttempt_partner idle)
  · subst same
    have locks := SameLocks.hearA lane block x s.dev.link
    have heardEq := s.dev.link.hearA_eq lane block x
    rw [takeSet_heard] at heardEq
    have lt' : lane < (s.dev.link.hearA lane block x).lanes.length := by rw [locks.length, len]; exact lt
    have few' : ((s.dev.link.hearA lane block x).lane lane).restoreRun < 63 := by rw [locks.restoreRun]; exact few
    have run := (congrArg Lane.restoreRun (Link.lane_onLane lt' _)).trans (Lane.restored_run few'
      (s.dev.link.validSet lane 0xA5 (lineSet lane block) && bit (setByte (lineSet lane block) 7) 0))
    simp only [locks.restoreRun, Bool.and_eq_true] at run
    refine next_onDev rfl (Dev.ftsA_restores on active lt len attempt own few block x)
      ⟨(congrArg Link.state heardEq).trans active, (congrArg Link.attempt heardEq).trans attempt, run, ?_⟩
    rw [Dev.onLink, Dev.onLink_link, Link.onLane, heardEq]
    rfl
  · subst same
    refine next_onDev (exec_restoreSet on active valid flag idle names) rfl ?_
    rw [onLink_takeSet, heardBlock, heard_widthSet valid]
    rfl
  · subst same
    refine next_onDev (exec_releaseSet on active valid flag partner) rfl ?_
    rw [onLink_takeSet, heardBlock, heard_widthSet valid]
    rfl
  · have few : ∀ n, (s.dev.link.lane n).restoreRun ≠ 64 := by
      intro n
      rcases s.dev.link.lane_mem_or_default n with mem | dflt
      · rw [none _ mem]
        decide
      · rw [dflt]
        decide
    exact next_onDev (exec_restoreTimeout active) (Dev.joinLanes_releases attempt own few) rfl
  · rw [exec_restoreTimeout active, State.onDev, Dev.joinLanes_partner partner]

end Sys2Proof.Proofs

/-! ## START (O11) -/

namespace Sys2Proof.Machine

/-! ### What has waited for LRX (R17, R186, R197, R237) -/

theorem Dev.foldl_queueReply : ∀ (ps : List Bytes) (d : Dev), d.fw.replies.length + ps.length ≤ 256 →
    ps.foldl Dev.queueReply d = d.onFw (fun f => { f with replies := f.replies ++ ps })
  | [], d, _ => by simp [Dev.onFw]
  | p :: ps, d, room => by
    rw [List.length_cons] at room
    have joins : d.queueReply p = d.onFw (fun f => { f with replies := f.replies ++ [p] }) := if_pos (by omega)
    rw [List.foldl_cons, joins, Dev.foldl_queueReply ps _ (by simp; omega)]
    simp [Dev.onFw]

/-- LRX runs again with room for the replies that have waited, and no frame to be written. -/
theorem Dev.lrxResume_crosses {d : Dev} (on : d.fairwayOn = true) (writes : d.fw.writes = [])
    (room : d.fw.replies.length + d.fw.crossing.length ≤ 256) : d.lrxResume = d.onFw Claims.crossed := by
  have queued := Dev.foldl_queueReply d.fw.crossing (d.onFw (fun f => { f with crossing := [] })) room
  have written : ∀ e : Dev, e.fw.writes = [] → e.vc1Written = e := fun e none => by simp [Dev.vc1Written, none]
  rw [Dev.lrxResume, if_pos on]
  exact (written _ (by rw [queued]; exact writes)).trans queued

theorem Dev.startLink_eq {d : Dev} (state : d.pwr.state ≠ .entry) (writes : d.fw.writes = [])
    (room : d.fw.replies.length + d.fw.crossing.length ≤ 256) : d.startLink = { d with
      link := if d.fairwayOn = true ∧ d.link.state = .down then d.link.detect d.now else d.link
      fw := if d.fairwayOn then Claims.crossed d.fw else d.fw } := by
  cases on : d.fairwayOn with
  | false =>
    have stands : d.lrxResume = d := by simp [Dev.lrxResume, on]
    simp [Dev.startLink, stands, on]
  | true =>
    have on' : (d.onFw Claims.crossed).fairwayOn = true := on
    simp only [Dev.startLink, Dev.lrxResume_crosses on writes room, on', Dev.onFw_link, Dev.onFw_pwr, bne_iff_ne.mpr state, Bool.true_and,
      Bool.and_true, beq_iff_eq, true_and, if_true]
    split <;> rfl

theorem Dev.skipSymbols_of_other {d : Dev} (other : d.cfg.loading ≠ some 12) : d.skipSymbols = d := by
  simp [Dev.skipSymbols, other]

end Sys2Proof.Machine

namespace Sys2Proof.Proofs

open Sys2Proof Sys2Proof.Machine Sys2Proof.Claims

theorem exec_pllLocked_start {s : State} (start : s.dev.pwr.state = .start) (started : s.dev.pwr.started = true)
    (locked : s.dev.pwr.locked = false) :
    exec .pllLocked s = .next (s.onDev (fun d => (d.onPwr (fun p => { p with locked := true })).startLink)) := by
  simp [exec, execPllLocked, start, started, locked]

theorem exec_keyCheck {s : State} (start : s.dev.frm.ticked = false) (on : s.dev.pwr.mainOn = true) (first : s.dev.sec.keyChecked = false) :
    exec .keyCheck s = .next (s.onDev (fun d =>
      let checked := d.onSec (fun x => { x with keyChecked := true, keyOk := s.otp.keyFits })
      if s.otp.keyFits then checked else checked.send 0xC8 0x33 1 0)) := by
  simp [exec, execKeyCheck, Dev.inStart, start, on, first]

theorem exec_dramTrainingDone {s : State} (start : s.dev.frm.ticked = false) (on : s.dev.pwr.mainOn = true)
    (first : s.dev.memc.trainDone = false) (pass : Bool) : exec (.dramTrainingDone pass) s = .next (s.onDev (fun d =>
      if pass then d.onMemc (fun m => { m with trainDone := true, trained := true })
      else (((d.onMemc (fun m => { m with trainDone := true, dramLess := true, cause := false })).raise 45).send
        0xC4 0x1A 1 0).skipSymbols)) := by
  simp [exec, execDramTrainingDone, State.onDev, Dev.inStart, start, on, first]

/-- Start self-tests in which nothing fails, of pairs that stand as after reset (R326). -/
theorem exec_startSelftestDone {s : State} (start : s.dev.frm.ticked = false) (on : s.dev.pwr.mainOn = true)
    (runs : s.dev.keeperRuns = true) (first : s.dev.chg.startDone = false) (eng : s.dev.chg.eng = {}) (tb : s.dev.chg.tb = {})
    (refs : s.dev.chg.refs = []) : exec (.startSelftestDone []) s = .next (s.onDev (fun d => d.onChg (fun c => { c with
      startDone := true, startPass := 15, refFails := 0 }))) := by
  have goes : ¬ (!s.dev.inStart || s.dev.chg.startDone || !s.dev.pwr.mainOn || !s.dev.keeperRuns) = true := by
    simp [Dev.inStart, start, first, on, runs]
  refine congrArg Host.Outcome.next ?_
  rw [State.onDev, if_neg goes]
  simp only [List.foldl_nil, eng, tb, refs]
  rfl

/-- Settles O11: each event of START does its work once, by its own guard; the link starts with the locks, and the loader goes on
with DRAM-less mode. -/
theorem startEventsComplete : Obligations.StartEventsComplete := by
  refine ⟨fun s start started unlocked writes room => ?_, fun s start on first => ?_,
    fun s start on first => ⟨?_, fun other => ?_, fun waits => ?_⟩,
    fun s start on runs first eng tb refs => ?_⟩
  · have lrx : (s.dev.onPwr (fun p => { p with locked := true })).fairwayOn = s.dev.link.refclk := by
      simp [Dev.fairwayOn, Pwr.mainOn, Pwr.parked, start]
    have link := Dev.startLink_eq (d := s.dev.onPwr (fun p => { p with locked := true })) (by simp [start]) writes room
    rw [lrx] at link
    refine next_onDev (exec_pllLocked_start start started unlocked) link ⟨rfl, ?_, rfl⟩
    exact apply_ite Link.state _ _ _
  · refine next_onDev (exec_keyCheck start on first) rfl ?_
    cases s.otp.keyFits with
    | true => exact ⟨rfl, by simp [Sends], rfl⟩
    | false => exact ⟨rfl, rfl, rfl⟩
  · exact next_onDev (exec_dramTrainingDone start on first true) rfl rfl
  · refine next_onDev (exec_dramTrainingDone start on first false) (Dev.skipSymbols_of_other other) ?_
    exact ⟨raises_one (n := 45) rfl rfl, rfl, rfl⟩
  · refine next_onDev (exec_dramTrainingDone start on first false) (skipSymbols_eq _ waits rfl) ?_
    exact ⟨raises_one (n := 45) rfl rfl, rfl, rfl⟩
  · exact next_onDev (exec_startSelftestDone start on runs first eng tb refs) rfl rfl

end Sys2Proof.Proofs

/-! ## A wake (O21) -/

namespace Sys2Proof.Machine

/-! ### What waits for the KEEP clock (R16, R466, R471) -/

theorem State.perturb_spec (s : State) (jtag : Bool) : (s.perturb jtag).lat.perturbed = true ∧ (s.perturb jtag).dev.pwr = s.dev.pwr ∧
    (s.perturb jtag).dev.test = s.dev.test ∧
    ∀ n, s.dev.evt.pend.getLsbD n = true → (s.perturb jtag).dev.evt.pend.getLsbD n = true := by
  unfold State.perturb
  split
  · next own => exact ⟨own, rfl, rfl, fun _ h => h⟩
  · exact ⟨rfl, rfl, rfl, fun n h => Evt.raise_keeps _ 118 n h⟩

theorem Dev.placeInjected_frame (d : Dev) (m : Msg) :
    d.placeInjected m = { d with keep := (d.placeInjected m).keep, evt := (d.placeInjected m).evt } := by
  unfold Dev.placeInjected
  split
  · rfl
  · split <;> rfl

/-- An injection is counted and pending, and it marks the unit (R471, R474). -/
theorem State.injectGo_spec (s : State) (head : BitVec 16) (addr : Word) : (s.injectGo head addr).lat.perturbed = true ∧
    (s.injectGo head addr).dev.pwr = s.dev.pwr ∧
    (s.injectGo head addr).dev.test = { s.dev.test with injected := satInc 255 s.dev.test.injected } ∧
    (s.injectGo head addr).dev.evt.pend.getLsbD 126 = true := by
  obtain ⟨marked, pwr, test, keeps⟩ := State.perturb_spec (s.onDev (fun d =>
    ((d.placeInjected (mkMsg (bits head.toNat 0 8) (bits head.toNat 8 6) (bits head.toNat 14 2) addr.toNat)).onTest
      (fun t => { t with injected := satInc 255 t.injected })).raise 126)) false
  rw [State.onDev_dev, Dev.placeInjected_frame] at pwr test
  exact ⟨marked, pwr, test, keeps 126 (Evt.raise_self _ 126 rfl)⟩

theorem State.keepWake_idle {s : State} (idle : s.dev.test.later = [] ∨ s.dev.keep.clockLost = true) : s.keepWake = s := by
  rcases idle with none | stands
  · have same : s.onDev (fun d => d.onTest (fun t => { t with later := [] })) = s := by
      rw [← none]
      rfl
    rw [State.keepWake, none, same]
    exact ite_self s
  · have off : s.dev.keeperRuns = false := by rw [Dev.keeperRuns, stands, Bool.not_true, Bool.and_false]
    rw [State.keepWake, off]
    rfl

theorem State.keepWake_inject {s : State} {head : BitVec 16} {addr : Word} (waits : s.dev.test.later = [.inject head addr])
    (runs : s.dev.keeperRuns = true) :
    s.keepWake = (s.onDev (fun d => d.onTest (fun t => { t with later := [] }))).injectGo head addr := by
  rw [State.keepWake, runs, waits]
  rfl

/-! ### Clocks that start again (R208, R419, R420) -/

/-- The blocks once the clocks of a wake run and the clamps are released, before what follows from it. -/
def Dev.clocksStarted (d : Dev) : Dev :=
  let released := (d.onPwr (fun p => { p with wakeClocks := true, clampAt := some d.now })).onMemc
    (fun m => { m with selfRefresh := false })
  released.clocksResume.onLink (fun l => { l with backoffMs := 1 })

/-- The link's start reaches the link, and what has waited for LRX, whose queue may drop replies with event 37. -/
theorem Dev.startLink_frame (d : Dev) : d.startLink = { d with
    link := d.startLink.link, fw := d.startLink.fw, evt := d.startLink.evt } := by
  have written : ∀ e : Dev, e.vc1Written = { e with fw := e.vc1Written.fw } := by
    intro e
    unfold Dev.vc1Written
    dsimp only
    split <;> rfl
  have resumes : d.lrxResume = { d with fw := d.lrxResume.fw, evt := d.lrxResume.evt } := by
    unfold Dev.lrxResume
    split
    · have queued := (OnlyReplies.foldl _ (fun d p => OnlyReplies.queueReply d p) d.fw.crossing
        (d.onFw (fun f => { f with crossing := [] }))).dev
      rw [written, queued]
      rfl
    · rfl
  unfold Dev.startLink
  rw [resumes]
  dsimp only
  split <;> rfl

theorem Dev.clocksStarted_parked {d : Dev} (wake : d.pwr.state = .wake) : d.clocksStarted.pwr.parked = false := by
  have wake' : d.clocksStarted.pwr.state = .wake := wake
  rw [Pwr.parked, wake']
  rfl

theorem Dev.clocksStarted_fairwayOn {d : Dev} (wake : d.pwr.state = .wake) :
    d.clocksStarted.fairwayOn = (d.pwr.locked && d.link.refclk) := by
  rw [Dev.fairwayOn, Pwr.mainOn, Dev.clocksStarted_parked wake, Bool.not_false, Bool.and_true]
  rfl

theorem Dev.clocksStarted_keeperRuns {d : Dev} (wake : d.pwr.state = .wake) (keep : d.pwr.keepOn = true)
    (runs : d.keep.clockLost = false) : d.clocksStarted.keeperRuns = true := by
  have keep' : d.clocksStarted.pwr.keepOn = true := keep
  have runs' : d.clocksStarted.keep.clockLost = false := runs
  rw [Dev.keeperRuns, Pwr.keepDomain, Dev.clocksStarted_parked wake, keep', runs']
  rfl

/-- In the cycle of a clamp release every domain but AON is judged as off (R422). -/
theorem Dev.domainOn_released {d : Dev} (released : d.pwr.clampAt = some d.now) {x : Domain} (other : x ≠ .aon) :
    d.domainOn x = false := by
  have releases : d.clampReleases = true := by rw [Dev.clampReleases, released, beq_self_eq_true]
  cases x with
  | aon => exact absurd rfl other
  | _ => simp [Dev.domainOn, releases]

theorem Dev.clocksStarted_eq (d : Dev) : d.clocksStarted = { d with
    pwr := { d.pwr with wakeClocks := true, clampAt := some d.now }, memc := { d.memc with selfRefresh := false }
    sec := { d.sec with lockAt := d.sec.lockAt + (d.now - d.pwr.parkAt) }, link := { d.link with backoffMs := 1 }
    keep := d.clocksStarted.keep, ledg := d.clocksStarted.ledg } := by
  simp only [Dev.clocksStarted, Dev.clocksResume, Dev.onPwr, Dev.onMemc, Dev.onLedg, Dev.onSec, Dev.onKeep, Dev.onLink]

/-- A wake whose clocks start, with nothing to be written and room for the replies that wait. -/
theorem Dev.clocksStarted_startLink {d : Dev} (wake : d.pwr.state = .wake) (writes : d.fw.writes = [])
    (room : d.fw.replies.length + d.fw.crossing.length ≤ 256) : d.clocksStarted.startLink = { d with
      pwr := { d.pwr with wakeClocks := true, clampAt := some d.now }, memc := { d.memc with selfRefresh := false }
      sec := { d.sec with lockAt := d.sec.lockAt + (d.now - d.pwr.parkAt) }
      keep := d.clocksStarted.keep, ledg := d.clocksStarted.ledg
      link := if d.pwr.locked = true ∧ d.link.refclk = true ∧ d.link.state = .down then Link.detect d.now { d.link with backoffMs := 1 }
        else { d.link with backoffMs := 1 }
      fw := if d.pwr.locked && d.link.refclk then Claims.crossed d.fw else d.fw } := by
  have awake : d.clocksStarted.pwr.state ≠ .entry := fun entry => nomatch wake.symm.trans entry
  rw [Dev.startLink_eq awake writes room, Dev.clocksStarted_fairwayOn wake]
  simp only [Bool.and_eq_true, and_assoc]
  rw [d.clocksStarted_eq]

/-- The blocks at the resumption boundary: RUN, the frame begun at T_p and its composition begin again, every group dark
until its period 0. -/
def Dev.frameResumed (d : Dev) : Dev :=
  let d := d.onPwr (fun p => { p with state := .run, wakeTime := Nat.min 65535 ((d.now - p.wakeAt) / 2000), wakeClocks := false })
  let d := d.onFrm (fun f => { f.newFrame f.tick d.now f.lastLen f.applied with
    resumed := true, starts := List.replicate 16 0, prevBase := 0, prevTrans := false, realignNow := 0 })
  d.tickCompose d.frm.tick 0

/-- A follower that resumes begins to lock anew, in what it knows of the SYNC pair alone (R102, R420). -/
theorem Dev.resumeSync_frame (d : Dev) : d.resumeSync = { d with
    evt := d.resumeSync.evt
    frm := { d.frm with
      locked := d.resumeSync.frm.locked, partnerReady := d.resumeSync.frm.partnerReady, syncFault := d.resumeSync.frm.syncFault
      syncFaults := d.resumeSync.frm.syncFaults, edges := d.resumeSync.frm.edges, badEdges := d.resumeSync.frm.badEdges
      goodEdges := d.resumeSync.frm.goodEdges, aligned := d.resumeSync.frm.aligned, realign := d.resumeSync.frm.realign } } := by
  unfold Dev.resumeSync
  split
  · rfl
  · split <;> rfl

end Sys2Proof.Machine

namespace Sys2Proof.Proofs

open Sys2Proof Sys2Proof.Machine Sys2Proof.Claims

theorem exec_wake {c : Instr} (source : c = .wakeAddressMatch ∨ c = .wakePinEdge .lb ∨ c = .wakePinEdge .hb) (s : State) :
    exec c s = .next (s.wakeEvent (wakeCode c)) := by
  rcases source with rfl | rfl | rfl <;> rfl

theorem exec_pllLocked_wake {s : State} (wake : s.dev.pwr.state = .wake) (seen : s.dev.seesPgood = true)
    (stopped : s.dev.pwr.wakeClocks = false) :
    exec .pllLocked s = .next (s.onDev (fun d => d.clocksStarted.startLink)).keepWake := by
  have other : ¬ (s.dev.pwr.state == .start && s.dev.pwr.started && !s.dev.pwr.locked) = true := by simp [wake]
  have goes : (s.dev.pwr.state == .wake && s.dev.seesPgood && !s.dev.pwr.wakeClocks) = true := by simp [wake, seen, stopped]
  exact congrArg Host.Outcome.next ((if_neg other).trans (if_pos goes))

theorem wakeEvent_park {s : State} (powered : s.dev.pwr.aonLost = false) (park : s.dev.pwr.state = .park)
    (kept : s.dev.pwr.retentionLost = false) (src : Nat) : s.wakeEvent src = s.onDev (fun d => d.onPwr (fun p => { p with
      state := .wake, wakeAt := d.now, wakeSource := src, heldWake := 0, wakeClocks := false, vsel := vselOf p.level, pgood := false
      vselAt := some d.now })) := by
  simp [State.wakeEvent, State.beginWake, Dev.domainOn, powered, park, kept]

theorem wakeEvent_entry {s : State} (powered : s.dev.pwr.aonLost = false) (entry : s.dev.pwr.state = .entry)
    (first : s.dev.pwr.heldWake = 0) (src : Nat) : s.wakeEvent src = s.onDev (fun d => d.onPwr (fun p => { p with heldWake := src })) := by
  simp [State.wakeEvent, State.onDev, Dev.onPwr, Dev.domainOn, powered, entry, first]

theorem wakeEvent_prepare {s : State} (powered : s.dev.pwr.aonLost = false) (prepare : s.dev.pwr.state = .prepare) (src : Nat) :
    s.wakeEvent src = s.onDev (fun d => d.abortPark 6) := by
  simp [State.wakeEvent, Dev.domainOn, powered, prepare]

/-- The clocks of a wake start where nothing that waits for the KEEP clock acts. -/
theorem exec_pllLocked_idle {s : State} (wake : s.dev.pwr.state = .wake) (seen : s.dev.seesPgood = true)
    (stopped : s.dev.pwr.wakeClocks = false) (idle : s.dev.test.later = [] ∨ s.dev.keep.clockLost = true) :
    exec .pllLocked s = .next (s.onDev (fun d => d.clocksStarted.startLink)) := by
  have kept : (s.onDev (fun d => d.clocksStarted.startLink)).dev.test.later = [] ∨
      (s.onDev (fun d => d.clocksStarted.startLink)).dev.keep.clockLost = true := by
    rw [State.onDev_dev, Dev.startLink_frame]
    exact idle
  rw [exec_pllLocked_wake wake seen stopped, State.keepWake_idle kept]

theorem exec_resumptionBoundary {s : State} (wake : s.dev.pwr.state = .wake) (clocks : s.dev.pwr.wakeClocks = true) :
    exec .resumptionBoundary s = .next (s.onDev (fun d => d.frameResumed.resumeSync.raise 1)) := by
  have goes : (s.dev.pwr.state == .wake && s.dev.pwr.wakeClocks) = true := by simp [wake, clocks]
  exact congrArg (fun d => Host.Outcome.next { s with dev := d }) (if_pos goes)

/-- Settles O21: what a wake source does in each state of PARK, what the clocks bring back once they run, and the boundary at which the
frame goes on. -/
theorem wakeResumesFrame : Obligations.WakeResumesFrame := by
  refine ⟨fun s c source powered => ⟨fun park kept => ?_, fun entry first => ?_, fun prepare => ?_⟩,
    fun s wake seen stopped => ⟨fun head addr waits keep runs => ?_, fun idle writes room => ?_⟩, fun s wake clocks => ?_⟩
  · exact next_onDev ((exec_wake source s).trans (congrArg _ (wakeEvent_park powered park kept _))) rfl rfl
  · exact next_onDev ((exec_wake source s).trans (congrArg _ (wakeEvent_entry powered entry first _))) rfl rfl
  · exact next_onDev ((exec_wake source s).trans (congrArg _ (wakeEvent_prepare powered prepare _))) rfl
      ⟨raises_one (n := 3) rfl rfl, rfl, rfl⟩
  · have frame := s.dev.clocksStarted.startLink_frame
    have later : (s.onDev (fun d => d.clocksStarted.startLink)).dev.test.later = [.inject head addr] := by
      rw [State.onDev_dev, frame]
      exact waits
    have keeps : (s.onDev (fun d => d.clocksStarted.startLink)).dev.keeperRuns = true := by
      rw [State.onDev_dev, frame]
      exact Dev.clocksStarted_keeperRuns wake keep runs
    rw [Next, exec_pllLocked_wake wake seen stopped, State.keepWake_inject later keeps]
    obtain ⟨marked, pwr, test, pends⟩ := State.injectGo_spec ((s.onDev (fun d => d.clocksStarted.startLink)).onDev
      (fun d => d.onTest (fun t => { t with later := [] }))) head addr
    simp only [State.onDev_dev, Dev.onTest_pwr, Dev.onTest_test] at pwr test
    rw [frame] at pwr test
    refine ⟨_, rfl, congrArg Test.later test, congrArg Pwr.wakeClocks pwr, pends, ?_, marked⟩
    exact (congrArg Test.injected test).trans (satInc_eq_min ..)
  · have starts := Dev.clocksStarted_startLink wake writes room
    refine next_onDev (exec_pllLocked_idle wake seen stopped idle) starts ⟨rfl, fun x other => ?_, rfl, ?_, ?_, rfl, rfl⟩
    · exact Dev.domainOn_released rfl other
    · dsimp only
      split <;> rfl
    · exact apply_ite Link.state _ _ _
  · refine next_onDev (exec_resumptionBoundary wake clocks) rfl ?_
    rw [Dev.resumeSync_frame]
    exact ⟨rfl, rfl, rfl, rfl, rfl, rfl, rfl, rfl, Evt.raise_self _ 1 rfl, rfl, rfl⟩

end Sys2Proof.Proofs

/-! ## Writes of stored registers (R240, R274, R296, R323, R373, R407, R450, R452, R455, R463, R473) -/

namespace Sys2Proof.Machine

theorem bits_low (n w : Nat) : bits n 0 w = n % 2 ^ w := by rw [bits, Nat.pow_zero, Nat.div_one]

theorem mod_32_eq_bits (n : Nat) : n % 32 = bits n 0 5 := (bits_low n 5).symm
theorem mod_256_eq_bits (n : Nat) : n % 256 = bits n 0 8 := (bits_low n 8).symm

theorem toNat_append_byte (hi lo : Byte) : (hi ++ lo : BitVec 16).toNat = 256 * hi.toNat + lo.toNat := by
  rw [BitVec.toNat_append, ← Nat.shiftLeft_add_eq_or_of_lt lo.isLt, Nat.shiftLeft_eq, Nat.mul_comm]

/-! ### The registers of 128 events (R450, R452, R455) -/

/-- Bit `n` of word `m` of a register of 128 events, its other words being 0. -/
theorem eventWord_getLsbD (m : Nat) (w : Word) {n : Nat} (lt : n < 128) :
    (w.setWidth 128 <<< (32 * m)).getLsbD n = (decide (n / 32 = m) && w.getLsbD (n % 32)) := by
  rw [BitVec.getLsbD_shiftLeft, BitVec.getLsbD_setWidth]
  by_cases own : n / 32 = m
  · have offset : n - 32 * m = n % 32 := by omega
    have within : ¬ n < 32 * m := by omega
    simp [lt, own, offset, within, show n % 32 < 128 by omega]
  · rcases Nat.lt_or_ge n (32 * m) with below | above
    · simp [own, below]
    · have past : w.getLsbD (n - 32 * m) = false := BitVec.getLsbD_of_ge _ _ (by omega)
      simp [own, past]

theorem reservedEvent_of_ge {n : Nat} (ge : 128 ≤ n) : reservedEvent n = true := by simp [reservedEvent, ge]

theorem enMask_getLsbD (n : Nat) : enMask.getLsbD n = !reservedEvent n := by
  have events : ∀ n < 128, enMask.getLsbD n = !reservedEvent n := by decide +kernel
  rcases Nat.lt_or_ge n 128 with lt | ge
  · exact events n lt
  · rw [BitVec.getLsbD_of_ge _ _ ge, reservedEvent_of_ge ge]
    rfl

/-- Writing 1 to a bit of a word of EVT_PEND clears that event and no other. -/
theorem Evt.clear_pend (e : Evt) (m : Nat) (w : Word) (n : Nat) :
    (e.clear m w).pend.getLsbD n = (e.pend.getLsbD n && !(decide (n / 32 = m) && w.getLsbD (n % 32))) := by
  rcases Nat.lt_or_ge n 128 with lt | ge
  · rw [Evt.clear, BitVec.getLsbD_and, BitVec.getLsbD_not, eventWord_getLsbD m w lt, decide_eq_true lt, Bool.true_and]
  · rw [BitVec.getLsbD_of_ge _ _ ge, BitVec.getLsbD_of_ge _ _ ge, Bool.false_and]

/-- A word of EVT_EN is stored but for the bits of reserved events, and the other words stay. -/
theorem Evt.enable_en (e : Evt) (m : Nat) (w : Word) (n : Nat) : (e.enable m w).en.getLsbD n =
    (!reservedEvent n && if n / 32 = m then w.getLsbD (n % 32) else e.en.getLsbD n) := by
  rcases Nat.lt_or_ge n 128 with lt | ge
  · have ones : ((0xFFFFFFFF#128) <<< (32 * m)).getLsbD n = decide (n / 32 = m) := by
      refine (eventWord_getLsbD m (BitVec.allOnes 32) lt).trans ?_
      rw [BitVec.getLsbD_allOnes, decide_eq_true (Nat.mod_lt n (by decide)), Bool.and_true]
    rw [Evt.enable, BitVec.getLsbD_and, BitVec.getLsbD_or, BitVec.getLsbD_and, BitVec.getLsbD_not, ones, eventWord_getLsbD m w lt,
      enMask_getLsbD, decide_eq_true lt, Bool.true_and, Bool.and_comm]
    by_cases own : n / 32 = m <;> simp [own]
  · rw [BitVec.getLsbD_of_ge _ _ ge, reservedEvent_of_ge ge]
    rfl

/-! ### The write of each register (R462) -/

theorem State.writeReg_evtPend (s : State) (m : BitVec 2) (w : Word) :
    s.writeReg (0x0C00 + 4 * m.setWidth 16 : BitVec 16).toNat w = s.onDev (fun d => d.onEvt (fun e => e.clear m.toNat w)) := by
  have words : ∀ m : BitVec 2, m = 0 ∨ m = 1 ∨ m = 2 ∨ m = 3 := by decide
  obtain rfl | rfl | rfl | rfl := words m <;> rfl

theorem State.writeReg_evtEn (s : State) (m : BitVec 2) (w : Word) :
    s.writeReg (0x0C10 + 4 * m.setWidth 16 : BitVec 16).toNat w = s.onDev (fun d => d.onEvt (fun e => e.enable m.toNat w)) := by
  have words : ∀ m : BitVec 2, m = 0 ∨ m = 1 ∨ m = 2 ∨ m = 3 := by decide
  obtain rfl | rfl | rfl | rfl := words m <;> rfl

/-- Word `i` of SEC_RESP (R373). -/
theorem State.writeReg_secResp (s : State) {i : Nat} (lt : i < 36) (w : Word) :
    s.writeReg (0x7060 + 4 * i) w = s.onDev (fun d => d.onSec (fun x => { x with resp := setNth x.resp i w })) := by
  have word : (0x7060 + 4 * i - 0x7060) / 4 = i := by omega
  rw [State.writeReg]
  iterate 11 rw [if_neg (by omega)]
  rw [if_pos (by omega), word]

theorem mapAddrOf_eq (v : Nat) : mapAddrOf v = if 1081340 < v % 2 ^ 21 / 4 * 4 then 0 else v % 2 ^ 21 / 4 * 4 := by
  rw [mapAddrOf, bits_low]

/-- CFG_IMG_ADDR stores a word address (R407). -/
theorem imgAddr_eq (v : Nat) : bits v 2 24 * 4 = v % 2 ^ 26 / 4 * 4 := by
  rw [bits]
  omega

end Sys2Proof.Machine

namespace Sys2Proof.Proofs

open Sys2Proof Sys2Proof.Machine Sys2Proof.Claims

/-- An accepted write of a register is recorded by the port, and the register takes its effect. -/
theorem portWrite_written {s : State} {a : BitVec 16} {w : Word} {crc : Byte} (ok : WriteOk s a w crc) :
    s.portWrite a w crc = (written s a).writeReg a.toNat w := by
  obtain ⟨on, holds, crcOk, judged⟩ := ok
  exact State.portWrite_ok s a w crc on holds crcOk judged

/-- A register whose write changes the blocks by `f` of the data stores it. -/
theorem storesWord_of_writeReg {s : State} {hi lo : Byte} {f : Word → Dev → Dev}
    (stores : ∀ w, (written s (hi ++ lo)).writeReg (hi ++ lo : BitVec 16).toNat w = (written s (hi ++ lo)).onDev (f w)) :
    StoresWord s hi lo f :=
  fun _ _ _ _ _ ok => ⟨_, rfl, (portWrite_written ok).trans (stores _)⟩

/-- An accepted write of one register by a row of its own. -/
theorem next_portWrite {c : Instr} {s : State} {a : BitVec 16} {w : Word} {crc : Byte} {f : Dev → Dev} {P : State → Prop}
    (run : exec c s = .next (s.portWrite a w crc)) (ok : WriteOk s a w crc)
    (stores : (written s a).writeReg a.toNat w = (written s a).onDev f) (spec : P (writtenWith s a f)) : Next c s P :=
  ⟨_, run.trans (congrArg _ ((portWrite_written ok).trans stores)), spec⟩

theorem evtEn_address (m : BitVec 2) : (0x0C : Byte) ++ (0x10 + 4 * m.setWidth 8 : Byte) = (0x0C10 + 4 * m.setWidth 16 : BitVec 16) := by
  revert m
  decide

theorem secResp_address {i : BitVec 8} (lt : i < 36) :
    ((0x70 : Byte) ++ (0x60 + 4 * i : Byte) : BitVec 16).toNat = 0x7060 + 4 * i.toNat := by
  rw [toNat_append_byte]
  bv_omega

/-- Settles O24: an accepted write is recorded and takes the effect of its register, of which each clause reads off the stored field. -/
theorem storedRegisterWrites : Obligations.StoredRegisterWrites := by
  refine ⟨fun s => ⟨storesWord_of_writeReg fun w => ?sectSel, storesWord_of_writeReg fun w => ?bufSel,
    storesWord_of_writeReg fun w => ?calSel, storesWord_of_writeReg fun w => ?refSel, storesWord_of_writeReg fun w => ?certWord,
    storesWord_of_writeReg fun w => rfl, storesWord_of_writeReg fun w => ?mapAddr,
    fun i lt => storesWord_of_writeReg fun w => ?secResp, fun m d3 d2 d1 d0 crc ok => ?evtEn⟩,
    fun s crc => ⟨fun m w ok => ?evtPend, fun i ok => ?histSel, fun w ok => ?imgAddr⟩⟩
  case sectSel => rw [mod_32_eq_bits w.toNat]; rfl
  case bufSel => rw [mod_256_eq_bits w.toNat]; rfl
  case calSel => rw [mod_256_eq_bits w.toNat]; rfl
  case refSel => rw [mod_256_eq_bits w.toNat]; rfl
  case certWord => rw [mod_256_eq_bits w.toNat]; rfl
  case mapAddr => rw [← mapAddrOf_eq]; rfl
  case secResp =>
    rw [secResp_address lt]
    exact State.writeReg_secResp _ (by bv_omega) w
  case evtEn =>
    have run : exec (.registerWrite [0x0C, 0x10 + 4 * m.setWidth 8, d3, d2, d1, d0, crc]) s =
        .next (s.portWrite (0x0C10 + 4 * m.setWidth 16) (d3 ++ d2 ++ d1 ++ d0) crc) := by
      rw [← evtEn_address]
      rfl
    exact next_portWrite run ok (State.writeReg_evtEn _ m _)
      ⟨⟨rfl, rfl, rfl, rfl, rfl⟩, s.dev.evt.enable_en m.toNat (d3 ++ d2 ++ d1 ++ d0), rfl⟩
  case evtPend =>
    exact next_portWrite rfl ok (State.writeReg_evtPend _ m w)
      ⟨⟨rfl, rfl, rfl, rfl, rfl⟩, s.dev.evt.clear_pend m.toNat w, rfl⟩
  case histSel =>
    have index : bits (i.setWidth 32 : Word).toNat 0 4 = i.toNat := by
      rw [BitVec.toNat_setWidth_of_le (by decide), bits_of_lt i.isLt]
    exact next_portWrite rfl ok (congrArg (fun n => (written s 0x0814).onDev (fun d => d.histSelect n)) index) rfl
  case imgAddr =>
    exact next_portWrite rfl ok
      (congrArg (fun n => (written s 0x7824).onDev (fun d => d.onCfg (fun c => { c.readEnds with imgAddr := n, imgReady := false })))
        (imgAddr_eq w.toNat)) rfl

end Sys2Proof.Proofs

/-! ## Session events (R216, R359, R360, R362 to R364, R372, R395) -/

namespace Sys2Proof.Machine

/-! ### SESSION frames (R359) -/

/-- An unnumbered frame goes out with its payload in clear behind its header (R214, R361). -/
theorem State.frameOut_unnumbered (s : State) {ty : Nat} (len sn : Nat) (fields payload : Bytes) (plain : numbered ty = false) :
    s.frameHeader ty len sn fields ++ payload <+: s.frameOut ty len sn fields payload := by
  refine .trans (.trans ?_ ⟨_, rfl⟩) ⟨_, rfl⟩
  rw [State.frameHeader, Fw.limits, ← List.append_assoc, State.frameHead]
  simp only [plain, Bool.false_and, Bool.false_eq_true, if_false]
  exact ⟨_, List.append_assoc ..⟩

theorem State.frameHeader_length (s : State) (ty len sn : Nat) {fields : Bytes} (short : fields.length ≤ 8) :
    (s.frameHeader ty len sn fields).length = 16 := by
  rw [State.frameHeader, List.length_append, State.frameHead_limits_length, List.length_append, List.length_replicate]
  omega

/-- The SESSION frame with MSG and ATTEMPT. -/
def State.sessionFrame (s : State) (msg : Nat) (attempt : Byte) (payload : Bytes) : Bytes :=
  s.frameOut 3 payload.length 0 (toBe 1 msg ++ [attempt]) payload

theorem State.sessionFrame_type (s : State) (msg : Nat) (attempt : Byte) (payload : Bytes) :
    (s.sessionFrame msg attempt payload).take 1 = [3] := s.frameOut_type ..

theorem State.sessionFrame_msg (s : State) (msg : Nat) (attempt : Byte) (payload : Bytes) :
    slice (s.sessionFrame msg attempt payload) 8 1 = [BitVec.ofNat 8 msg] := by
  refine (s.frameOut_fields 3 payload.length 0 (toBe 1 msg) [attempt] payload).trans ?_
  rw [toBe, Nat.pow_zero, Nat.div_one, toBe]

theorem State.sessionFrame_payload (s : State) (msg : Nat) (attempt : Byte) (payload : Bytes) :
    slice (s.sessionFrame msg attempt payload) 16 payload.length = payload := by
  have begins := slice_of_begins (s.frameOut_unnumbered payload.length 0 (toBe 1 msg ++ [attempt]) payload (rfl : numbered 3 = false))
  have short : (toBe 1 msg ++ [attempt]).length ≤ 8 := by
    rw [List.length_append, toBe_length, List.length_singleton]
    decide
  rwa [s.frameHeader_length 3 payload.length 0 short] at begins

/-- What goes out takes the next transmit slot and stands in the transmit buffer. -/
def State.transmitted (s : State) (l : Link) (out : Bytes) : State :=
  s.onDev (fun d => { d with link := l, fw := { d.fw with txFrame := out } })

theorem State.sendSession_sends {s : State} (on : s.dev.rxOn = true) (transmits : s.dev.link.txSet ≠ 0) (msg : Nat) (attempt : Byte)
    (payload : Bytes) : s.sendSession msg attempt payload =
      s.transmitted (s.dev.link.sendFrame (s.sessionFrame msg attempt payload)) (s.sessionFrame msg attempt payload) := by
  have goes : (s.dev.rxOn && s.dev.link.txSet != 0) = true := by simp [on, transmits]
  exact if_pos goes

theorem State.sendSession_mute {s : State} (mute : s.dev.link.txSet = 0) (msg : Nat) (attempt : Byte) (payload : Bytes) :
    s.sendSession msg attempt payload = s := by
  have stays : ¬ (s.dev.rxOn && s.dev.link.txSet != 0) = true := by simp [mute]
  exact if_neg stays

/-- A SESSION frame goes out where the link transmits, and nothing else changes. -/
theorem State.sendSession_spec {s : State} (on : s.dev.rxOn = true) (msg : Nat) (attempt : Byte) (payload : Bytes) :
    ∃ l out, s.sendSession msg attempt payload = s.transmitted l out ∧
      (s.dev.link.txSet ≠ 0 → out = s.sessionFrame msg attempt payload) := by
  by_cases mute : s.dev.link.txSet = 0
  · exact ⟨_, _, State.sendSession_mute mute .., fun transmits => absurd mute transmits⟩
  · exact ⟨_, _, State.sendSession_sends on mute .., fun _ => rfl⟩

/-- A receive slot taken leaves what the link is. -/
theorem Dev.rxSlot_rxOn (d : Dev) : d.rxSlot.rxOn = d.rxOn := rfl

/-- A SESSION frame that passes its checks is the event of its message. -/
theorem State.sessionIn_good {s : State} {f p : Bytes} {msg : Nat} (on : s.dev.rxOn = true) (good : s.dev.checkFrame f = .good p)
    (type : fType f = 3) (own : fField f 8 1 = msg) (k : State → Bytes → State) :
    s.sessionIn f msg k = k (s.onDev Dev.rxSlot) (p.take (fLen f)) := by
  simp [State.sessionIn, on, good, type, own]

/-! ### HELLO_H (R359, R360) -/

/-- HELLO_H abandons a handshake under way and ends the repeats of REKEY (R360, R364). -/
def State.greeted (s : State) : State := s.onDev (fun d => d.onSes (fun x => { x with hs := none, rekeySent := false }))

/-- HELLO_D up to its signature, from the next random draws. -/
def State.helloDUnsigned (s : State) (p : Bytes) : Bytes :=
  helloDHead (helloMode p) (randomBytes (s.dev.sec.draws + 1) 32) (Config.derivePub (randomBytes s.dev.sec.draws 32)) s.otp.cert

/-- The handshake that HELLO_H begins, of its attempt and under the key of its certificate. -/
def State.handshakeFor (s : State) (f p : Bytes) (c : Config.CertInfo) : Handshake where
  helloH := p
  helloD := s.helloDUnsigned p ++
    Config.ecdsaSign s.otp.privKey (Config.sha256 (p ++ s.helloDUnsigned p)) (s.dev.sec.draws + 2)
  attempt := fAttempt f
  hostPub := c.pub
  mode := helloMode p
  priv := randomBytes s.dev.sec.draws 32
  at_ := s.dev.now

/-- HELLO_D goes out, and the handshake begins. -/
def State.helloAnswered (s : State) (f p : Bytes) (c : Config.CertInfo) : State :=
  (s.greeted.sendSession 2 (fAttempt f) (s.handshakeFor f p c).helloD).onDev (fun d =>
    (d.onSec (fun x => { x with draws := s.dev.sec.draws + 3 })).onSes (fun x => { x with hs := some (s.handshakeFor f p c) }))

theorem State.helloH_noKey {s : State} (lacks : s.dev.sec.keyOk = false ∨ s.dev.has 14 = false) (f p : Bytes) :
    s.helloH f p = s.greeted.abortSession 5 (fAttempt f) := by
  have lacks : (!s.dev.sec.keyOk || !s.dev.has 14) = true := by simpa using lacks
  exact if_pos lacks

section
variable {s : State} (key : s.dev.sec.keyOk = true) (keys : s.dev.has 14 = true) (f : Bytes) {p : Bytes}
include key keys

theorem State.has_keys : ¬ (!s.dev.sec.keyOk || !s.dev.has 14) = true := by simp [key, keys]

theorem State.helloH_noCert (info : Config.certInfo (helloCert p) = none) :
    s.helloH f p = s.greeted.abortSession 1 (fAttempt f) := by
  refine (if_neg (State.has_keys key keys)).trans ?_
  rw [info]
  rfl

variable {c : Config.CertInfo} (info : Config.certInfo (helloCert p) = some c)
include info

theorem State.helloH_badCert (bad : s.dev.certOk c = false) : s.helloH f p = s.greeted.abortSession 1 (fAttempt f) := by
  have bad : (!s.dev.certOk c) = true := by simp [bad]
  refine (if_neg (State.has_keys key keys)).trans ?_
  rw [info]
  exact if_pos bad

variable (cert : s.dev.certOk c = true)
include cert

theorem State.helloH_badMode (bad : helloMode p < s.dev.minMode ∨ 2 < helloMode p) :
    s.helloH f p = s.greeted.abortSession 3 (fAttempt f) := by
  have cert : ¬ (!s.dev.certOk c) = true := by simp [cert]
  refine (if_neg (State.has_keys key keys)).trans ?_
  rw [info]
  exact (if_neg cert).trans (if_pos bad)

theorem State.helloH_answers (mode : s.dev.minMode ≤ helloMode p) (known : helloMode p ≤ 2) :
    s.helloH f p = s.helloAnswered f p c := by
  have cert : ¬ (!s.dev.certOk c) = true := by simp [cert]
  have good : ¬ (helloMode p < s.dev.minMode ∨ 2 < helloMode p) := by omega
  refine (if_neg (State.has_keys key keys)).trans ?_
  rw [info]
  exact (if_neg cert).trans (if_neg good)

end

/-- HELLO_H is answered by ABORT or by HELLO_D. -/
theorem State.helloH_cases (s : State) (f p : Bytes) :
    (∃ reason, s.helloH f p = s.greeted.abortSession reason (fAttempt f)) ∨ ∃ c, s.helloH f p = s.helloAnswered f p c := by
  by_cases lacks : s.dev.sec.keyOk = false ∨ s.dev.has 14 = false
  · exact .inl ⟨5, State.helloH_noKey lacks f p⟩
  obtain ⟨key, keys⟩ : s.dev.sec.keyOk = true ∧ s.dev.has 14 = true := by simpa using lacks
  cases info : Config.certInfo (helloCert p) with
  | none => exact .inl ⟨1, State.helloH_noCert key keys f info⟩
  | some c =>
    cases cert : s.dev.certOk c with
    | false => exact .inl ⟨1, State.helloH_badCert key keys f info cert⟩
    | true =>
      by_cases bad : helloMode p < s.dev.minMode ∨ 2 < helloMode p
      · exact .inl ⟨3, State.helloH_badMode key keys f info cert bad⟩
      · exact .inr ⟨c, State.helloH_answers key keys f info cert (by omega) (by omega)⟩

/-! ### FINISH_H (R216, R359, R362, R364) -/

section
variable {s : State} {h : Handshake} (own : s.dev.ses.hs = some h) {f : Bytes} (attempt : fAttempt f = h.attempt) {p : Bytes}
include own attempt

theorem State.finishH_refused
    (bad : Config.ecdsaVerify h.hostPub (Config.sha256 (h.helloH ++ h.helloD)) (p.take 64) = false) :
    s.finishH f p = s.abortSession 2 h.attempt := by
  simp [State.finishH, own, attempt, bad]

theorem State.finishH_accepted
    (good : Config.ecdsaVerify h.hostPub (Config.sha256 (h.helloH ++ h.helloD)) (p.take 64) = true) :
    s.finishH f p = (s.sendSession 4 h.attempt []).onDev (fun d => d.sessionUp (h.keys p) h.mode s.lat.safe) := by
  simp [State.finishH, own, attempt, good]

end

/-- A session comes up: its keys, the previous ones for the overlap, numbers from 0, and the events. -/
theorem Dev.sessionUp_spec (d : Dev) (keys : Keys) (mode : Nat) (safe : Bool) :
    (d.sessionUp keys mode safe).ses = { d.ses with
      oldKeys := d.ses.keys, oldMode := d.ses.mode, keys := some keys, mode := mode, hs := none
      handshakes := Nat.min 65535 (d.ses.handshakes + 1), rekeys := satAdd 65535 d.ses.rekeys (b1 d.ses.up) } ∧
    (d.sessionUp keys mode safe).fw = { d.fw with rxNextOld := d.fw.rxNext, rxNext := 0, txNext := 0 } ∧
    (d.sessionUp keys mode safe).evt = if d.ses.up then (d.evt.raise 115).raise 117 else d.evt.raise 115 := by
  rw [Dev.sessionUp, Dev.witnessWait_frame]
  simp only [Dev.raiseIf_ses, Dev.raiseIf_fw, satInc_eq_min]
  refine ⟨rfl, rfl, ?_⟩
  cases d.ses.up <;> rfl

end Sys2Proof.Machine

namespace Sys2Proof.Proofs

open Sys2Proof Sys2Proof.Machine Sys2Proof.Claims

theorem sameStore_of_onDev {s t : State} {f : Dev → Dev} (same : SameStore (s.onDev f) t) : SameStore s t := same

theorem answers_of_sessionFrame {s u t : State} {msg : Nat} {attempt : Byte} {payload : Bytes}
    (sent : s.dev.link.txSet ≠ 0 → t.dev.fw.txFrame = u.sessionFrame msg attempt payload) : Answers s t msg := fun transmits => by
  rw [sent transmits]
  exact ⟨u.sessionFrame_type .., u.sessionFrame_msg ..⟩

theorem handshakeFailed_of_sessionFail {s u : State} (ses : u.dev.ses = s.dev.ses) (keep : u.dev.keep = s.dev.keep) (reason : Nat) :
    HandshakeFailed s (u.onDev (fun d => d.sessionFail reason)) reason := by
  have fails := satInc_eq_min 65535 s.dev.ses.fails
  rw [← ses] at fails
  rw [HandshakeFailed, Sends, ← ses, ← keep]
  exact ⟨rfl, fails, rfl, rfl, Evt.raise_self _ 116 rfl, rfl⟩

/-- ABORT goes out with its reason, and the handshake fails. -/
theorem abortSession_aborts {s : State} (on : s.dev.rxOn = true) (reason : Nat) (attempt : Byte) :
    SameStore s (s.abortSession reason attempt) ∧ Aborted s (s.abortSession reason attempt) reason := by
  obtain ⟨l, out, sent, frame⟩ := State.sendSession_spec on 6 attempt (toBe 1 reason)
  rw [State.abortSession, sent]
  refine ⟨⟨rfl, rfl, rfl, rfl, rfl⟩, handshakeFailed_of_sessionFail rfl rfl reason, answers_of_sessionFrame frame, fun transmits => ?_⟩
  have payload : slice out 16 1 = toBe 1 reason := by
    rw [frame transmits]
    exact s.sessionFrame_payload 6 attempt (toBe 1 reason)
  rw [toBe, Nat.pow_zero, Nat.div_one, toBe] at payload
  exact payload

section
variable {s : State} (on : s.dev.rxOn = true) {f p : Bytes} (good : s.dev.checkFrame f = .good p) (type : fType f = 3)
include on good type

/-- HELLO_H, FINISH_H and ABORT take a receive slot first. -/
theorem exec_helloH (own : fField f 8 1 = 1) :
    exec (.helloH f) s = .next ((s.onDev Dev.rxSlot).helloH f (p.take (fLen f))) :=
  congrArg Host.Outcome.next (State.sessionIn_good on good type own _)

theorem exec_finishH (own : fField f 8 1 = 3) :
    exec (.finishH f) s = .next ((s.onDev Dev.rxSlot).finishH f (p.take (fLen f))) :=
  congrArg Host.Outcome.next (State.sessionIn_good on good type own _)

theorem exec_abort (own : fField f 8 1 = 6) {h : Handshake} (hand : s.dev.ses.hs = some h) (attempt : fAttempt f = h.attempt) :
    exec (.abort f) s = .next (s.onDev (fun d => d.rxSlot.sessionFail (beNat ((p.take (fLen f)).take 1)))) := by
  refine congrArg Host.Outcome.next ((State.sessionIn_good on good type own _).trans ?_)
  have hand : (s.onDev Dev.rxSlot).dev.ses.hs = some h := hand
  simp only [hand, attempt, if_true]
  rfl

end

/-- HELLO_D goes out and a handshake begins, which the random draws of the security engine have gone into. -/
theorem handshake_begins {s : State} (on : s.dev.rxOn = true) (attempt : Byte) (h : Handshake) (draws : Nat) {t : State}
    (begins : t = (s.sendSession 2 attempt h.helloD).onDev (fun d =>
      (d.onSec (fun x => { x with draws := draws })).onSes (fun x => { x with hs := some h }))) :
    SameStore s t ∧ Answers s t 2 ∧ t.dev.ses.keys = s.dev.ses.keys ∧ t.dev.sec = { s.dev.sec with draws := draws } ∧
      t.dev.ses.hs = some h := by
  obtain ⟨l, out, sent, frame⟩ := State.sendSession_spec on 2 attempt h.helloD
  rw [begins, sent]
  exact ⟨⟨rfl, rfl, rfl, rfl, rfl⟩, answers_of_sessionFrame frame, rfl, rfl, rfl⟩

theorem helloAnswered_begins {s : State} (on : s.dev.rxOn = true) (f p : Bytes) (c : Config.CertInfo) :
    SameStore s (s.helloAnswered f p c) ∧ Answers s (s.helloAnswered f p c) 2 ∧
      (s.helloAnswered f p c).dev.ses.keys = s.dev.ses.keys ∧
      (s.helloAnswered f p c).dev.sec = { s.dev.sec with draws := s.dev.sec.draws + 3 } ∧
      (s.helloAnswered f p c).dev.ses.hs = some (s.handshakeFor f p c) :=
  handshake_begins (s := s.greeted) on _ _ _ rfl

theorem helloH_store {s : State} (on : s.dev.rxOn = true) (f p : Bytes) : SameStore s (s.helloH f p) := by
  obtain ⟨reason, aborts⟩ | ⟨c, answers⟩ := s.helloH_cases f p
  · rw [aborts]
    exact (abortSession_aborts (s := s.greeted) on reason (fAttempt f)).1
  · rw [answers]
    exact (helloAnswered_begins on f p c).1

/-- FINISH_H under a signature that does not verify ends the handshake; under the host's the session comes up. -/
theorem finishH_ends {s : State} (on : s.dev.rxOn = true) {h : Handshake} (own : s.dev.ses.hs = some h) {f : Bytes}
    (attempt : fAttempt f = h.attempt) (p : Bytes) : SameStore s (s.finishH f p) ∧
      (Config.ecdsaVerify h.hostPub (Config.sha256 (h.helloH ++ h.helloD)) (p.take 64) = false → Aborted s (s.finishH f p) 2) ∧
      (Config.ecdsaVerify h.hostPub (Config.sha256 (h.helloH ++ h.helloD)) (p.take 64) = true →
        Answers s (s.finishH f p) 4 ∧ (s.finishH f p).dev.ses = { s.dev.ses with
          oldKeys := s.dev.ses.keys, oldMode := s.dev.ses.mode, keys := some (h.keys p), mode := h.mode, hs := none
          handshakes := Nat.min 65535 (s.dev.ses.handshakes + 1), rekeys := satAdd 65535 s.dev.ses.rekeys (b1 s.dev.ses.up) } ∧
        (s.finishH f p).dev.fw = { s.dev.fw with
          txFrame := (s.finishH f p).dev.fw.txFrame, rxNextOld := s.dev.fw.rxNext, rxNext := 0, txNext := 0 } ∧
        Pends (s.finishH f p) 115 ∧ (s.dev.ses.up = true → Pends (s.finishH f p) 117)) := by
  cases verdict : Config.ecdsaVerify h.hostPub (Config.sha256 (h.helloH ++ h.helloD)) (p.take 64) with
  | false =>
    rw [State.finishH_refused own attempt verdict]
    obtain ⟨store, aborted⟩ := abortSession_aborts on 2 h.attempt
    exact ⟨store, fun _ => aborted, nofun⟩
  | true =>
    obtain ⟨l, out, sent, frame⟩ := State.sendSession_spec on 4 h.attempt []
    rw [State.finishH_accepted own attempt verdict, sent]
    obtain ⟨ses, fw, evt⟩ := (s.transmitted l out).dev.sessionUp_spec (h.keys p) h.mode s.lat.safe
    have answers : Answers s ((s.transmitted l out).onDev (fun d => d.sessionUp (h.keys p) h.mode s.lat.safe)) 4 :=
      answers_of_sessionFrame fun transmits => (congrArg Fw.txFrame fw).trans (frame transmits)
    refine ⟨⟨rfl, rfl, rfl, rfl, rfl⟩, nofun, fun _ => ⟨answers, ses, ?_, ?_, fun up => ?_⟩⟩
    · rw [State.onDev_dev, fw]
      rfl
    · rw [Pends, State.onDev_dev, evt]
      split
      · exact Evt.raise_keeps _ 117 115 (Evt.raise_self _ 115 rfl)
      · exact Evt.raise_self _ 115 rfl
    · have up : (s.transmitted l out).dev.ses.up = true := up
      rw [Pends, State.onDev_dev, evt, if_pos up]
      exact Evt.raise_self _ 117 rfl

/-- The REKEY frame (R364). -/
def rekeyOut (s : State) : Bytes := s.sessionFrame 5 0 []

theorem rekeyOut_type (s : State) : (rekeyOut s).take 1 = [3] := s.sessionFrame_type 5 0 []
theorem rekeyOut_msg (s : State) : slice (rekeyOut s) 8 1 = [5] := s.sessionFrame_msg 5 0 []

theorem rekey_sends {s : State} (on : s.dev.txOn = true) :
    s.sendSession 5 0 [] = s.transmitted (s.dev.link.sendFrame (rekeyOut s)) (rekeyOut s) := by
  simp only [Dev.txOn, Bool.and_eq_true, bne_iff_ne] at on
  obtain ⟨⟨rx, transmits⟩, -⟩ := on
  exact State.sendSession_sends rx transmits 5 0 []

theorem exec_rekey {s : State} (on : s.dev.txOn = true) (up : s.dev.ses.up = true) (out : s.dev.fw.runsOut = true)
    (fresh : s.dev.ses.rekeySent = false) (idle : s.dev.ses.hs = none) : exec .rekey s = .next (s.onDev (fun d => { d with
      ses := { d.ses with rekeySent := true }, fw := { d.fw with txFrame := rekeyOut s }
      link := d.link.sendFrame (rekeyOut s) })) := by
  have goes : (s.dev.ses.up && s.dev.fw.runsOut && !s.dev.ses.rekeySent && s.dev.ses.hs.isNone && s.dev.txOn) = true := by
    simp [on, up, out, fresh, idle]
  refine congrArg Host.Outcome.next ((if_pos goes).trans ?_)
  rw [rekey_sends on]
  rfl

theorem exec_rekeyRepeat {s : State} (on : s.dev.txOn = true) (again : s.dev.ses.rekeySent = true) :
    exec .rekeyRepeat s = .next (s.onDev (fun d => { d with
      fw := { d.fw with txFrame := rekeyOut s }, link := d.link.sendFrame (rekeyOut s) })) := by
  have goes : (s.dev.ses.rekeySent && s.dev.txOn) = true := by simp [on, again]
  refine congrArg Host.Outcome.next ((if_pos goes).trans ?_)
  rw [rekey_sends on]
  rfl

theorem exec_handshakeTimeout {s : State} (hand : s.dev.ses.hs.isSome = true) (main : s.dev.pwr.mainOn = true) :
    exec .handshakeTimeout s = .next (s.onDev (fun d => d.sessionFail 6)) := by
  have goes : (s.dev.ses.hs.isSome && s.dev.pwr.mainOn) = true := by simp [hand, main]
  exact congrArg Host.Outcome.next (if_pos goes)

/-- Settles O57: a SESSION frame takes a receive slot, which nothing of the session goes by, and each check that fails is an ABORT. -/
theorem sessionEventsComplete : Obligations.SessionEventsComplete := by
  refine ⟨fun s f p q on good type rest => ?_, fun s => ⟨fun hand main => ?_, fun tx up out fresh idle => ?_, fun tx again => ?_⟩⟩
  · subst rest
    have slot : (s.onDev Dev.rxSlot).dev.rxOn = true := s.dev.rxSlot_rxOn.trans on
    have aborts (reason : Nat) : Aborted s ((s.onDev Dev.rxSlot).greeted.abortSession reason (fAttempt f)) reason :=
      (abortSession_aborts (s := (s.onDev Dev.rxSlot).greeted) slot reason (fAttempt f)).2
    refine ⟨fun own => ?_, fun h own hand attempt => ?_, fun h own hand attempt => ?_⟩
    · rw [Next, exec_helloH on good type own]
      refine ⟨_, rfl, sameStore_of_onDev (helloH_store (s := s.onDev Dev.rxSlot) slot f _), fun lacks => ?_,
        fun key keys => ⟨fun none => ?_, fun c info => ⟨fun bad => ?_, fun cert bad => ?_, fun cert mode known => ?_⟩⟩⟩
      · rw [State.helloH_noKey (s := s.onDev Dev.rxSlot) lacks]
        exact aborts 5
      · rw [State.helloH_noCert (s := s.onDev Dev.rxSlot) key keys f none]
        exact aborts 1
      · rw [State.helloH_badCert (s := s.onDev Dev.rxSlot) key keys f info bad]
        exact aborts 1
      · rw [State.helloH_badMode (s := s.onDev Dev.rxSlot) key keys f info cert bad]
        exact aborts 3
      · rw [State.helloH_answers (s := s.onDev Dev.rxSlot) key keys f info cert mode known]
        obtain ⟨-, answers, kept, sec, begun⟩ := helloAnswered_begins (s := s.onDev Dev.rxSlot) slot f (p.take (fLen f)) c
        exact ⟨answers, kept, sec, _, begun, rfl, rfl, rfl, rfl, rfl⟩
    · obtain ⟨store, refused, accepted⟩ := finishH_ends (s := s.onDev Dev.rxSlot) slot hand attempt (p.take (fLen f))
      rw [Next, exec_finishH on good type own]
      refine ⟨_, rfl, sameStore_of_onDev store, refused, fun verified => ?_⟩
      obtain ⟨answers, ses, fw, pends, rekeyed⟩ := accepted verified
      rw [ses, fw]
      exact ⟨answers, rfl, rfl, rfl, rfl, rfl, rfl, rfl, pends, rekeyed, rfl⟩
    · exact next_onDev (exec_abort on good type own hand attempt) rfl
        (handshakeFailed_of_sessionFail (u := s.onDev Dev.rxSlot) rfl rfl _)
  · exact next_onDev (exec_handshakeTimeout hand main) rfl ⟨handshakeFailed_of_sessionFail (u := s) rfl rfl 6, raises_one rfl rfl, rfl⟩
  · rw [Next, exec_rekey tx up out fresh idle]
    exact ⟨_, rfl, ⟨rfl, rfl, rfl, rfl, rfl⟩, rekeyOut_type s, rekeyOut_msg s, rfl⟩
  · rw [Next, exec_rekeyRepeat tx again]
    exact ⟨_, rfl, ⟨rfl, rfl, rfl, rfl, rfl⟩, rekeyOut_type s, rekeyOut_msg s, rfl⟩

end Sys2Proof.Proofs

/-! ## Layer memory stays in its canonical form (R243, R245)

Whatever a command does, it leaves layer memory as it is, writes runs of bytes to it, or restarts with nothing written. One lemma for each
change of the whole state that a command is made of. -/

namespace Sys2Proof.Machine

/-- Layer memory in canonical form in `s` is so in `t`. -/
structure KeepsCanonical (s t : State) : Prop where
  wf : s.mem.wf = true → t.mem.wf = true

namespace KeepsCanonical

theorem refl (s : State) : KeepsCanonical s s := ⟨id⟩

theorem trans {a b c : State} (h : KeepsCanonical a b) (h' : KeepsCanonical b c) : KeepsCanonical a c := ⟨fun wf => h'.wf (h.wf wf)⟩

/-- What leaves layer memory as it is keeps its form. -/
theorem of_mem {s t : State} (same : t.mem = s.mem) : KeepsCanonical s t :=
  ⟨fun wf => (congrArg Memory.wf same).trans wf⟩

theorem onDev (s : State) (f : Dev → Dev) : KeepsCanonical s (s.onDev f) := of_mem rfl

/-- A change of the blocks after `t`. -/
theorem thenDev {s t : State} (h : KeepsCanonical s t) (f : Dev → Dev) : KeepsCanonical s (t.onDev f) := ⟨h.wf⟩

/-- A change of the blocks before it. -/
theorem afterDev {s t : State} {d : Dev} (h : KeepsCanonical { s with dev := d } t) : KeepsCanonical s t := ⟨h.wf⟩

theorem onLat (s : State) (f : Latches → Latches) : KeepsCanonical s (s.onLat f) := of_mem rfl

theorem ite {c : Prop} [Decidable c] {s t u : State} (ht : KeepsCanonical s t) (hu : KeepsCanonical s u) :
    KeepsCanonical s (if c then t else u) := by
  split
  · exact ht
  · exact hu

theorem foldl {α : Type} {f : State → α → State} (hf : ∀ s x, KeepsCanonical s (f s x)) (xs : List α) (s : State) :
    KeepsCanonical s (xs.foldl f s) :=
  List.foldlRecOn xs f (motive := fun t => KeepsCanonical s t) (refl s) (fun t h x _ => h.trans (hf t x))

theorem writeMem (s : State) (a : Nat) (bs : Bytes) : KeepsCanonical s (s.writeMem a bs) := ⟨s.writeMem_wf a bs⟩

/-- A restart leaves layer memory with nothing written (R245). -/
theorem restart (s : State) (cause : Nat) : KeepsCanonical s (s.restart cause) := ⟨fun _ => rfl⟩

/-- A command that answers `u`. -/
theorem of_next {s t u : State} (h : KeepsCanonical s u) :
    (Host.Outcome.next u : Host.Outcome State Fault Refusal) = .next t → KeepsCanonical s t := by
  intro run
  cases run
  exact h

/-- A command that answers `u` or stops. -/
theorem of_next_or_fault {s t u : State} {c : Prop} [Decidable c] {r : Fault} (h : KeepsCanonical s u) :
    (if c then .fault r else .next u : Host.Outcome State Fault Refusal) = .next t → KeepsCanonical s t := by
  split
  · exact nofun
  · exact of_next h

/-! ### Passes on the chains -/

theorem startPass (s : State) (t k : Nat) (pu : Purpose) (data : List (BitVec 16)) (flip : BitVec 20) :
    KeepsCanonical s (s.startPass t k pu data flip) := by
  obtain ⟨-, -, mem, -⟩ := (OnlyPasses.startPass s t k pu data flip).stores
  exact of_mem mem

theorem safePasses (s : State) (t : Nat) (hdr : List HdrErr) : KeepsCanonical s (s.safePasses t hdr) := by
  obtain ⟨-, -, mem, -⟩ := (OnlyPasses.safePasses s t hdr).stores
  exact of_mem mem

theorem afterStartPass (s : State) (t : Nat) (pu : Purpose) (hdr : List HdrErr) : KeepsCanonical s (s.afterStartPass t pu hdr) := by
  obtain ⟨-, -, mem, -⟩ := (OnlyPasses.afterStartPass s t pu hdr).stores
  exact of_mem mem

theorem inbound (s : State) (t k : Nat) (p : Pass) (err : PassErr) : KeepsCanonical s (s.inbound t k p err) := by
  obtain ⟨-, -, mem, -⟩ := (PassStep.inbound s t k p err).stores
  exact of_mem mem

theorem outbound (s : State) (t k : Nat) (p : Pass) (err : PassErr) : KeepsCanonical s (s.outbound t k p err) :=
  .ite (.onDev s _) (.onDev s _)

theorem readbackVerdict (s : State) (t : Nat) (pathBad : Bool) (hdr : List HdrErr) :
    KeepsCanonical s (s.readbackVerdict t pathBad hdr) := by
  unfold State.readbackVerdict
  dsimp only
  split
  · split
    · exact of_mem rfl
    · split
      · split
        · exact .afterDev (.safePasses _ t hdr)
        · exact of_mem rfl
      · exact of_mem rfl
  · exact .refl s

theorem readEnds (s : State) (t k : Nat) (p : Pass) (err : PassErr) : KeepsCanonical s (s.readEnds t k p err) :=
  .ite (.refl s) (.ite ((onDev s _).trans (.readbackVerdict ..)) (.ite (.onDev s _) (.refl s)))

theorem endPass (s : State) (t k : Nat) (err : PassErr) : KeepsCanonical s (s.endPass t k err) := by
  cases on : s.dev.pwr.mainOn with
  | false =>
    rw [State.endPass, on]
    exact .refl s
  | true =>
    cases runs : s.dev.passOn t k with
    | none =>
      rw [State.endPass, if_pos on, runs]
      exact .refl s
    | some p =>
      rw [s.endPass_eq t k err p on runs]
      exact ((((onDev s _).trans (.inbound _ t k p err)).trans (.outbound _ t k p err)).trans (.readEnds _ t k p err)).trans
        ((afterStartPass _ t p.purpose err.hdr).thenDev _)

theorem auxChain (s : State) (t k : Nat) (flip : BitVec 20) : KeepsCanonical s (s.auxChain t k flip) := by
  unfold State.auxChain
  split
  · exact .startPass ..
  · exact .startPass ..
  · exact .startPass ..
  · exact .refl s

theorem driveRow (s : State) (ty : Nat) (hdr : List HdrErr) (bb : List BbufErr) : KeepsCanonical s (s.driveRow ty hdr bb) := by
  unfold State.driveRow
  exact ((onDev s _).trans (.foldl (fun _ _ => .startPass ..) _ _)).thenDev _

/-! ### The entries of the schedule -/

theorem compose (s : State) (w : Work) (doneAt : Nat) (po co fetched : List Nat) :
    KeepsCanonical s (s.compose w doneAt po co fetched) := by
  have batches (b0 n : Nat) : KeepsCanonical s (s.composeBatches b0 n po co fetched) := by
    obtain ⟨-, -, mem, -⟩ := (BatchesAdded.composeBatches s b0 n po co fetched).store
    exact of_mem mem
  cases w with
  | entry i => exact .ite ((batches _ _).thenDev _) (.refl s)
  | rebuild b0 n => exact .ite (batches b0 n) (.refl s)

theorem chainDrive (s : State) (w : Work) (hdr : List HdrErr) (bb : List BbufErr) : KeepsCanonical s (s.chainDrive w hdr bb) := by
  cases w with
  | entry i => exact .ite ((onDev s _).trans (.driveRow ..)) (.refl s)
  | rebuild ty n => exact .ite (.driveRow s ty hdr bb) (.refl s)

theorem chainAux (s : State) (w : Work) (hdr : List HdrErr) : KeepsCanonical s (s.chainAux w hdr) := by
  cases w with
  | entry i => exact .ite (((onDev s _).trans (.foldl (fun _ _ => .auxChain ..) _ _)).thenDev _) (.refl s)
  | rebuild t k => exact .ite ((auxChain s t k _).thenDev _) (.refl s)

theorem entryDeadline (s : State) (i : Nat) : KeepsCanonical s (s.entryDeadline i) :=
  .ite (.refl s) (.ite (.refl s) (of_mem rfl))

theorem packRuns : ∀ (n : Nat) (s : State) (es : SMap (BitVec 12)), KeepsCanonical s (packRuns n s es)
  | 0, s, _ => .refl s
  | _ + 1, s, [] => .refl s
  | n + 1, _, _ :: _ => (writeMem ..).trans (packRuns n _ _)

/-- LEDGER writes the runs of the masks that wait to the trim cache. -/
theorem ledgerEntry (s : State) (i doneAt : Nat) (po co : List Nat) : KeepsCanonical s (s.ledgerEntry i doneAt po co) :=
  .ite (.refl s) (.ite (.onDev s _) ((onDev s _).trans ((packRuns ..).thenDev _)))

/-- HEALTH writes the health map. -/
theorem health (s : State) (i doneAt : Nat) (po co : List Nat) : KeepsCanonical s (s.health i doneAt po co) :=
  .ite (.refl s) ((onDev s _).trans (.ite (.onDev _ _) ((writeMem ..).thenDev _)))

theorem scan (s : State) (i doneAt : Nat) (flips : List (Nat × Byte)) (po co : List Nat) :
    KeepsCanonical s (s.scan i doneAt flips po co) := by
  refine .ite (.refl s) ((onDev s (fun d => d.begin i (some doneAt))).trans ?_)
  dsimp only
  split
  · exact .refl _
  · exact .ite (.onDev _ _) (of_mem rfl)

/-! ### The lamp frame and calibration -/

theorem tickCore (s : State) (temps : List (BitVec 12)) : KeepsCanonical s (s.tickCore temps) := by
  obtain ⟨-, mem, -⟩ := s.tickCore_stores temps
  exact of_mem mem

theorem conversion (s : State) (t c code : Nat) : KeepsCanonical s (s.conversion t c code) := by
  have cand (u : State) (j : Nat) : KeepsCanonical u (u.convCand t j code) := by
    unfold State.convCand
    split
    · exact .refl u
    · exact .onDev u _
  exact .ite (.refl s) ((onDev s _).trans (.ite (.onDev _ _) (.ite (.onDev _ _) (.ite (cand _ _) (.refl _)))))

theorem trimCommit (s : State) : KeepsCanonical s s.trimCommit :=
  by
  unfold State.trimCommit
  refine .ite (.refl s) (thenDev ?_ _)
  exact .ite (of_mem rfl) (of_mem rfl)

/-! ### Pixel diagnostics -/

theorem drivePulse (s : State) (t vled mv : Nat) (samples : List PixSample) : KeepsCanonical s (s.drivePulse t vled mv samples) :=
  .ite (.refl s) (.ite (.onDev s _) (of_mem rfl))

theorem probeWindow (s : State) (t : Nat) (samples : List PixSample) : KeepsCanonical s (s.probeWindow t samples) := by
  have probe (u : State) (p : Nat) : KeepsCanonical u (u.probe samples p) := .ite (of_mem rfl) (of_mem rfl)
  exact .ite (.refl s) ((onDev s _).trans (.ite (.refl _) (.foldl probe _ _)))

theorem checkerWindow (s : State) (t : Nat) (above : List Nat) : KeepsCanonical s (s.checkerWindow t above) :=
  .ite (.refl s) (of_mem rfl)

/-! ### The Keeper, the latches and the test block -/

theorem setSafe (s : State) (cause : Nat) : KeepsCanonical s (s.setSafe cause) := of_mem (SameStores.setSafe s cause).mem

theorem keeperTake (s : State) : KeepsCanonical s s.keeperTake := of_mem (SameStores.keeperTake s).mem

theorem perturb (s : State) (jtag : Bool) : KeepsCanonical s (s.perturb jtag) := .ite (.refl s) (of_mem rfl)

theorem control (s : State) (nonzero : Bool) : KeepsCanonical s (s.control nonzero) := .ite (.perturb s false) (.refl s)

theorem injectGo (s : State) (head : BitVec 16) (addr : Word) : KeepsCanonical s (s.injectGo head addr) :=
  (onDev s _).trans (.perturb _ false)

theorem drillGo (s : State) (u t : Nat) : KeepsCanonical s (s.drillGo u t) := by
  have drilled (r : State) : KeepsCanonical r r.drilled := (onDev r _).trans (.perturb _ false)
  refine .ite (drilled s) ?_
  split
  · exact .onDev s _
  · exact (onDev s _).trans (drilled _)

theorem keepAct (s : State) (w : KeepWork) : KeepsCanonical s (s.keepAct w) := by
  cases w with
  | inject head addr => exact .injectGo s head addr
  | drill u t => exact .drillGo s u t
  | exclude t => exact of_mem rfl
  | tableLoaded => exact of_mem rfl
  | tableAbandoned => exact of_mem rfl

theorem keepWake (s : State) : KeepsCanonical s s.keepWake := .ite (.refl s) ((onDev s _).trans (.foldl keepAct _ _))

/-! ### The management port -/

theorem secCommand (s : State) (cmd key : Nat) : KeepsCanonical s (s.secCommand cmd key) :=
  .ite (.onDev s _) (.ite (.onDev s _) (.onDev s _))

theorem request (s : State) (t : Nat) : KeepsCanonical s (s.request t) := .ite (.onDev s _) (.onDev s _)

theorem writeInject (s : State) (v : Nat) : KeepsCanonical s (s.writeInject v) :=
  (onDev s _).trans (.ite (.refl _) (.ite (.onDev _ _) (.ite (.injectGo ..) (.onDev _ _))))

theorem writeDrill (s : State) (v : Nat) : KeepsCanonical s (s.writeDrill v) :=
  (onDev s _).trans (.ite (.refl _) (.ite (.drillGo ..) (.onDev _ _)))

/-- The effect of a register write, in the order of `State.writeReg`: the registers that reach more than their block stand apart. -/
theorem writeReg (s : State) (a : Nat) (w : Word) : KeepsCanonical s (s.writeReg a w) := by
  have block (f : Dev → Dev) : KeepsCanonical s (s.onDev f) := .onDev s f
  have controls (f : Dev → Dev) (nonzero : Bool) : KeepsCanonical s ((s.onDev f).control nonzero) := (onDev s f).trans (.control _ _)
  have power : KeepsCanonical s (s.writePwrReq w.toNat) := (onDev s _).trans (.ite (.request _ _) (.refl _))
  exact .ite (block _) <| .ite power <| .ite (of_mem rfl) <| .ite (block _) <| .ite (block _) <| .ite (block _) <| .ite (block _) <|
    .ite (block _) <| .ite (block _) <| .ite (block _) <| .ite (.secCommand s _ _) <| .ite (block _) <| .ite (block _) <|
    .ite (block _) <| .ite (block _) <| .ite (controls _ _) <| .ite (controls _ _) <| .ite (controls _ _) <| .ite (controls _ _) <|
    .ite (block _) <| .ite (.writeInject s _) <| .ite (.writeDrill s _) (.refl s)

theorem readNow (s : State) : KeepsCanonical s s.readNow := .ite (.onDev s _) (.onDev s _)

theorem portDo (s : State) (op : PortOp) : KeepsCanonical s (s.portDo op) := by
  cases op with
  | pointer a => exact of_mem rfl
  | write a w crc => exact .ite ((onDev s _).trans (.ite (.writeReg ..) (.refl _))) (.onDev s _)
  | bad => exact of_mem rfl
  | read => exact .readNow s
  | mapRead ecc => exact (readNow s).thenDev _

theorem portOp (s : State) (op : PortOp) : KeepsCanonical s (s.portOp op) := .ite (.refl s) (.ite (.onDev s _) (.portDo s op))

theorem portGo (s : State) : KeepsCanonical s s.portGo := (onDev s _).trans (.foldl portDo _ _)

theorem readAt (s : State) (a : BitVec 16) : KeepsCanonical s (s.readAt a) := (portOp ..).trans (.portOp ..)

theorem portBytes (s : State) (bs : Bytes) : KeepsCanonical s (s.portBytes bs) := by
  unfold State.portBytes
  split
  · exact .portOp ..
  · exact .portOp ..
  · exact .portOp ..

/-! ### Frames and the session -/

theorem frameIn (s : State) (f : Bytes) (want : Nat) (k : Dev → Bytes → Dev) : KeepsCanonical s (s.frameIn f want k) := by
  refine .ite (.refl s) ?_
  split
  · exact .onDev s _
  · exact .ite (.onDev s _) (.refl s)
  · exact .ite (.refl s) (.onDev s _)

theorem sendNumbered (s : State) (ty len : Nat) (fields payload : Bytes) : KeepsCanonical s (s.sendNumbered ty len fields payload) :=
  .of_mem rfl

theorem sendPlain (s : State) (ty len : Nat) (fields payload : Bytes) : KeepsCanonical s (s.sendPlain ty len fields payload) :=
  .of_mem rfl

theorem replyFrame (s t : State) : exec .replyFrame s = .next t → KeepsCanonical s t :=
  of_next <| .ite (.refl s) (.ite ((sendNumbered ..).thenDev _) ((sendPlain ..).thenDev _))

theorem sendLate (s : State) (k : Nat) (bs : Bytes) (bb : List BbufErr) : KeepsCanonical s (s.sendLate k bs bb) := by
  unfold State.sendLate
  exact ((onDev s _).trans (.sendNumbered ..)).thenDev _

theorem sendStats (s : State) : KeepsCanonical s s.sendStats := by
  unfold State.sendStats
  exact (sendNumbered ..).thenDev _

theorem sendDrive (s : State) (bb : List BbufErr) : KeepsCanonical s (s.sendDrive bb) := by
  unfold State.sendDrive
  exact ((onDev s _).trans (.sendNumbered ..)).thenDev _

theorem witnessFrame (s : State) (bb : List BbufErr) (t : State) : exec (.witnessFrame bb) s = .next t → KeepsCanonical s t := by
  refine of_next (.ite (.refl s) ?_)
  split
  · exact .sendLate ..
  · exact .ite (.sendStats s) (.sendDrive s bb)

theorem sendSession (s : State) (msg : Nat) (attempt : Byte) (payload : Bytes) :
    KeepsCanonical s (s.sendSession msg attempt payload) := .ite (.sendPlain ..) (.refl s)

theorem abortSession (s : State) (reason : Nat) (attempt : Byte) : KeepsCanonical s (s.abortSession reason attempt) :=
  (sendSession ..).thenDev _

theorem sessionIn {k : State → Bytes → State} (hk : ∀ s p, KeepsCanonical s (k s p)) (s : State) (f : Bytes) (msg : Nat) :
    KeepsCanonical s (s.sessionIn f msg k) := by
  refine .ite (.refl s) ?_
  split
  · exact .onDev s _
  · exact .ite ((onDev s _).trans (hk _ _)) (.refl s)
  · exact .refl s

theorem helloH (s : State) (f p : Bytes) : KeepsCanonical s (s.helloH f p) := by
  refine (onDev s _).trans (.ite (.abortSession ..) ?_)
  split
  · exact .abortSession ..
  · exact .ite (.abortSession ..) (.ite (.abortSession ..) ((sendSession ..).thenDev _))

theorem finishH (s : State) (f p : Bytes) : KeepsCanonical s (s.finishH f p) := by
  unfold State.finishH
  split
  · exact .refl s
  · exact .ite (.refl s) (.ite (.abortSession ..) ((sendSession ..).thenDev _))

/-! ### START, the loader and security -/

theorem secDone (s : State) : KeepsCanonical s s.secDone := by
  unfold State.secDone
  split
  · exact .refl s
  · exact .ite (of_mem rfl) (.ite (.ite (of_mem rfl) (of_mem rfl)) ((onDev s _).trans (.ite (of_mem rfl) (.ite (of_mem rfl) (.refl _)))))

theorem rollbackFuse (s t : State) : exec .rollbackFuse s = .next t → KeepsCanonical s t := by
  change execRollbackFuse s = .next t → KeepsCanonical s t
  unfold execRollbackFuse
  dsimp only
  split
  · exact of_next (of_mem rfl)
  · exact of_next (.refl s)

theorem slotInvalid (s : State) (sec why : Nat) : KeepsCanonical s (s.slotInvalid sec why) :=
  (onDev s _).trans (.ite (.onDev _ _) (of_mem rfl))

theorem sectionInvalid (s : State) (id why : Nat) : KeepsCanonical s (s.sectionInvalid id why) :=
  .ite (.onDev s _) (.slotInvalid s id why)

/-- The pixel gains and the symbol store are written to layer memory (R245). -/
theorem takeEffect (s : State) (id : Nat) (p : Bytes) (hdr : List HdrErr) : KeepsCanonical s (s.takeEffect id p hdr) := by
  unfold State.takeEffect
  split
  · exact .foldl (fun u t => .ite (.refl u) (.safePasses u t hdr)) _ s
  · exact .onDev s _
  · exact .onDev s _
  · exact .onDev s _
  · exact .ite (.refl s) (.writeMem ..)
  · exact .onDev s _
  · exact (writeMem ..).thenDev _
  · exact .onDev s _
  · exact .refl s

theorem sectionVerified (s : State) (id : Nat) (stored : Bytes) (hdr : List HdrErr) :
    KeepsCanonical s (s.sectionVerified id stored hdr) := by
  refine .ite (.sectionInvalid ..) ?_
  split
  · exact .sectionInvalid ..
  · exact .ite ((afterDev (.takeEffect _ id _ hdr)).thenDev _) ((onDev s _).trans (.sectionInvalid ..))

theorem readFails (s : State) (slotB dir : Bool) : KeepsCanonical s (s.readFails slotB dir) := by
  unfold State.readFails
  split
  · exact .onDev s _
  · exact .slotInvalid ..
  · split
    · exact .refl s
    · exact .sectionInvalid ..
    · exact .refl s
  · exact .refl s

theorem readRecords (s : State) (recs : List (Nat × Bytes)) : KeepsCanonical s (s.readRecords recs) := .ite (.refl s) (.onDev s _)

theorem imageStep (s : State) (recs : List (Nat × Bytes)) (hdr : List HdrErr) : KeepsCanonical s (s.imageStep recs hdr) := by
  unfold State.imageStep
  refine thenDev ?_ _
  split
  · exact of_mem rfl
  · exact .onDev s _

/-! ### PARK and wake -/

theorem pendingStart (s : State) : KeepsCanonical s s.pendingStart := by
  unfold State.pendingStart
  split
  · exact .ite (of_mem rfl) (.refl s)
  · exact .refl s

theorem beginWake (s : State) (src : Nat) : KeepsCanonical s (s.beginWake src) := .ite (.restart s 2) (.onDev s _)

theorem wakeEvent (s : State) (src : Nat) : KeepsCanonical s (s.wakeEvent src) := by
  refine .ite (.refl s) ?_
  split
  · exact .onDev s _
  · exact .onDev s _
  · exact .beginWake s src
  · exact .refl s

/-! ### Transfers -/

/-- A write that is served writes its bytes at its address; a read writes none (R249). -/
theorem transfer (s : State) (c b : Nat) (r : Req) (ecc : Ecc) (levels : List Nat) :
    KeepsCanonical s (s.transfer c b r ecc levels) :=
  .ite ⟨Memory.wf_writeAll s.mem r.addr r.data⟩ (of_mem rfl)

theorem memRequest (s : State) (op : MemOp) (t : State) : exec (.memRequest op) s = .next t → KeepsCanonical s t := by
  cases op with
  | read p a => exact of_next_or_fault (.onDev s _)
  | write p a data => exact of_next_or_fault (.onDev s _)
  | fww => exact of_next (.onDev s _)

theorem memTransferDone (s : State) (ch : Nat) (ready : BitVec 8) (ecc : Ecc) (levels : List Nat) (t : State) :
    exec (.memTransferDone ch ready ecc levels) s = .next t → KeepsCanonical s t := by
  refine of_next ((onDev s Dev.servePorts).trans (.ite (.refl _) (.ite (.onDev _ _) ?_)))
  split
  · exact .onDev _ _
  · split
    · exact .refl _
    · exact .transfer ..

end KeepsCanonical

end Sys2Proof.Machine

namespace Sys2Proof.Machine

namespace KeepsCanonical

/-! ### Every command, and the step -/

theorem of_exec (c : Instr) (s t : State) : exec c s = .next t → KeepsCanonical s t := by
  have stays : KeepsCanonical s s := .refl s
  have blocks (f : Dev → Dev) : KeepsCanonical s (s.onDev f) := .onDev s f
  cases c
  -- the blocks change, and nothing besides
  case keeperRegisterCheck | dramTrainingDone | startSelftestDone | noCommit | syncInEdge | syncRealign | safeReadbackDue |
      linkThrottle | refclkLoss | refclkPresent | laneLock | laneLoss | detectTimeout | ftsA | trainATimeout | ftsB | trainBTimeout |
      backoffEnd | widthSet | widthAck | rewidthTimeout | restoreAttempt | restoreSet | releaseSet | vc0BufferFree | generationComplete |
      layer | sectorSet | symbolSet | commit | mode | blend | time | delayedCommitEntry | giveUp | standbyParityFault | selftestPass |
      selftestFail | resync | calPassEnd | eccWindow | pfwNFall | pgoodTimeout | pgoodLost | clockSwitch | resumptionBoundary |
      pinFilterChange | imgFetch | fallingEdgeMissing | restoreTimeout => exact of_next (blocks _)
  -- they change under a condition
  case retentionLost | startLeadingLight | syncInSample | handshakeTimeout | keeperMessage | consequenceWindowClose | keeperParity |
      lockoutExpiry | recordWritten | pgoodAssert => exact of_next (.ite (blocks _) stays)
  case startTimeZero | keyCheck | flashHeaderRead | refresh | retrain | fallbackCopyDone => exact of_next (.ite stays (blocks _))
  case decisionPoint => exact of_next (.ite (.ite (blocks _) stays) (.ite (blocks _) stays))
  case refreshDue => exact of_next (.ite stays (.ite (blocks _) (blocks _)))
  case pad | i2cBusTimeout => exact of_next stays
  -- the fuses or the cells change beside them
  case claimFused | periodicCheckpoint => exact of_next (.ite (of_mem rfl) stays)
  case pwmPeriodStart => exact of_next (.ite (of_mem rfl) stays)
  case rollbackFuse => exact rollbackFuse s t
  -- restarts
  case powerOn => exact of_next ((restart s 0).thenDev _)
  case resetNAsserted => exact of_next (.ite ((restart s 1).thenDev _) stays)
  case supplyFault => exact of_next (.ite stays ((restart s 2).thenDev _))
  case wakeTimeout => exact of_next (.ite (.restart s 3) stays)
  -- START and the loader
  case flashReadRetry => exact of_next (.ite stays (.ite (blocks _) ((blocks _).trans (.readFails ..))))
  case signatureVerified => exact of_next (.ite stays (.ite (blocks _) (.slotInvalid s 15 5)))
  case sectionVerified =>
    refine of_next ?_
    split
    · exact stays
    · exact .ite stays (.ite (blocks _) (.ite stays (.sectionVerified ..)))
  case trimImageRestore => exact of_next (.ite stays ((readRecords s _).trans (.ite (.imageStep ..) (.refl _))))
  case tickZero => exact of_next (.ite stays (.ite (blocks _) ((tickCore s _).thenDev _)))
  -- the lamp frame, the array and the schedule
  case tick => exact of_next (.ite (.tickCore s _) stays)
  case limitTick => exact of_next (.ite ((blocks _).trans (.tickCore ..)) stays)
  case drivePulseSample => exact of_next (.drivePulse ..)
  case conversion => exact of_next (.conversion ..)
  case probeWindow => exact of_next (.probeWindow ..)
  case checkerWindow => exact of_next (.checkerWindow ..)
  case passApply => exact of_next (.endPass ..)
  case compose => exact of_next (.compose ..)
  case chainDrive => exact of_next (.chainDrive ..)
  case chainAux => exact of_next (.chainAux ..)
  case ledger => exact of_next (.ledgerEntry ..)
  case scan => exact of_next (.scan ..)
  case health => exact of_next (.health ..)
  case entryDeadline => exact of_next (.entryDeadline ..)
  case trimCommit => exact of_next (.trimCommit s)
  -- frames and the session
  case idleFrame => exact of_next ((blocks _).trans (.frameIn ..))
  case vc0Frame | vc1Frame => exact of_next (.frameIn ..)
  case replyFrame => exact replyFrame s t
  case witnessFrame bb => exact witnessFrame s bb t
  case helloH f => exact of_next (.sessionIn (fun u p => .helloH u f p) s f 1)
  case finishH f => exact of_next (.sessionIn (fun u p => .finishH u f p) s f 3)
  case abort f =>
    refine of_next (.sessionIn (fun u p => ?_) s f 6)
    split
    · exact .ite (.onDev u _) (.refl u)
    · exact .refl u
  case rekey => exact of_next (.ite ((sendSession ..).thenDev _) stays)
  case rekeyRepeat => exact of_next (.ite (.sendSession ..) stays)
  -- the Keeper, security and PARK
  case keeperTake => exact of_next (.ite (.keeperTake s) stays)
  case keepClockLoss => exact of_next (.ite ((setSafe s 0).thenDev _) stays)
  case keepClockResume => exact of_next (.ite (((onLat s _).thenDev _).trans ((keepWake _).trans (.portGo _))) stays)
  case secCommandDone => exact of_next (.ite (.secDone s) stays)
  case jtagInstruction => exact of_next (.ite stays ((blocks _).trans (.ite (.perturb _ true) (.refl _))))
  case pllLocked => exact of_next (.ite (blocks _) (.ite ((blocks _).trans (.keepWake _)) stays))
  case pendingRequestStart => exact of_next (.pendingStart s)
  case parkReached => exact of_next (.ite ((blocks _).trans (.ite (.refl _) (.beginWake ..))) stays)
  case wakeAddressMatch | wakePinEdge => exact of_next (.wakeEvent s _)
  -- the management port
  case clear1 | clear2 | keepHistSel | evtPendClear | cfgImgAddr | unlockService | unlockMaker | unlockVendor | claim | signStatus |
      levelRequest | parkRequest | creditHold | portDelay | commitDelay | tickJitter | inject | drill | pointerWrite =>
    exact of_next (.portOp s _)
  case cfgImgData | secCertData | ledgUtcHi => exact of_next (.readAt s _)
  case diagMapData => exact of_next ((portOp s _).trans (.portOp ..))
  case registerWrite => exact of_next (.portBytes s _)
  case registerRead r =>
    cases r with
    | none => exact of_next (.portOp s _)
    | some a => exact of_next (.readAt s a)
  -- requests to layer memory and their transfers
  case memRequest op => exact memRequest s op t
  case memTransferDone ch ready ecc levels => exact memTransferDone s ch ready ecc levels t

end KeepsCanonical

/-- Layer memory keeps its canonical form in a step (R243). -/
theorem step_keepsCanonical {s t : State} (run : step s = .next t) : KeepsCanonical s t := by
  unfold step at run
  split at run
  · cases run
    exact .of_mem rfl
  · next c rest _ => exact ⟨(KeepsCanonical.of_exec c { s with pending := rest } t run).wf⟩

end Sys2Proof.Machine

namespace Sys2Proof.Proofs

open Sys2Proof Sys2Proof.Machine Sys2Proof.Claims

/-- Settles O3: each command is made of changes that leave layer memory alone, of writes of runs of bytes, and of restarts. -/
theorem stepKeepsMemoryCanonical : Obligations.StepKeepsMemoryCanonical := fun _ _ wf run => (step_keepsCanonical run).wf wf

/-- Settles O5: each invariant is a fact about the reset state. -/
theorem resetMeetsInvariants : Obligations.ResetMeetsInvariants :=
  ⟨Memory.wf_reset, rfl, nofun, rfl, rfl, rfl, rfl, rfl⟩

end Sys2Proof.Proofs

/-! ## Reads that move on (R250, R296, R373, R407, R464) -/

namespace Sys2Proof.Machine

/-- A saturating sum is the lesser of its end and the sum. -/
theorem satAdd_eq_min (mx n k : Nat) : satAdd mx n k = Nat.min mx (n + k) := by
  unfold satAdd
  split
  · next h => exact (Nat.min_eq_right h).symm
  · next h => exact (Nat.min_eq_left (by omega)).symm

/-! ### Counts of layer memory (R250, R256, R257) -/

/-- What `total` granule reads, `n` of them answered by queued writes, count (R250, R256). -/
def Memc.counted (m : Memc) (total n : Nat) : Memc :=
  if total = 0 || m.dramLess then m
  else { m with forwarded := if n = 0 then m.forwarded else Nat.min 65535 (m.forwarded + n), reads := m.reads + (total - n) }

theorem Dev.countReads_eq (d : Dev) (total n : Nat) : d.countReads total n = d.onMemc (fun m => m.counted total n) := by
  unfold Dev.countReads Dev.onMemc Memc.counted
  simp only [satAdd_eq_min]
  split <;> rfl

theorem Memc.counted_dramLess {m : Memc} (dramLess : m.dramLess = true) (total n : Nat) : m.counted total n = m := by
  simp [Memc.counted, dramLess]

/-- A read that a queued write answers is counted as forwarded. -/
theorem Memc.counted_forwarded {m : Memc} (dram : m.dramLess = false) :
    m.counted 1 1 = { m with forwarded := Nat.min 65535 (m.forwarded + 1) } := by
  simp [Memc.counted, dram]

/-- One that reaches the DRAM is counted in the window. -/
theorem Memc.counted_fetched {m : Memc} (dram : m.dramLess = false) : m.counted 1 0 = { m with reads := m.reads + 1 } := by
  simp [Memc.counted, dram]

/-- Corrected errors reach their counts, the judgement of the window and what it starts, and the events. -/
theorem Dev.correctedErrors_frame (d : Dev) (n : Nat) : d.correctedErrors n = { d with
    memc := { d.memc with
      corrected := Nat.min 1048575 (d.memc.corrected + n), window := (d.correctedErrors n).memc.window
      windowOver := (d.correctedErrors n).memc.windowOver, copying := (d.correctedErrors n).memc.copying }
    evt := (d.correctedErrors n).evt } := by
  unfold Dev.correctedErrors
  simp only [satAdd_eq_min]
  cases !d.memc.windowOver && decide (d.ceLimit < d.memc.window + n) with
  | false => rfl
  | true => split <;> rfl

/-- The errors that ECC has corrected in a granule are counted. -/
def Dev.eccCounted (d : Dev) (e : Ecc) : Dev := if eccCorrected e = 0 then d else d.correctedErrors (eccCorrected e)

theorem Dev.eccCounted_frame (d : Dev) (e : Ecc) : d.eccCounted e = { d with
    memc := { d.memc with
      corrected := if eccCorrected e = 0 then d.memc.corrected else Nat.min 1048575 (d.memc.corrected + eccCorrected e)
      window := (d.eccCounted e).memc.window, windowOver := (d.eccCounted e).memc.windowOver
      copying := (d.eccCounted e).memc.copying }
    evt := (d.eccCounted e).evt } := by
  unfold Dev.eccCounted
  split
  · rfl
  · exact d.correctedErrors_frame _

/-! ### The port (R443, R447, R448) -/

/-- The port with its pointer at `a`. -/
def State.pointed (s : State) (a : BitVec 16) : State := s.onDev (fun d => d.onMgmt (fun m => { m with pointer := a }))

/-- The blocks once a read of register `a` has been carried out with value `v`. -/
def Dev.readDone (d : Dev) (a : Nat) (v : Word) : Dev :=
  ((d.answer 0 v).readEffect a).onMgmt (fun m => { m with utcHold := d.utcAfter a })

/-- A read of the fetched word moves on to the next one (R407). -/
theorem Dev.readDone_image (d : Dev) (ready : d.cfg.imgReady = true) (v : Word) : d.readDone 0x7828 v = { d with
    mgmt := (d.readDone 0x7828 v).mgmt, cfg := { d.cfg with imgAddr := (d.cfg.imgAddr + 4) % 2 ^ 26, imgReady := false } } := by
  have moves : (d.readDone 0x7828 v).cfg = { d.cfg with imgAddr := (d.cfg.imgAddr + 4) % 2 ^ 26, imgReady := false } := if_pos ready
  rw [← moves]
  rfl

theorem State.regValue_image (s : State) : s.regValue 0x7828 .cfg = if s.dev.cfg.imgReady then s.dev.cfg.imgWord else 0 := rfl

theorem State.regValue_utcHi (s : State) : s.regValue 0x740C .ledg = BitVec.ofNat 32 (s.dev.utc / 2 ^ 32) := rfl

theorem State.readNow_done {s : State} {b : Block} (clean : s.dev.mgmt.crcPending = false)
    (block : regBlock s.dev.mgmt.pointer.toNat = some b) (ok : s.judge s.dev.mgmt.pointer.toNat false 0 = 0) :
    s.readNow = s.onDev (fun d => d.readDone s.dev.mgmt.pointer.toNat (s.regValue s.dev.mgmt.pointer.toNat b)) := by
  have taken : ¬ s.dev.mgmt.crcPending = true := by rw [clean]; decide
  unfold State.readNow
  simp only [block, ok, if_neg taken]
  rfl

section
variable {s : State} (on : s.dev.pwr.aonLost = false) (idle : s.dev.mgmt.waiting = [])
include on idle

/-- Where nothing waits, no transaction waits that the KEEP clock does not hold. -/
theorem State.portOp_idle {op : PortOp} (free : s.dev.keep.clockLost = false ∨ s.portHolds op = false) : s.portOp op = s.portDo op := by
  refine s.portOp_does op ?_ (free.elim (s.portHolds_clock op idle) id)
  rw [Dev.domainOn, on]
  rfl

theorem State.portOp_pointer (a : BitVec 16) : s.portOp (.pointer a) = s.pointed a := by
  refine (State.portOp_idle on idle (.inr ?_)).trans rfl
  unfold State.portHolds
  simp only [idle, List.isEmpty_nil, Bool.not_true, Bool.false_or, Bool.and_false]

/-- A read of a register of any domain but KEEP. -/
theorem State.readAt_done {a : BitVec 16} {b : Block} (clean : s.dev.mgmt.crcPending = false) (block : regBlock a.toNat = some b)
    (other : b.domain ≠ .keep) (ok : s.judge a.toNat false 0 = 0) :
    s.readAt a = (s.pointed a).onDev (fun d => d.readDone a.toNat ((s.pointed a).regValue a.toNat b)) := by
  have passes : (s.pointed a).portHolds .read = false := by
    have idle' : (s.pointed a).dev.mgmt.waiting = [] := idle
    have keeps : (s.pointed a).ofKeep a.toNat false 0 = false := by simp [State.ofKeep, block, other]
    have keeps' : (s.pointed a).ofKeep (s.pointed a).dev.mgmt.pointer.toNat false 0 = false := keeps
    unfold State.portHolds
    simp only [idle', keeps', List.isEmpty_nil, Bool.not_true, Bool.false_or, Bool.and_false]
  rw [State.readAt, State.portOp_pointer on idle, State.portOp_idle (s := s.pointed a) on idle (.inr passes)]
  exact State.readNow_done (s := s.pointed a) clean block ok

end

/-! ### The pixel health map (R295, R296) -/

/-- The pointer of the map after a read (R296). -/
def mapNext (a : Nat) : Nat := if 1081340 < a + 4 then 0 else a + 4

/-- The blocks once a read of the map has been carried out, before what ECC finds. -/
def State.mapTaken (s : State) : Dev :=
  { s.dev with
    mgmt := { ((s.pointed 0x6420).dev.answer 0 s.mapWord).mgmt with utcHold := none }
    diag := { s.dev.diag with mapAddr := mapNext s.dev.diag.mapAddr }
    memc := s.dev.memc.counted 1 (b1 (s.dev.memc.forwards (0x36000000 + s.dev.diag.mapAddr))) }

theorem State.mapRead_readDone (s : State) : (s.pointed 0x6420).dev.readDone 0x6420 s.mapWord = s.mapTaken := by
  unfold Dev.readDone Dev.readEffect
  rw [if_pos rfl, Dev.countReads_eq]
  rfl

/-- The read takes a granule from the DRAM where no queued write answers it. -/
theorem State.mapFromDram_eq {s : State} (clean : s.dev.mgmt.crcPending = false) (ok : s.judge 0x6420 false 0 = 0) :
    (s.pointed 0x6420).mapFromDram = !(s.dev.memc.dramLess || s.dev.memc.forwards (0x36000000 + s.dev.diag.mapAddr)) := by
  have ok' : (s.pointed 0x6420).judge 0x6420 false 0 = 0 := ok
  have clean' : (s.pointed 0x6420).dev.mgmt.crcPending = false := clean
  rw [State.mapFromDram, clean', ok', Bool.not_or]
  rfl

/-- The granule that a read of the map lies in. -/
def State.mapGranule (s : State) : Nat := (0x36000000 + s.dev.diag.mapAddr) / 32 * 32

/-- A poisoned granule is reported, and the store's bytes answer instead. -/
theorem Dev.mapEcc_eq (s : State) (e : Ecc) (d : Dev) : (s.pointed 0x6420).mapEcc e d =
    if eccPoisons e then ((d.eccCounted e).mapPoisoned s.mapGranule).answer 0 s.mapStored else d.eccCounted e := rfl

/-- The blocks once a read of the map has been carried out. -/
def State.mapRead (s : State) (e : Ecc) : Dev :=
  if s.dev.memc.dramLess || s.dev.memc.forwards (0x36000000 + s.dev.diag.mapAddr) then s.mapTaken
  else if eccPoisons e then ((s.mapTaken.eccCounted e).mapPoisoned s.mapGranule).answer 0 s.mapStored
  else s.mapTaken.eccCounted e

/-- In DRAM-less mode the bytes of the health store answer, and nothing is counted. -/
theorem State.mapRead_dramLess {s : State} (dramLess : s.dev.memc.dramLess = true) (e : Ecc) : s.mapRead e = { s.dev with
    mgmt := { ((s.pointed 0x6420).dev.answer 0 s.mapStored).mgmt with utcHold := none }
    diag := { s.dev.diag with mapAddr := mapNext s.dev.diag.mapAddr } } := by
  have stored : s.mapWord = s.mapStored := if_pos dramLess
  rw [State.mapRead, dramLess, Bool.true_or, if_pos rfl, State.mapTaken, Memc.counted_dramLess dramLess, stored]

theorem State.mapRead_forwarded {s : State} (dram : s.dev.memc.dramLess = false)
    (hit : s.dev.memc.forwards (0x36000000 + s.dev.diag.mapAddr) = true) (e : Ecc) : s.mapRead e = { s.mapTaken with
    memc := { s.dev.memc with forwarded := Nat.min 65535 (s.dev.memc.forwarded + 1) } } := by
  have counted : s.mapTaken.memc = s.dev.memc.counted 1 1 := by rw [State.mapTaken, hit]; rfl
  rw [State.mapRead, hit, Bool.or_true, if_pos rfl, ← Memc.counted_forwarded dram, ← counted]

section
variable {s : State} (dram : s.dev.memc.dramLess = false) (miss : s.dev.memc.forwards (0x36000000 + s.dev.diag.mapAddr) = false) (e : Ecc)
include dram miss

theorem State.mapTaken_fetched : s.mapTaken = { s.mapTaken with memc := { s.dev.memc with reads := s.dev.memc.reads + 1 } } := by
  have counted : s.mapTaken.memc = s.dev.memc.counted 1 0 := by rw [State.mapTaken, miss]; rfl
  rw [← Memc.counted_fetched dram, ← counted]

theorem State.mapRead_fetched : s.mapRead e =
    if eccPoisons e then ((s.mapTaken.eccCounted e).mapPoisoned s.mapGranule).answer 0 s.mapStored else s.mapTaken.eccCounted e := by
  rw [State.mapRead, dram, miss, Bool.false_or, if_neg Bool.false_ne_true]

/-- A granule without errors is counted in the window of granule reads alone. -/
theorem State.mapRead_good (corrected : eccCorrected e = 0) (good : eccPoisons e = false) :
    s.mapRead e = { s.mapTaken with memc := { s.dev.memc with reads := s.dev.memc.reads + 1 } } := by
  rw [State.mapRead_fetched dram miss, good, if_neg Bool.false_ne_true, Dev.eccCounted, if_pos corrected]
  exact State.mapTaken_fetched dram miss

/-- What a granule read from the DRAM counts, whatever ECC found in it. -/
theorem State.mapRead_counts : (s.mapRead e).mgmt.readStatus = 0 ∧ (s.mapRead e).diag = s.mapTaken.diag ∧
    (s.mapRead e).memc.reads = s.dev.memc.reads + 1 ∧
    (s.mapRead e).memc.corrected = if eccCorrected e = 0 then s.dev.memc.corrected
      else Nat.min 1048575 (s.dev.memc.corrected + eccCorrected e) := by
  rw [State.mapRead_fetched dram miss, Dev.eccCounted_frame, State.mapTaken_fetched dram miss]
  split
  · exact ⟨rfl, rfl, rfl, rfl⟩
  · exact ⟨rfl, rfl, rfl, rfl⟩

/-- A poisoned granule is reported with its message and events 40 and 86, and the store's bytes answer (R257, R297). -/
theorem State.mapRead_poisoned (bad : eccPoisons e = true) : (s.mapRead e).mgmt.readData = s.mapStored ∧
    (s.mapRead e).evt.pend.getLsbD 40 = true ∧ (s.mapRead e).evt.pend.getLsbD 86 = true ∧
    (s.mapRead e).memc.uncorrectable = Nat.min 4095 (s.dev.memc.uncorrectable + 1) ∧ (s.mapRead e).memc.eccAddr = s.mapGranule ∧
    mkMsg 0xC4 0x17 1 s.mapGranule ∈ (s.mapRead e).keep.transit := by
  rw [State.mapRead_fetched dram miss, if_pos bad, Dev.eccCounted_frame, State.mapTaken_fetched dram miss]
  refine ⟨rfl, Evt.raise_keeps _ 86 40 (Evt.raise_self _ 40 rfl), Evt.raise_self _ 86 rfl, satInc_eq_min .., rfl, ?_⟩
  exact List.mem_append_right _ (List.mem_singleton_self _)

end

end Sys2Proof.Machine

namespace Sys2Proof.Proofs

open Sys2Proof Sys2Proof.Machine Sys2Proof.Claims

section
variable {s : State} (clean : s.dev.mgmt.crcPending = false) (on : s.dev.pwr.aonLost = false) (idle : s.dev.mgmt.waiting = [])
include clean on idle

theorem exec_diagMapData (ok : s.judge 0x6420 false 0 = 0) (e : Ecc) : exec (.diagMapData e) s = .next { s with dev := s.mapRead e } := by
  have passes : (s.pointed 0x6420).portHolds (.mapRead e) = false := by
    have idle' : (s.pointed 0x6420).dev.mgmt.waiting = [] := idle
    unfold State.portHolds
    simp only [idle', List.isEmpty_nil, Bool.not_true, Bool.false_or, Bool.and_false]
  have read : (s.pointed 0x6420).readNow = { s with dev := s.mapTaken } := by
    have address : (s.pointed 0x6420).dev.mgmt.pointer.toNat = 0x6420 := rfl
    rw [State.readNow_done (s := s.pointed 0x6420) (b := .diag) clean (by rw [address]; rfl) (by rw [address]; exact ok), address,
      ← s.mapRead_readDone]
    rfl
  have run : exec (.diagMapData e) s = .next ((s.pointed 0x6420).mapReadNow e) := by
    refine congrArg Host.Outcome.next ?_
    rw [State.portOp_pointer on idle, State.portOp_idle (s := s.pointed 0x6420) on idle (.inr passes)]
    rfl
  rw [run, State.mapReadNow, read, State.mapFromDram_eq clean ok, State.mapRead]
  cases s.dev.memc.dramLess || s.dev.memc.forwards (0x36000000 + s.dev.diag.mapAddr) with
  | true => rfl
  | false => rfl

/-- A row that reads the register at address `n`, outside the KEEP domain, whose value is `v`. -/
theorem next_readAt {c : Instr} {a : BitVec 16} {n : Nat} {b : Block} {v : Word} {P : State → Prop}
    (run : exec c s = .next (s.readAt a)) (address : a.toNat = n) (block : regBlock n = some b) (other : b.domain ≠ .keep)
    (ok : s.judge n false 0 = 0) (value : (s.pointed a).regValue n b = v)
    (spec : P { s with dev := (s.pointed a).dev.readDone n v }) : Next c s (fun t => SameStore s t ∧ P t) := by
  subst address value
  rw [State.readAt_done on idle clean block other ok] at run
  exact ⟨_, run, ⟨rfl, rfl, rfl, rfl, rfl⟩, spec⟩

end

/-- Settles O26: a read that is carried out answers, and then its register moves on; a read of the map counts what it takes and reports
what ECC finds. -/
theorem advancingReads : Obligations.AdvancingReads := by
  refine fun s clean on idle => ⟨fun ok ready => ?_, fun w main done => ?_, fun ok => ?_, fun ok => ?_, fun ok ecc => ?_⟩
  · refine next_readAt (n := 0x7828) clean on idle rfl rfl rfl nofun ok ((State.regValue_image _).trans (if_pos ready)) ?_
    rw [Dev.readDone_image (s.pointed 0x7828).dev ready]
    exact ⟨rfl, rfl, rfl⟩
  · have fetches : (s.dev.pwr.mainOn && !s.dev.cfg.holdsBus) = true := by rw [main, Cfg.holdsBus, done]; rfl
    exact next_onDev rfl (if_pos fetches) rfl
  · exact next_readAt clean on idle rfl rfl rfl nofun ok rfl ⟨rfl, rfl⟩
  · exact next_readAt clean on idle rfl rfl rfl nofun ok (State.regValue_utcHi _) ⟨rfl, rfl, rfl, rfl⟩
  · refine ⟨_, exec_diagMapData clean on idle ok ecc, ⟨rfl, rfl, rfl, rfl, rfl⟩, ?_⟩
    cases dram : s.dev.memc.dramLess with
    | true =>
      rw [State.mapRead_dramLess dram]
      exact ⟨rfl, rfl, fun _ => ⟨rfl, rfl⟩, nofun, nofun⟩
    | false =>
      cases hit : s.dev.memc.forwards (0x36000000 + s.dev.diag.mapAddr) with
      | true =>
        rw [State.mapRead_forwarded dram hit]
        exact ⟨rfl, rfl, nofun, fun _ _ => rfl, nofun⟩
      | false =>
        obtain ⟨status, diag, reads, corrected⟩ := State.mapRead_counts dram hit ecc
        refine ⟨status, diag, nofun, nofun, fun _ _ => ⟨reads, fun none good => ?_, corrected, fun bad => ?_⟩⟩
        · rw [State.mapRead_good dram hit ecc none good]
          rfl
        · obtain ⟨data, ecc40, map86, count, address, message⟩ := State.mapRead_poisoned dram hit ecc bad
          exact ⟨data, ecc40, map86, count, address, address.symm ▸ message⟩

end Sys2Proof.Proofs

/-! ## Requests and transfers of layer memory (R246 to R252, R255, R256, R259)

With no delayed answer due and no request held, the ports have nothing to serve, so a command meets the queues as they stand. -/

namespace Sys2Proof.Machine

/-! ### Channels and credits -/

/-- A channel that does not exist has the empty queues of a fresh one. -/
theorem Memc.chan_of_ge {m : Memc} {c : Nat} (ge : m.chans.length ≤ c) : m.chan c = {} := List.getD_eq_default _ _ ge

theorem Memc.chan_onChan {m : Memc} {c : Nat} (lt : c < m.chans.length) (f : Chan → Chan) : (m.onChan c f).chan c = f (m.chan c) :=
  nth_updNth ({} : Chan) f lt

theorem Memc.chan_onChan_ne {m : Memc} {c k : Nat} (ne : k ≠ c) (f : Chan → Chan) : (m.onChan c f).chan k = m.chan k :=
  nth_updNth_ne ({} : Chan) f ne

theorem chOf_lt (a : Nat) : chOf a < 2 := Nat.mod_lt _ (by decide)

theorem portIdx_inj {p q : Port} (same : portIdx p = portIdx q) : p = q := by
  cases p <;> cases q <;> trivial

/-- A credit taken leaves one less. -/
theorem Memc.credit_take {m : Memc} {p : Port} (has : m.credit p ≠ 0) : (m.take p).credit p + 1 = m.credit p := by
  have lt : portIdx p < m.credits.length := Nat.lt_of_not_le (fun ge => has (List.getD_eq_default _ _ ge))
  have took : (m.take p).credit p = m.credit p - 1 := nth_updNth 0 (· - 1) lt
  omega

/-- A credit returned is its port's alone. -/
theorem nth_credits_given {l : List Nat} {p : Port} (five : l.length = 5) (q : Port) :
    nth 0 (updNth l (portIdx p) (· + 1)) (portIdx q) = if q = p then nth 0 l (portIdx p) + 1 else nth 0 l (portIdx q) := by
  split
  · next own =>
    rw [own]
    exact nth_updNth 0 (· + 1) (by rw [five]; cases p <;> decide)
  · next other => exact nth_updNth_ne 0 (· + 1) (fun same => other (portIdx_inj same))

/-! ### The ports (R248) -/

theorem Dev.admitHeld_none : ∀ (n : Nat) {d : Dev}, d.memc.held = [] → Dev.admitHeld n d = d
  | 0, _, _ => rfl
  | n + 1, d, held => by
    unfold Dev.admitHeld
    rw [held]
    rfl

/-- Without an answer due or a request held the ports have nothing to serve. -/
theorem Dev.servePorts_idle {d : Dev} (late : ∀ x ∈ d.memc.late, d.now < x.due) (held : d.memc.held = []) : d.servePorts = d := by
  unfold Dev.servePorts
  rw [d.answers_none late]
  simp only [Dev.admitHeld_none 64 held, ite_self]

theorem Memc.holdsFor_none {m : Memc} (held : m.held = []) (p : Port) : m.holdsFor p = false := by rw [Memc.holdsFor, held]; rfl

/-- A request that has no port credit is held. -/
theorem Dev.request_held {d : Dev} {r : Req} (held : d.memc.held = []) (out : d.memc.credit r.port = 0) :
    d.request r = { d with memc := { d.memc with held := [r] } } := by
  have waits : d.canEnter r = false := by rw [Dev.canEnter, out]; rfl
  rw [Dev.request, waits, Bool.and_false, if_neg Bool.false_ne_true, Dev.onMemc, held]
  rfl

theorem Dev.request_enters {d : Dev} {r : Req} (held : d.memc.held = []) (can : d.canEnter r = true) : d.request r = d.enter r := by
  rw [Dev.request, Memc.holdsFor_none held, can]
  rfl

/-- A read that an older write to its granule answers is counted, and no credit is taken (R250). -/
theorem Dev.enter_forwarded {d : Dev} {p : Port} {a : Nat} {w : Req} (hit : (d.memc.chan (chOf a)).forward a = some w) :
    d.enter { port := p, addr := a, write := false, data := [] } = { d with memc := { d.memc with
      forwarded := Nat.min 65535 (d.memc.forwarded + 1), readData := w.data, readPoison := false } } := by
  rw [← satInc_eq_min]
  unfold Dev.enter
  simp only [hit]
  rfl

/-- Any other takes a credit and joins the queue of its bank. -/
theorem Dev.enter_read {d : Dev} {p : Port} {a : Nat} (miss : (d.memc.chan (chOf a)).forward a = none) :
    d.enter { port := p, addr := a, write := false, data := [] } = { d with memc := (d.memc.take p).onChan (chOf a) (fun x =>
      { x with queue := x.queue ++ [{ port := p, addr := a, write := false, data := [] }] }) } := by
  unfold Dev.enter
  simp only [miss]
  rfl

/-! ### Writes pass on to their banks (R249) -/

theorem Dev.drainWrites_none (n : Nat) {d : Dev} {c : Nat} (empty : (d.memc.chan c).writeQ = []) : Dev.drainWrites n d c = d := by
  cases n with
  | zero => rfl
  | succ n =>
    unfold Dev.drainWrites
    rw [empty]

/-- The oldest write passes on while the queue of its bank has room. -/
theorem Dev.drainWrites_passes {n : Nat} {d : Dev} {c : Nat} {r : Req} {rest : List Req} (head : (d.memc.chan c).writeQ = r :: rest)
    (room : (d.bankQueue c (d.bankOf r.addr)).length < 16) : Dev.drainWrites (n + 1) d c =
      Dev.drainWrites n (d.onMemc (fun m => m.onChan c (fun x => { x with queue := x.queue ++ [r], writeQ := rest }))) c := by
  rw [Dev.drainWrites, head]
  exact if_pos room

theorem Dev.drainWrites_stops {n : Nat} {d : Dev} {c : Nat} {r : Req} {rest : List Req} (head : (d.memc.chan c).writeQ = r :: rest)
    (full : ¬ (d.bankQueue c (d.bankOf r.addr)).length < 16) : Dev.drainWrites (n + 1) d c = d := by
  rw [Dev.drainWrites, head]
  exact if_neg full

/-- What passes on comes behind what is queued. -/
theorem Dev.drainWrites_bankQueue (c b : Nat) : ∀ (n : Nat) (d : Dev), ∃ more,
    (Dev.drainWrites n d c).bankQueue c b = d.bankQueue c b ++ more
  | 0, _ => ⟨[], (List.append_nil _).symm⟩
  | n + 1, d => by
    cases head : (d.memc.chan c).writeQ with
    | nil => exact ⟨[], by rw [Dev.drainWrites_none _ head, List.append_nil]⟩
    | cons r rest =>
      by_cases room : (d.bankQueue c (d.bankOf r.addr)).length < 16
      · have lt : c < d.memc.chans.length := by
          refine Nat.lt_of_not_le (fun ge => ?_)
          rw [Memc.chan_of_ge ge] at head
          cases head
        obtain ⟨more, passed⟩ := Dev.drainWrites_bankQueue c b n
          (d.onMemc (fun m => m.onChan c (fun x => { x with queue := x.queue ++ [r], writeQ := rest })))
        refine ⟨[r].filter (fun r => d.bankOf r.addr == b) ++ more, ?_⟩
        rw [Dev.drainWrites_passes head room, passed, ← List.append_assoc]
        unfold Dev.bankQueue
        rw [Dev.onMemc_memc, Memc.chan_onChan lt, ← List.filter_append]
        rfl
      · exact ⟨[], by rw [Dev.drainWrites_stops head room, List.append_nil]⟩

/-- A write that finds the write queue empty and room in its bank takes a credit and joins the queue of its bank. -/
theorem Dev.enter_write {d : Dev} {r : Req} (write : r.write = true) (two : d.memc.chans.length = 2)
    (empty : (d.memc.chan (chOf r.addr)).writeQ = []) (room : (d.bankQueue (chOf r.addr) (d.bankOf r.addr)).length < 16) :
    ∃ m : Memc, d.enter r = { d with memc := m } ∧ m.credits = (d.memc.take r.port).credits ∧
      m.chan (chOf r.addr) = { d.memc.chan (chOf r.addr) with queue := (d.memc.chan (chOf r.addr)).queue ++ [r] } := by
  have lt : chOf r.addr < d.memc.chans.length := two ▸ chOf_lt r.addr
  have waits := Memc.chan_onChan (m := d.memc.take r.port) lt (fun x => { x with writeQ := x.writeQ ++ [r] })
  generalize joined : (d.memc.take r.port).onChan (chOf r.addr) (fun x => { x with writeQ := x.writeQ ++ [r] }) = m at waits
  have lt' : chOf r.addr < m.chans.length := by rw [← joined]; exact (updNth_length _ _ _).symm ▸ lt
  have passed := Memc.chan_onChan lt' (fun x => { x with queue := x.queue ++ [r], writeQ := [] })
  rw [waits] at passed
  have head : (({ d with memc := m } : Dev).memc.chan (chOf r.addr)).writeQ = r :: [] := by
    rw [waits]
    exact congrArg (· ++ [r]) empty
  have room' : (({ d with memc := m } : Dev).bankQueue (chOf r.addr) (d.bankOf r.addr)).length < 16 := by
    unfold Dev.bankQueue
    rw [waits]
    exact room
  refine ⟨m.onChan (chOf r.addr) (fun x => { x with queue := x.queue ++ [r], writeQ := [] }), ?_, ?_, ?_⟩
  · unfold Dev.enter
    rw [if_pos write, Dev.onMemc, joined, Dev.drainWrites_passes head room', Dev.drainWrites_none]
    · rfl
    · rw [Dev.onMemc_memc, passed]
  · rw [← joined]
    rfl
  · rw [passed, ← empty]
    rfl

/-! ### Requests that arrive (R243, R246, R248) -/

theorem State.onDev_congr {s : State} {f : Dev → Dev} {d : Dev} (same : f s.dev = d) : s.onDev f = { s with dev := d } := by
  rw [State.onDev, same]

theorem read_noGranule {a : Nat} (outside : granule a = false) (p : Port) (s : State) :
    exec (.memRequest (.read p a)) s = .fault (.noGranule a) := if_pos (by rw [outside]; rfl)

theorem write_noGranule {a : Nat} (outside : granule a = false) (p : Port) (data : Bytes) (s : State) :
    exec (.memRequest (.write p a data)) s = .fault (.noGranule a) := if_pos (by rw [outside]; rfl)

theorem Dev.dramOn_main {d : Dev} (on : d.dramOn = true) : d.pwr.mainOn = true := by
  unfold Dev.dramOn at on
  simp only [Bool.and_eq_true] at on
  exact on.1.1.1

theorem Dev.dramOn_dram {d : Dev} (on : d.dramOn = true) : d.memc.dramLess = false := by
  unfold Dev.dramOn at on
  simp only [Bool.and_eq_true, Bool.not_eq_true'] at on
  exact on.2

theorem Dev.dramOn_off {d : Dev} (off : d.pwr.mainOn = false) : d.dramOn = false := by
  unfold Dev.dramOn
  rw [off]
  rfl

theorem Dev.servePorts_off {d : Dev} (off : d.pwr.mainOn = false) : d.servePorts = d := if_pos (by rw [off]; rfl)

section
variable {s : State} {a : Nat} (inside : granule a = true)
include inside

/-- A request for a granule while the ports have nothing else to serve. -/
theorem read_arrives (p : Port) (idle : s.dev.servePorts = s.dev) : exec (.memRequest (.read p a)) s =
    .next { s with dev := if s.dev.dramOn then s.dev.readRequest p a else s.dev } := by
  refine (if_neg (by rw [inside]; decide)).trans (congrArg Host.Outcome.next (State.onDev_congr ?_))
  simp only [idle]

theorem write_arrives (p : Port) (data : Bytes) (idle : s.dev.servePorts = s.dev) : exec (.memRequest (.write p a data)) s =
    .next { s with dev := if s.dev.dramOn && p != .fww then s.dev.writeRequest p a data 0 else s.dev } := by
  refine (if_neg (by rw [inside]; decide)).trans (congrArg Host.Outcome.next (State.onDev_congr ?_))
  simp only [idle]

/-- A read that its port does not serve is none. -/
theorem read_unserved {p : Port} (idle : s.dev.servePorts = s.dev) (unserved : s.dev.requests p false a = false) :
    exec (.memRequest (.read p a)) s = .next s := by
  rw [read_arrives inside p idle, Dev.readRequest, unserved, if_neg Bool.false_ne_true, ite_self]

theorem read_requests {p : Port} (idle : s.dev.servePorts = s.dev) (on : s.dev.dramOn = true)
    (serves : s.dev.requests p false a = true) : exec (.memRequest (.read p a)) s =
      .next (s.onDev (fun d => d.request { port := p, addr := a, write := false, data := [] })) := by
  rw [read_arrives inside p idle, if_pos on, Dev.readRequest, if_pos serves]
  rfl

theorem write_requests {p : Port} (data : Bytes) (idle : s.dev.servePorts = s.dev) (on : s.dev.dramOn = true)
    (serves : s.dev.requests p true a = true) (other : p ≠ .fww) : exec (.memRequest (.write p a data)) s =
      .next (s.onDev (fun d => d.request { port := p, addr := a, write := true, data := padTo 32 data })) := by
  rw [write_arrives inside p data idle, on, bne_iff_ne.mpr other, Bool.true_and, if_pos rfl, Dev.writeRequest, if_pos serves]
  rfl

/-- With MEM off no request is served (R17). -/
theorem read_off (p : Port) (off : s.dev.pwr.mainOn = false) : exec (.memRequest (.read p a)) s = .next s := by
  rw [read_arrives inside p (Dev.servePorts_off off), Dev.dramOn_off off, if_neg Bool.false_ne_true]

theorem write_off (p : Port) (data : Bytes) (off : s.dev.pwr.mainOn = false) :
    exec (.memRequest (.write p a data)) s = .next s := by
  rw [write_arrives inside p data (Dev.servePorts_off off), Dev.dramOn_off off, Bool.false_and, if_neg Bool.false_ne_true]
end

/-- A read can enter where its port has a credit and its bank room (R248, R249). -/
theorem Dev.canEnter_read {d : Dev} {p : Port} {a : Nat} (has : d.memc.credit p ≠ 0)
    (free : ((d.memc.chan (chOf a)).forward a).isSome = true ∨ (d.bankQueue (chOf a) (d.bankOf a)).length < 16) :
    d.canEnter { port := p, addr := a, write := false, data := [] } = true := by
  unfold Dev.canEnter
  simpa [has] using free

theorem Dev.canEnter_write {d : Dev} {r : Req} (write : r.write = true) (has : d.memc.credit r.port ≠ 0)
    (empty : (d.memc.chan (chOf r.addr)).writeQ = []) : d.canEnter r = true := by
  unfold Dev.canEnter
  simp [has, write, empty]

/-! ### VC1 data (R166) -/

theorem fww_arrives {s : State} (idle : s.dev.servePorts = s.dev) : exec (.memRequest .fww) s = .next (s.onDev Dev.fwwRequest) :=
  congrArg Host.Outcome.next (State.onDev_congr (congrArg Dev.fwwRequest idle))

/-- While LRX stands still nothing is handed over. -/
theorem Dev.fwwRequest_off {d : Dev} (off : d.fairwayOn = false) : d.fwwRequest = d := by
  unfold Dev.fwwRequest
  split
  · rfl
  · exact if_pos (by rw [off]; rfl)

/-- Data beyond the rate bound waits. -/
theorem Dev.fwwRequest_throttled {d : Dev} {w : Vc1Write} (waits : w ∈ d.fw.writes) (data : w.data ≠ []) (on : d.fairwayOn = true)
    (beyond : d.linkRate * 64 < d.fw.vc1Bytes + 32) : d.fwwRequest = { d with fw := { d.fw with throttled := true } } := by
  unfold Dev.fwwRequest
  split
  · next nothing =>
    exact absurd (List.find?_eq_none.mp nothing w waits) (by simp [data])
  · rw [on, if_neg (by decide), if_pos beyond]
    rfl

/-! ### Levels and watermarks (R247) -/

/-- A port's bit of PANIC is its own. -/
theorem panicBit {p : Port} (real : realTime p = true) (q : Port) :
    (realTime q && (1#3 <<< portIdx p).getLsbD (portIdx q)) = decide (q = p) := by
  cases p <;> cases q <;> trivial

theorem Memc.inPanic_set {p : Port} (real : realTime p = true) (m : Memc) (counts : List Nat) (q : Port) :
    ({ m with panic := m.panic ||| (1#3 <<< portIdx p), panics := counts } : Memc).inPanic q = (m.inPanic q || decide (q = p)) := by
  rw [← panicBit real q]
  unfold Memc.inPanic
  rw [BitVec.getLsbD_or, Bool.and_or_distrib_left]

theorem Memc.inPanic_clear {p : Port} (real : realTime p = true) (m : Memc) (q : Port) :
    ({ m with panic := m.panic &&& ~~~(1#3 <<< portIdx p) } : Memc).inPanic q = (m.inPanic q && !decide (q = p)) := by
  rw [← panicBit real q]
  unfold Memc.inPanic
  rw [BitVec.getLsbD_and]
  cases real' : realTime q with
  | false => rfl
  | true =>
    have within : portIdx q < 3 := of_decide_eq_true real'
    rw [BitVec.getLsbD_not, decide_eq_true within]
    rfl

/-- A level below the watermark puts a port in panic, with event 43. -/
theorem Dev.panicCheck_begins {d : Dev} {p : Port} {l : Nat} (real : realTime p = true) (calm : d.memc.inPanic p = false)
    (low : l < d.watermark p) : d.panicCheck p l = (d.onMemc (fun m => { m with
      panic := m.panic ||| (1#3 <<< portIdx p)
      panics := updNth m.panics (portIdx p) (satInc (if portIdx p = 0 then 255 else 15)) })).raise 43 := by
  unfold Dev.panicCheck
  simp [real, calm, low]

/-- Twice the watermark ends it. -/
theorem Dev.panicCheck_ends {d : Dev} {p : Port} {l : Nat} (real : realTime p = true) (panics : d.memc.inPanic p = true)
    (high : 2 * d.watermark p ≤ l) :
    d.panicCheck p l = d.onMemc (fun m => { m with panic := m.panic &&& ~~~(1#3 <<< portIdx p) }) := by
  unfold Dev.panicCheck
  simp [real, panics, high]

/-- In between nothing changes. -/
theorem Dev.panicCheck_stays {d : Dev} {p : Port} {l : Nat}
    (between : if d.memc.inPanic p then l < 2 * d.watermark p else d.watermark p ≤ l) : d.panicCheck p l = d := by
  unfold Dev.panicCheck
  cases panics : d.memc.inPanic p with
  | false =>
    rw [panics] at between
    simp [Nat.not_lt.mpr between]
  | true =>
    rw [panics, if_pos rfl] at between
    simp [Nat.not_le.mpr between]

/-- The three outcomes of a comparison. -/
theorem Dev.panicCheck_cases {d : Dev} {p : Port} (l : Nat) (real : realTime p = true) {P : Dev → Prop}
    (begins : d.memc.inPanic p = false → l < d.watermark p → P ((d.onMemc (fun m => { m with
      panic := m.panic ||| (1#3 <<< portIdx p)
      panics := updNth m.panics (portIdx p) (satInc (if portIdx p = 0 then 255 else 15)) })).raise 43))
    (ends : d.memc.inPanic p = true → 2 * d.watermark p ≤ l →
      P (d.onMemc (fun m => { m with panic := m.panic &&& ~~~(1#3 <<< portIdx p) })))
    (stays : (if d.memc.inPanic p then l < 2 * d.watermark p else d.watermark p ≤ l) → P d) : P (d.panicCheck p l) := by
  cases panics : d.memc.inPanic p with
  | false =>
    rcases Nat.lt_or_ge l (d.watermark p) with low | high
    · rw [Dev.panicCheck_begins real panics low]
      exact begins panics low
    · have between : if d.memc.inPanic p then l < 2 * d.watermark p else d.watermark p ≤ l := by rwa [panics]
      rw [Dev.panicCheck_stays between]
      exact stays between
  | true =>
    rcases Nat.lt_or_ge l (2 * d.watermark p) with low | high
    · have between : if d.memc.inPanic p then l < 2 * d.watermark p else d.watermark p ≤ l := by rwa [panics]
      rw [Dev.panicCheck_stays between]
      exact stays between
    · rw [Dev.panicCheck_ends real panics high]
      exact ends panics high

/-- The level of a port, where the slot gives one, compared with its watermark. -/
def Dev.compared (levels : List Nat) (d : Dev) (p : Port) : Dev := (levels[portIdx p]?).elim d (d.panicCheck p)

theorem Dev.panicChecks_compared (d : Dev) (levels : List Nat) :
    d.panicChecks levels = [Port.comp, .gain, .ledg].foldl (Dev.compared levels) d := by
  unfold Dev.panicChecks
  congr 1
  funext d p
  unfold Dev.compared
  cases levels[portIdx p]? <;> rfl

/-- What the comparison of port `p` says of the state after it. -/
def PanicCompared (levels : List Nat) (d t : Dev) (p : Port) : Prop :=
  (levels[portIdx p]? = none → t.memc.inPanic p = d.memc.inPanic p) ∧
  ∀ l, levels[portIdx p]? = some l →
    t.memc.inPanic p = decide (l < (if d.memc.inPanic p then 2 else 1) * d.watermark p) ∧
    (d.memc.inPanic p = false → l < d.watermark p → t.evt.pend.getLsbD 43 = true)

/-- Comparisons change the panics and the events, and take no event back. -/
def PanicFrame (d t : Dev) : Prop :=
  t = { d with memc := { d.memc with panic := t.memc.panic, panics := t.memc.panics }, evt := t.evt } ∧
  (d.evt.pend.getLsbD 43 = true → t.evt.pend.getLsbD 43 = true)

theorem PanicFrame.refl (d : Dev) : PanicFrame d d := ⟨rfl, id⟩

theorem PanicFrame.trans {d u t : Dev} (first : PanicFrame d u) (second : PanicFrame u t) : PanicFrame d t := by
  obtain ⟨frame, pends⟩ := first
  obtain ⟨frame', pends'⟩ := second
  refine ⟨?_, pends' ∘ pends⟩
  rw [frame']
  rw [frame]

theorem PanicFrame.watermark {d t : Dev} (same : PanicFrame d t) (p : Port) : t.watermark p = d.watermark p := by
  rw [same.1]
  rfl

/-- Comparisons of other ports before or after leave what one says of its port. -/
theorem PanicCompared.later {levels : List Nat} {d u t : Dev} {p : Port} (own : PanicCompared levels d u p) (after : PanicFrame u t)
    (other : t.memc.inPanic p = u.memc.inPanic p) : PanicCompared levels d t p :=
  ⟨fun missing => other.trans (own.1 missing), fun l level => ⟨other.trans (own.2 l level).1,
    fun calm low => after.2 ((own.2 l level).2 calm low)⟩⟩

theorem PanicCompared.earlier {levels : List Nat} {d u t : Dev} {p : Port} (own : PanicCompared levels u t p) (before : PanicFrame d u)
    (other : u.memc.inPanic p = d.memc.inPanic p) : PanicCompared levels d t p := by
  unfold PanicCompared at own ⊢
  rwa [other, before.watermark] at own

theorem Dev.compared_frame (levels : List Nat) (d : Dev) {p : Port} (real : realTime p = true) :
    PanicFrame d (Dev.compared levels d p) := by
  unfold Dev.compared
  cases levels[portIdx p]? with
  | none => exact PanicFrame.refl d
  | some l =>
    exact Dev.panicCheck_cases l real (P := PanicFrame d) (fun _ _ => ⟨rfl, Evt.raise_keeps d.evt 43 43⟩)
      (fun _ _ => ⟨rfl, id⟩) (fun _ => PanicFrame.refl d)

/-- Another port's panic is left alone. -/
theorem Dev.compared_other (levels : List Nat) (d : Dev) {p q : Port} (real : realTime p = true) (other : q ≠ p) :
    (Dev.compared levels d p).memc.inPanic q = d.memc.inPanic q := by
  unfold Dev.compared
  cases levels[portIdx p]? with
  | none => rfl
  | some l =>
    refine Dev.panicCheck_cases l real (P := fun t => t.memc.inPanic q = d.memc.inPanic q) (fun _ _ => ?_) (fun _ _ => ?_) (fun _ => rfl)
    · exact (Memc.inPanic_set real _ _ q).trans (by rw [decide_eq_false other, Bool.or_false])
    · exact (Memc.inPanic_clear real _ q).trans (by rw [decide_eq_false other, Bool.not_false, Bool.and_true])

theorem Dev.compared_own (levels : List Nat) (d : Dev) {p : Port} (real : realTime p = true) :
    PanicCompared levels d (Dev.compared levels d p) p := by
  unfold PanicCompared Dev.compared
  cases levels[portIdx p]? with
  | none => exact ⟨fun _ => rfl, nofun⟩
  | some l =>
    refine ⟨nofun, fun l' level => ?_⟩
    cases level
    refine Dev.panicCheck_cases l real (P := fun t =>
      t.memc.inPanic p = decide (l < (if d.memc.inPanic p then 2 else 1) * d.watermark p) ∧
      (d.memc.inPanic p = false → l < d.watermark p → t.evt.pend.getLsbD 43 = true)) (fun calm low => ?_) (fun panics high => ?_)
      (fun between => ?_)
    · refine ⟨(Memc.inPanic_set real _ _ p).trans ?_, fun _ _ => Evt.raise_self d.evt 43 rfl⟩
      rw [calm]
      simp [low]
    · refine ⟨(Memc.inPanic_clear real _ p).trans ?_, fun calm => absurd (calm.symm.trans panics) (by decide)⟩
      rw [panics]
      simp [high]
    · cases panics : d.memc.inPanic p with
      | false =>
        rw [panics] at between
        exact ⟨by simpa using between, fun _ low => absurd low (Nat.not_lt.mpr between)⟩
      | true =>
        rw [panics] at between
        exact ⟨by simpa using between, nofun⟩

theorem Dev.comparisons_frame (levels : List Nat) : ∀ (ps : List Port) (d : Dev), (∀ p ∈ ps, realTime p = true) →
    PanicFrame d (ps.foldl (Dev.compared levels) d)
  | [], d, _ => PanicFrame.refl d
  | p :: ps, d, real => (Dev.compared_frame levels d (real p (List.mem_cons_self ..))).trans
      (Dev.comparisons_frame levels ps _ (fun q mem => real q (List.mem_cons_of_mem _ mem)))

theorem Dev.comparisons_other (levels : List Nat) {q : Port} : ∀ (ps : List Port) (d : Dev), (∀ p ∈ ps, realTime p = true) → q ∉ ps →
    (ps.foldl (Dev.compared levels) d).memc.inPanic q = d.memc.inPanic q
  | [], _, _, _ => rfl
  | p :: ps, d, real, out => (Dev.comparisons_other levels ps _ (fun q mem => real q (List.mem_cons_of_mem _ mem))
      (List.not_mem_of_not_mem_cons out)).trans
      (Dev.compared_other levels d (real p (List.mem_cons_self ..)) (List.ne_of_not_mem_cons out))

/-- Comparisons in turn, each of its own port. -/
theorem Dev.comparisons_own (levels : List Nat) {q : Port} (ps : List Port) (d : Dev) (real : ∀ p ∈ ps, realTime p = true)
    (nodup : ps.Nodup) (mem : q ∈ ps) : PanicCompared levels d (ps.foldl (Dev.compared levels) d) q := by
  induction ps generalizing d with
  | nil => cases mem
  | cons p ps ih =>
    have realHead := real p (List.mem_cons_self ..)
    have realTail : ∀ q ∈ ps, realTime q = true := fun q mem => real q (List.mem_cons_of_mem _ mem)
    obtain ⟨out, nodup⟩ := List.nodup_cons.mp nodup
    rw [List.foldl_cons]
    by_cases own : q = p
    · subst own
      exact (Dev.compared_own levels d realHead).later (Dev.comparisons_frame levels ps _ realTail)
        (Dev.comparisons_other levels ps _ realTail out)
    · exact (ih _ realTail nodup ((List.mem_cons.mp mem).resolve_left own)).earlier (Dev.compared_frame levels d realHead)
        (Dev.compared_other levels d realHead own)

theorem realTime_compared : ∀ p ∈ [Port.comp, .gain, .ledg], realTime p = true := by decide

theorem Dev.panicChecks_frame (d : Dev) (levels : List Nat) : d.panicChecks levels = { d with
    memc := { d.memc with panic := (d.panicChecks levels).memc.panic, panics := (d.panicChecks levels).memc.panics }
    evt := (d.panicChecks levels).evt } := by
  rw [Dev.panicChecks_compared]
  exact (Dev.comparisons_frame levels _ d realTime_compared).1

theorem Dev.panicChecks_own (d : Dev) (levels : List Nat) {p : Port} (mem : p ∈ [Port.comp, .gain, .ledg]) :
    PanicCompared levels d (d.panicChecks levels) p := by
  rw [Dev.panicChecks_compared]
  exact Dev.comparisons_own levels _ d realTime_compared (by decide) mem

/-! ### Transfers (R248 to R250) -/

section
variable {s : State} (idle : s.dev.servePorts = s.dev) (ch : Nat) (ready : BitVec 8) (ecc : Ecc) (levels : List Nat)
include idle

/-- While a refresh occupies a channel a command slot does nothing. -/
theorem transfer_closed (closed : s.dev.chanOpen ch = false) : exec (.memTransferDone ch ready ecc levels) s = .next s := by
  refine congrArg Host.Outcome.next ((if_pos ?_).trans (State.onDev_congr idle))
  rw [State.onDev_congr idle, closed, Bool.and_false]
  rfl

/-- While it retrains the levels alone are compared. -/
theorem transfer_retrains (on : s.dev.dramOn = true) (opened : s.dev.chanOpen ch = true) (busy : s.dev.chanFree ch = false) :
    exec (.memTransferDone ch ready ecc levels) s = .next (s.onDev (fun d => d.panicChecks levels)) := by
  have served : s.onDev Dev.servePorts = s := State.onDev_congr idle
  refine congrArg Host.Outcome.next ((if_neg ?_).trans ((if_pos ?_).trans ?_))
  · rw [served, on, opened]
    decide
  · rw [served, busy]
    rfl
  · rw [served]

/-- The head of the bank that R249 picks is transferred. -/
theorem transfer_picks {b : Nat} {r : Req} {rest : List Req} (on : s.dev.dramOn = true) (free : s.dev.chanFree ch = true)
    (picks : s.dev.pickBank ch ready = some b) (queue : s.dev.bankQueue ch b = r :: rest) :
    exec (.memTransferDone ch ready ecc levels) s = .next (s.transfer ch b r ecc levels) := by
  have served : s.onDev Dev.servePorts = s := State.onDev_congr idle
  have opened : s.dev.chanOpen ch = true := (Bool.and_eq_true_iff.mp free).1
  refine congrArg Host.Outcome.next ((if_neg ?_).trans ((if_neg ?_).trans ?_))
  · rw [served, on, opened]
    decide
  · rw [served, free]
    decide
  · simp only [served, picks, queue]
end

/-- The head of a bank's queue taken out leaves the others of the bank in their order. -/
theorem filter_dropFirst {α : Type} {p : α → Bool} {x : α} {xs : List α} : ∀ {l : List α}, l.filter p = x :: xs →
    (dropFirst p l).filter p = xs
  | y :: l, head => by
    unfold dropFirst
    cases own : p y with
    | true =>
      rw [List.filter_cons_of_pos own] at head
      exact (List.cons.inj head).2
    | false =>
      have out : ¬ p y = true := by rw [own]; decide
      rw [List.filter_cons_of_neg out] at head
      rw [if_neg Bool.false_ne_true, List.filter_cons_of_neg out]
      exact filter_dropFirst head

/-- A channel that queues a request exists. -/
theorem Dev.chan_lt {d : Dev} {c b : Nat} {r : Req} {rest : List Req} (queue : d.bankQueue c b = r :: rest) :
    c < d.memc.chans.length := by
  refine Nat.lt_of_not_le (fun ge => ?_)
  rw [Dev.bankQueue, Memc.chan_of_ge ge] at queue
  cases queue

/-- The channel behind a transfer: the head of bank `b` has left its queue. -/
def Dev.issued (d : Dev) (c b a : Nat) : Dev := d.onMemc (fun m => m.onChan c (fun x =>
  ({ x with queue := dropFirst (fun x => d.bankOf x.addr == b) x.queue, lastBank := b } : Chan).useCheck a))

/-- The blocks when a write's bytes stand in layer memory. -/
def Dev.wrote (d : Dev) (r : Req) : Dev :=
  let d := d.onMemc (fun m => m.give r.port)
  if r.port == .fww then (d.onFw (fun f => f.granuleWritten r.tag)).vc1Written else d

/-- The blocks when a read's bytes, `data`, have come back without delay. -/
def Dev.fetched (d : Dev) (r : Req) (data : Bytes) (ecc : Ecc) : Dev :=
  (((d.onMemc (fun m => { m with draws := m.draws + 1 })).countReads 1 0).onMemc (fun m =>
    { m.give r.port with readData := data, readPoison := eccPoisons ecc })).eccResult r.addr ecc

theorem State.transfer_write (s : State) (c b : Nat) {r : Req} (ecc : Ecc) (levels : List Nat) (write : r.write = true) :
    s.transfer c b r ecc levels = { s with
      mem := s.mem.writeAll r.addr r.data
      dev := (((s.dev.issued c b r.addr).wrote r).settleQueues c).panicChecks levels } := if_pos write

theorem Dev.answerDelay_none {d : Dev} (comp : d.test.compDelay = 0) (gain : d.test.gainDelay = 0) (p : Port) : d.answerDelay p = 0 := by
  unfold Dev.answerDelay
  rw [comp, gain]
  cases p <;> rfl

theorem Dev.countReads_test (d : Dev) (total n : Nat) : (d.countReads total n).test = d.test := by rw [Dev.countReads_eq]; rfl

theorem State.transfer_read {s : State} (c b : Nat) {r : Req} (ecc : Ecc) (levels : List Nat) (read : r.write = false)
    (comp : s.dev.test.compDelay = 0) (gain : s.dev.test.gainDelay = 0) :
    s.transfer c b r ecc levels = { s with
      dev := (((s.dev.issued c b r.addr).fetched r (s.mem.bytes s.dev.memc.draws r.addr 32) ecc).settleQueues c).panicChecks levels } := by
  have prompt : (((s.dev.issued c b r.addr).onMemc (fun m => { m with draws := m.draws + 1 })).countReads 1 0).answerDelay r.port = 0 := by
    refine Dev.answerDelay_none ?_ ?_ r.port
    · rwa [Dev.countReads_test]
    · rwa [Dev.countReads_test]
  refine (if_neg (by rw [read]; decide)).trans (State.onDev_congr ?_)
  exact congrArg (fun d => ((Dev.eccResult d r.addr ecc).settleQueues c).panicChecks levels) (if_pos prompt)

/-! ### What a transfer leaves (R248, R249, R257) -/

/-- Request `r` has gone out of channel `c` and its port's credit is back: the request's bank goes by the masks in force. -/
structure Dev.Completed (d e : Dev) (c b : Nat) (r : Req) : Prop where
  banks : e.bankOf = d.bankOf
  queue : (e.memc.chan c).queue = dropFirst (fun x => d.bankOf x.addr == b) (d.memc.chan c).queue
  writes : (e.memc.chan c).writeQ = (d.memc.chan c).writeQ
  credits : e.memc.credits = updNth d.memc.credits (portIdx r.port) (· + 1)
  held : e.memc.held = d.memc.held

theorem Dev.completed_issued {d : Dev} {c b : Nat} {r : Req} {m : Memc} {e : Dev} (lt : c < d.memc.chans.length)
    (banks : e.bankOf = d.bankOf) (memc : e.memc = m) (chans : m.chans = (d.issued c b r.addr).memc.chans)
    (credits : m.credits = updNth d.memc.credits (portIdx r.port) (· + 1)) (held : m.held = d.memc.held) : d.Completed e c b r := by
  have chan : e.memc.chan c = (d.issued c b r.addr).memc.chan c := by rw [memc, Memc.chan, chans]; rfl
  rw [Dev.issued, Dev.onMemc_memc, Memc.chan_onChan lt] at chan
  refine ⟨banks, ?_, ?_, memc ▸ credits, memc ▸ held⟩
  · rw [chan]; rfl
  · rw [chan]; rfl

@[simp] theorem Dev.vc1Written_memc (d : Dev) : d.vc1Written.memc = d.memc := by
  simp [Dev.vc1Written, Dev.freeVc1, apply_ite Dev.memc]

@[simp] theorem Dev.vc1Written_cfg (d : Dev) : d.vc1Written.cfg = d.cfg := by
  simp [Dev.vc1Written, Dev.freeVc1, apply_ite Dev.cfg]

theorem Dev.bankOf_cfg {d e : Dev} (same : e.cfg = d.cfg) : e.bankOf = d.bankOf := by
  have word : ∀ k i, e.sw k i = d.sw k i := fun k i => by simp only [Dev.sw, Dev.sect, same]
  funext a
  simp only [Dev.bankOf, Dev.bankMask, word]

theorem Dev.wrote_completed {d : Dev} {c b : Nat} {r : Req} (lt : c < d.memc.chans.length) :
    d.Completed ((d.issued c b r.addr).wrote r) c b r := by
  have cfg : ((d.issued c b r.addr).wrote r).cfg = d.cfg := by
    unfold Dev.wrote
    split
    · exact Dev.vc1Written_cfg _
    · rfl
  have memc : ((d.issued c b r.addr).wrote r).memc = (d.issued c b r.addr).memc.give r.port := by
    unfold Dev.wrote
    split
    · exact Dev.vc1Written_memc _
    · rfl
  exact Dev.completed_issued lt (Dev.bankOf_cfg cfg) memc rfl rfl rfl

/-- ECC results change only their counts, the fallback copy's start, the events and the messages. -/
theorem Dev.eccResult_frame (d : Dev) (a : Nat) (e : Ecc) : d.eccResult a e = { d with
    memc := { d.memc with
      corrected := (d.eccResult a e).memc.corrected, uncorrectable := (d.eccResult a e).memc.uncorrectable
      eccAddr := (d.eccResult a e).memc.eccAddr, window := (d.eccResult a e).memc.window
      windowOver := (d.eccResult a e).memc.windowOver, copying := (d.eccResult a e).memc.copying }
    evt := (d.eccResult a e).evt, keep := (d.eccResult a e).keep } := by
  have counted : d.eccResult a e = if eccPoisons e then (d.eccCounted e).uncorrectable a else d.eccCounted e := rfl
  rw [counted, Dev.eccCounted_frame d e]
  split <;> rfl

/-- A read's bytes, its count and its port's credit come back. -/
def Dev.returned (d : Dev) (r : Req) (data : Bytes) (poison : Bool) : Dev := { d with memc := { d.memc.give r.port with
  draws := d.memc.draws + 1, reads := d.memc.reads + 1, readData := data, readPoison := poison } }

theorem Dev.fetched_eq {d : Dev} (dram : d.memc.dramLess = false) (r : Req) (data : Bytes) (ecc : Ecc) :
    d.fetched r data ecc = (d.returned r data (eccPoisons ecc)).eccResult r.addr ecc := by
  have counted := congrArg (fun m : Memc => ({ d with memc :=
    { m.give r.port with readData := data, readPoison := eccPoisons ecc } } : Dev))
    (Memc.counted_fetched (m := { d.memc with draws := d.memc.draws + 1 }) dram)
  unfold Dev.fetched
  rw [Dev.countReads_eq]
  refine congrArg (fun d => Dev.eccResult d r.addr ecc) (?_ : _ = d.returned r data (eccPoisons ecc))
  exact counted

theorem Dev.fetched_completed {d : Dev} {c b : Nat} {r : Req} (lt : c < d.memc.chans.length) (dram : d.memc.dramLess = false)
    (data : Bytes) (ecc : Ecc) : d.Completed ((d.issued c b r.addr).fetched r data ecc) c b r := by
  rw [Dev.fetched_eq (d := d.issued c b r.addr) dram]
  have frame := ((d.issued c b r.addr).returned r data (eccPoisons ecc)).eccResult_frame r.addr ecc
  have cfg := congrArg Dev.cfg frame
  exact Dev.completed_issued lt (Dev.bankOf_cfg cfg) (congrArg Dev.memc frame) rfl rfl rfl

/-- Where no request is held, what follows a transfer changes the queues of the channels, the panics and the events. -/
theorem Dev.settled_frame {e : Dev} (empty : e.memc.held = []) (c : Nat) (levels : List Nat) :
    (e.settleQueues c).panicChecks levels = { e with
      memc := { e.memc with
        chans := (Dev.drainWrites 32 e c).memc.chans, panic := ((e.settleQueues c).panicChecks levels).memc.panic
        panics := ((e.settleQueues c).panicChecks levels).memc.panics }
      evt := ((e.settleQueues c).panicChecks levels).evt } := by
  have drained : e.settleQueues c = Dev.drainWrites 32 e c := by
    refine Dev.admitHeld_none 64 ?_
    rw [Dev.drainWrites_frame]
    exact empty
  refine (Dev.panicChecks_frame _ levels).trans ?_
  generalize (e.settleQueues c).panicChecks levels = t
  rw [drained]
  generalize same : Dev.drainWrites 32 e c = u
  have frame := Dev.drainWrites_frame 32 e c
  rw [same] at frame
  rw [frame]

/-- The queue of the bank goes on with `rest` and with what the write queue passes to it. -/
theorem Dev.settled_served {s t : State} {c b : Nat} {r : Req} {rest : List Req} {e : Dev} {levels : List Nat}
    (queue : s.dev.bankQueue c b = r :: rest) (five : s.dev.memc.credits.length = 5) (empty : s.dev.memc.held = [])
    (done : s.dev.Completed e c b r) (dev : t.dev = (e.settleQueues c).panicChecks levels) : Claims.Served s t c b r rest := by
  obtain ⟨banks, gone, writes, credits, held⟩ := done
  have settled := Dev.settled_frame (held.trans empty) c levels
  rw [← dev] at settled
  have left : e.bankQueue c b = rest := by
    rw [Dev.bankQueue, banks, gone]
    exact filter_dropFirst queue
  have queues : t.dev.bankQueue c b = (Dev.drainWrites 32 e c).bankQueue c b := by
    rw [settled, Dev.drainWrites_frame 32 e c]
    rfl
  have credit : ∀ p, t.dev.memc.credit p = if p = r.port then s.dev.memc.credit r.port + 1 else s.dev.memc.credit p := fun p => by
    rw [settled, Memc.credit]
    exact (congrArg (nth 0 · _) credits).trans (nth_credits_given five p)
  refine ⟨?_, fun empty => ?_, ?_, fun p other => ?_⟩
  · rw [queues, ← left]
    exact Dev.drainWrites_bankQueue c b 32 e
  · rw [queues, Dev.drainWrites_none 32 (writes.trans empty), left]
  · rw [credit, if_pos rfl]
  · rw [credit, if_neg other]

/-! ### The counts of the fallback copy (R250, R256, R257, R259) -/

/-- A queued write that lies in a span is in one of its granules. -/
theorem granulesIn_pos {m : Memc} {lo hi : Nat} (forwards : m.forwardsIn lo hi ≠ 0) : granulesIn lo hi ≠ 0 := by
  obtain ⟨g, -, within⟩ := List.countP_pos_iff.mp (Nat.pos_of_ne_zero forwards)
  simp only [Bool.and_eq_true, decide_eq_true_eq] at within
  unfold granulesIn
  omega

theorem Dev.copyReads_pos {d : Dev} (forwards : d.copyForwards ≠ 0) : d.copyReads ≠ 0 := by
  have first := granulesIn_pos (m := d.memc) (lo := (d.copySpan 0).1) (hi := (d.copySpan 0).2)
  have second := granulesIn_pos (m := d.memc) (lo := (d.copySpan 1).1) (hi := (d.copySpan 1).2)
  simp only [Dev.copyForwards, Dev.copyReads, sumNat, List.range, List.range.loop, List.map, List.foldl] at forwards ⊢
  omega

/-- Granules read uncorrectable change nothing of layer memory but their own count. -/
theorem Dev.uncorrectables_memc : ∀ (l : List Nat) (d : Dev), ∃ n a,
    (l.foldl Dev.uncorrectable d).memc = { d.memc with uncorrectable := n, eccAddr := a }
  | [], d => ⟨d.memc.uncorrectable, d.memc.eccAddr, rfl⟩
  | a :: l, d => Dev.uncorrectables_memc l (d.uncorrectable a)

/-- What the granule reads of an entry count. -/
theorem Dev.entryReads_counts {d : Dev} (dram : d.memc.dramLess = false) {total n : Nat} (read : n ≠ 0 → total ≠ 0)
    (poison corrected : List Nat) : let m := (d.entryReads total n poison corrected).memc
    (corrected ≠ [] → m.corrected = Nat.min 1048575 (d.memc.corrected + corrected.length)) ∧
    m.reads = d.memc.reads + (total - n) ∧ (n ≠ 0 → m.forwarded = Nat.min 65535 (d.memc.forwarded + n)) := by
  have counts : (d.memc.counted total n).corrected = d.memc.corrected ∧ (d.memc.counted total n).reads = d.memc.reads + (total - n) ∧
      (n ≠ 0 → (d.memc.counted total n).forwarded = Nat.min 65535 (d.memc.forwarded + n)) := by
    unfold Memc.counted
    rw [dram, Bool.or_false]
    split
    · next nothing =>
      have zero := of_decide_eq_true nothing
      exact ⟨rfl, by rw [zero, Nat.zero_sub]; rfl, fun forwards => absurd zero (read forwards)⟩
    · exact ⟨rfl, rfl, fun forwards => if_neg forwards⟩
  obtain ⟨kept, reads, forwarded⟩ := counts
  unfold Dev.entryReads
  obtain ⟨k, a, bad⟩ := Dev.uncorrectables_memc poison
    (if corrected.isEmpty then d.countReads total n else (d.countReads total n).correctedErrors corrected.length)
  simp only [bad]
  cases corrected with
  | nil =>
    rw [List.isEmpty_nil, if_pos rfl, Dev.countReads_eq]
    exact ⟨fun empty => absurd rfl empty, reads, forwarded⟩
  | cons x xs =>
    rw [List.isEmpty_cons, if_neg Bool.false_ne_true, Dev.correctedErrors_frame, Dev.countReads_eq]
    exact ⟨fun _ => congrArg (fun k => Nat.min 1048575 (k + (x :: xs).length)) kept, reads, forwarded⟩

end Sys2Proof.Machine

namespace Sys2Proof.Proofs

open Sys2Proof Sys2Proof.Machine Sys2Proof.Claims

/-! ### The clauses of O60 -/

section
variable {s : State}

section
variable {p : Port} {a : Nat} (inside : granule a = true) (idle : s.dev.servePorts = s.dev) (held : s.dev.memc.held = [])
  (on : s.dev.dramOn = true)
include inside idle held on

theorem read_held (serves : s.dev.requests p false a = true) (out : s.dev.memc.credit p = 0) :
    Next (.memRequest (.read p a)) s (fun t => SameStore s t ∧ t.dev = { s.dev with memc := { s.dev.memc with
      held := [{ port := p, addr := a, write := false, data := [] }] } }) :=
  next_onDev (read_requests inside idle on serves) (Dev.request_held held out) rfl

theorem read_forwarded {w : Req} (serves : s.dev.requests p false a = true) (has : s.dev.memc.credit p ≠ 0)
    (hit : (s.dev.memc.chan (chOf a)).forward a = some w) :
    Next (.memRequest (.read p a)) s (fun t => SameStore s t ∧ t.dev = { s.dev with memc := { s.dev.memc with
      forwarded := Nat.min 65535 (s.dev.memc.forwarded + 1), readData := w.data, readPoison := false } }) :=
  have can := Dev.canEnter_read (a := a) has (.inl (by rw [hit]; rfl))
  next_onDev (read_requests inside idle on serves) ((Dev.request_enters held can).trans (Dev.enter_forwarded hit)) rfl

theorem read_queued (serves : s.dev.requests p false a = true) (has : s.dev.memc.credit p ≠ 0) (two : s.dev.memc.chans.length = 2)
    (miss : (s.dev.memc.chan (chOf a)).forward a = none) (room : (s.dev.bankQueue (chOf a) (s.dev.bankOf a)).length < 16) :
    Next (.memRequest (.read p a)) s (fun t => SameStore s t ∧ t.dev.memc.credit p + 1 = s.dev.memc.credit p ∧
      (t.dev.memc.chan (chOf a)).queue =
        (s.dev.memc.chan (chOf a)).queue ++ [{ port := p, addr := a, write := false, data := [] }] ∧
      t.dev = { s.dev with memc := t.dev.memc }) := by
  have can := Dev.canEnter_read (a := a) has (.inr room)
  have lt : chOf a < s.dev.memc.chans.length := two ▸ chOf_lt a
  refine next_onDev (read_requests inside idle on serves) ((Dev.request_enters held can).trans (Dev.enter_read miss))
    ⟨Memc.credit_take has, ?_, rfl⟩
  exact congrArg Chan.queue (Memc.chan_onChan (m := s.dev.memc.take p) lt _)

theorem write_queued (data : Bytes) (serves : s.dev.requests p true a = true) (other : p ≠ .fww) (has : s.dev.memc.credit p ≠ 0)
    (two : s.dev.memc.chans.length = 2) (empty : (s.dev.memc.chan (chOf a)).writeQ = [])
    (room : (s.dev.bankQueue (chOf a) (s.dev.bankOf a)).length < 16) :
    Next (.memRequest (.write p a data)) s (fun t => SameStore s t ∧ t.dev.memc.credit p + 1 = s.dev.memc.credit p ∧
      (t.dev.memc.chan (chOf a)).writeQ = [] ∧
      (t.dev.memc.chan (chOf a)).queue =
        (s.dev.memc.chan (chOf a)).queue ++ [{ port := p, addr := a, write := true, data := padTo 32 data }] ∧
      t.dev = { s.dev with memc := t.dev.memc }) := by
  obtain ⟨m, enters, credits, chan⟩ := Dev.enter_write (r := { port := p, addr := a, write := true, data := padTo 32 data }) rfl two
    empty room
  have can : s.dev.canEnter { port := p, addr := a, write := true, data := padTo 32 data } = true :=
    Dev.canEnter_write rfl has empty
  refine next_onDev (write_requests inside data idle on serves other) ((Dev.request_enters held can).trans enters) ⟨?_, ?_, ?_, rfl⟩
  · rw [← Memc.credit_take has, Memc.credit, credits]
    rfl
  · rw [chan]
    exact empty
  · rw [chan]
end

theorem memory_off (off : s.dev.pwr.mainOn = false) : exec (.memRequest .fww) s = .next s ∧
    ∀ p a data, granule a = true → exec (.memRequest (.read p a)) s = .next s ∧ exec (.memRequest (.write p a data)) s = .next s := by
  have still : s.dev.fairwayOn = false := by rw [Dev.fairwayOn, off]; rfl
  refine ⟨?_, fun p a data inside => ⟨read_off inside p off, write_off inside p data off⟩⟩
  rw [fww_arrives (Dev.servePorts_off off), State.onDev_congr (Dev.fwwRequest_off still)]

section
variable (idle : s.dev.servePorts = s.dev) (ch : Nat) (ready : BitVec 8) (ecc : Ecc) (levels : List Nat)
include idle

theorem levels_compared (on : s.dev.dramOn = true) (opened : s.dev.chanOpen ch = true) (busy : s.dev.chanFree ch = false) :
    Next (.memTransferDone ch ready ecc levels) s (fun t => SameStore s t ∧ t.dev = { s.dev with
        memc := { s.dev.memc with panic := t.dev.memc.panic, panics := t.dev.memc.panics }, evt := t.dev.evt } ∧
      ∀ p ∈ [Port.comp, .gain, .ledg], PanicCompared levels s.dev t.dev p) :=
  next_onDev (transfer_retrains idle ch ready ecc levels on opened busy) rfl
    ⟨s.dev.panicChecks_frame levels, fun _ mem => s.dev.panicChecks_own levels mem⟩

section
variable {b : Nat} {r : Req} {rest : List Req} (on : s.dev.dramOn = true) (free : s.dev.chanFree ch = true)
  (picks : s.dev.pickBank ch ready = some b) (queue : s.dev.bankQueue ch b = r :: rest) (five : s.dev.memc.credits.length = 5)
  (held : s.dev.memc.held = [])
include on free picks queue five held

theorem write_transferred (write : r.write = true) : Next (.memTransferDone ch ready ecc levels) s (fun t =>
    Served s t ch b r rest ∧ t.otp = s.otp ∧ t.cells = s.cells ∧ t.lat = s.lat ∧
    (∀ a, a < r.addr ∨ r.addr + r.data.length ≤ a → t.mem.read a = s.mem.read a) ∧
    (∀ k, k < r.data.length → r.addr + k < memTop → t.mem.read (r.addr + k) = r.data[k]?)) := by
  refine ⟨_, (transfer_picks idle ch ready ecc levels on free picks queue).trans
    (congrArg _ (s.transfer_write ch b ecc levels write)), ?_, rfl, rfl, rfl, fun a out => ?_, fun k lt within => ?_⟩
  · exact Dev.settled_served queue five held (Dev.wrote_completed (Dev.chan_lt queue)) rfl
  · exact (Memory.read_writeAll ..).trans (if_neg (by omega))
  · refine (Memory.read_writeAll ..).trans ((if_pos ⟨by omega, by omega, within⟩).trans ?_)
    rw [Nat.add_sub_cancel_left]

theorem read_transferred (read : r.write = false) (comp : s.dev.test.compDelay = 0) (gain : s.dev.test.gainDelay = 0) :
    Next (.memTransferDone ch ready ecc levels) s (fun t => SameStore s t ∧ Served s t ch b r rest ∧
      t.dev.memc.readData = s.mem.bytes s.dev.memc.draws r.addr 32 ∧ t.dev.memc.readPoison = eccPoisons ecc ∧
      t.dev.memc.reads = s.dev.memc.reads + 1) := by
  have done := Dev.fetched_completed (Dev.chan_lt queue) (Dev.dramOn_dram on) (s.mem.bytes s.dev.memc.draws r.addr 32) ecc (b := b)
    (r := r)
  refine ⟨_, (transfer_picks idle ch ready ecc levels on free picks queue).trans
    (congrArg _ (State.transfer_read ch b ecc levels read comp gain)), ⟨rfl, rfl, rfl, rfl, rfl⟩,
    Dev.settled_served queue five held done rfl, ?_⟩
  rw [Dev.settled_frame (done.held.trans held), Dev.fetched_eq (d := s.dev.issued ch b r.addr) (Dev.dramOn_dram on),
    Dev.eccResult_frame]
  exact ⟨rfl, rfl, rfl⟩
end
end

/-- A refresh that cannot be deferred is forced (R251). -/
theorem refresh_forced {ch : Nat} (lt : ch < 2) (on : s.dev.dramOn = true) (two : s.dev.memc.chans.length = 2)
    (due : 8 ≤ (s.dev.memc.chan ch).debt) : Next (.refreshDue ch) s (fun t => SameStore s t ∧ Raises s t [42] ∧
      Sends s t [mkMsg 0xC4 0x19 0 ch] ∧ (t.dev.memc.chan ch).debt = (s.dev.memc.chan ch).debt ∧
      (t.dev.memc.chan ch).refreshUntil = Nat.max s.dev.now (s.dev.memc.chan ch).refreshUntil + 36 ∧
      (∀ c, c ≠ ch → t.dev.memc.chan c = s.dev.memc.chan c) ∧ t.dev = { s.dev with
        memc := { s.dev.memc with forced := Nat.min 65535 (s.dev.memc.forced + 1), chans := t.dev.memc.chans }
        evt := t.dev.evt, keep := t.dev.keep }) := by
  have chan := Memc.chan_onChan (m := { s.dev.memc with forced := satInc 65535 s.dev.memc.forced }) (two ▸ lt)
    (fun x => x.occupy s.dev.now 1)
  refine next_onDev ((congrArg Host.Outcome.next ((if_neg ?_).trans (if_pos due)))) rfl
    ⟨raises_one rfl rfl, rfl, ?_, ?_, fun c other => Memc.chan_onChan_ne other _, ?_⟩
  · rw [on, decide_eq_true lt]
    decide
  · exact (congrArg Chan.debt chan).trans rfl
  · exact congrArg Chan.refreshUntil chan
  · rw [← satInc_eq_min]
    rfl

/-- In the base periods it is deferred (R251, R252). -/
theorem refresh_deferred {ch : Nat} (lt : ch < 2) (on : s.dev.dramOn = true) (two : s.dev.memc.chans.length = 2)
    (few : (s.dev.memc.chan ch).debt < 8) (base : s.inBase = true) : Next (.refreshDue ch) s (fun t => SameStore s t ∧
      (t.dev.memc.chan ch).debt = (s.dev.memc.chan ch).debt + 1 ∧
      t.dev.memc.maxDebt = Nat.max s.dev.memc.maxDebt ((s.dev.memc.chan ch).debt + 1) ∧
      t.dev = { s.dev with memc := t.dev.memc }) := by
  refine next_onDev ((congrArg Host.Outcome.next ((if_neg ?_).trans (if_neg (Nat.not_le.mpr few))))) rfl ⟨?_, rfl, rfl⟩
  · rw [on, decide_eq_true lt]
    decide
  · rw [base]
    exact congrArg Chan.debt (Memc.chan_onChan (m := s.dev.memc) (two ▸ lt) _)

theorem eccWindow_ends (on : s.dev.pwr.mainOn = true) (full : 1048576 ≤ s.dev.memc.reads) : Next .eccWindow s (fun t =>
    SameStore s t ∧ t.dev = { s.dev with
      memc := { s.dev.memc with window := 0, windowOver := false, reads := s.dev.memc.reads - 1048576 } }) :=
  next_onDev rfl (if_pos (by rw [on]; exact decide_eq_true full)) rfl

theorem eccWindow_runs (short : s.dev.memc.reads < 1048576) : exec .eccWindow s = .next s := by
  refine congrArg Host.Outcome.next (State.onDev_congr (if_neg ?_))
  rw [Bool.and_eq_true, decide_eq_true_eq]
  exact fun full => absurd full.2 (Nat.not_le.mpr short)

/-- The fallback copy is taken whole (R259). -/
theorem fallbackCopy_taken (po co : List Nat) (copying : s.dev.memc.copying = true) (on : s.dev.dramOn = true) :
    Next (.fallbackCopyDone po co) s (fun t => SameStore s t ∧ t.dev.memc.copying = false ∧ t.dev.memc.copied = true ∧
      t.dev.memc.half0 = s.fallbackHalf 0 (s.dev.memc.fromDram po) ∧ t.dev.memc.half1 = s.fallbackHalf 1 (s.dev.memc.fromDram po) ∧
      (s.dev.memc.fromDram co ≠ [] →
        t.dev.memc.corrected = Nat.min 1048575 (s.dev.memc.corrected + (s.dev.memc.fromDram co).length)) ∧
      t.dev.memc.reads = s.dev.memc.reads + (s.dev.copyReads - s.dev.copyForwards) ∧
      (s.dev.copyForwards ≠ 0 → t.dev.memc.forwarded = Nat.min 65535 (s.dev.memc.forwarded + s.dev.copyForwards))) := by
  refine next_onDev (congrArg Host.Outcome.next (if_neg ?_)) rfl ⟨rfl, rfl, rfl, rfl, ?_⟩
  · rw [copying, on]
    decide
  · exact Dev.entryReads_counts (Dev.dramOn_dram on) Dev.copyReads_pos _ _
end

/-- Settles O60: with nothing else at the ports each command meets the queues as they stand, and each clause is the rule for it. -/
theorem layerMemoryServesRequests : Obligations.LayerMemoryServesRequests := by
  intro s late held
  have idle := Dev.servePorts_idle late held
  refine ⟨fun p a outside => ⟨read_noGranule outside p s, fun data => write_noGranule outside p data s⟩,
    fun p a inside on unserved => read_unserved inside idle unserved,
    fun p a inside on serves out => read_held inside idle held on serves out,
    fun p a inside on has serves two => ⟨fun w hit => read_forwarded inside idle held on serves has hit,
      fun miss room => read_queued inside idle held on serves has two miss room⟩,
    fun p a data inside on has serves other two empty room => write_queued inside idle held on data serves other has two empty room,
    memory_off,
    fun w waits data on beyond => next_onDev (fww_arrives idle) (Dev.fwwRequest_throttled waits data on beyond) rfl,
    fun ch ready ecc levels closed => ⟨s, transfer_closed idle ch ready ecc levels closed, rfl⟩,
    fun ch ready ecc levels on opened busy => levels_compared idle ch ready ecc levels on opened busy,
    fun ch ready ecc levels b r rest on free picks queue five =>
      ⟨fun write => write_transferred idle ch ready ecc levels on free picks queue five held write,
        fun read comp gain => read_transferred idle ch ready ecc levels on free picks queue five held read comp gain⟩,
    fun ch lt on two => ⟨fun due => refresh_forced lt on two due, fun few base => refresh_deferred lt on two few base⟩,
    eccWindow_ends, eccWindow_runs, fun po co copying on => fallbackCopy_taken po co copying on⟩

end Sys2Proof.Proofs

/-! ## What every command but a few is made of

A restart, the end of a security command and the fusing of OTP stand apart. Every other command is made of changes of the blocks and of the
cells, of writes of layer memory, and of three changes of the latches. One lemma for each change of the whole state that such a command
is made of; what holds through each kind of change then holds through every such command. -/

namespace Sys2Proof.Machine

/-- The commands that reach the fuses or the access level, or restart: each of them is small. -/
def standsApart (c : Instr) : Bool :=
  isRestart c || match c with
    | .secCommandDone | .claimFused | .rollbackFuse => true
    | _ => false

/-- The cause of a SAFE latch that the loss of the KEEP clock has set is recorded once the clock runs (R318). -/
def Latches.causeKnown (l : Latches) : Latches := { l with safeCause := if l.safe && l.safeCause == 0 then 4 else l.safeCause }

/-- `t` is made from `s` by changes of the kinds that a command is made of. -/
inductive Made : State → State → Prop
  | refl (s : State) : Made s s
  | trans {a b c : State} : Made a b → Made b c → Made a c
  | blocks {s t : State} : t = { s with dev := t.dev, cells := t.cells } → Made s t
  | write {s t : State} (a : Nat) (bs : Bytes) : t = { s with dev := t.dev, mem := s.mem.writeAll a bs } → Made s t
  | setSafe (s : State) (cause : Nat) : Made s (s.setSafe cause)
  | perturb (s : State) (jtag : Bool) : Made s (s.perturb jtag)
  | causeKnown (s : State) : Made s (s.onLat Latches.causeKnown)

namespace Made

theorem of_stores {s t : State} (pending : t.pending = s.pending) (otp : t.otp = s.otp) (mem : t.mem = s.mem) (lat : t.lat = s.lat) :
    Made s t := by
  refine .blocks ?_
  rw [← pending, ← otp, ← mem, ← lat]

theorem onDev (s : State) (f : Dev → Dev) : Made s (s.onDev f) := .blocks rfl

/-- A change of the blocks after `t`. -/
theorem thenDev {s t : State} (h : Made s t) (f : Dev → Dev) : Made s (t.onDev f) := h.trans (.onDev t f)

/-- A change of the blocks before it. -/
theorem afterDev {s t : State} {d : Dev} (h : Made { s with dev := d } t) : Made s t := .trans (.blocks rfl) h

theorem ite {c : Prop} [Decidable c] {s t u : State} (ht : Made s t) (hu : Made s u) : Made s (if c then t else u) := by
  split
  · exact ht
  · exact hu

theorem foldl {α : Type} {f : State → α → State} (hf : ∀ s x, Made s (f s x)) (xs : List α) (s : State) : Made s (xs.foldl f s) :=
  List.foldlRecOn xs f (motive := fun t => Made s t) (refl s) (fun t h x _ => h.trans (hf t x))

theorem writeMem (s : State) (a : Nat) (bs : Bytes) : Made s (s.writeMem a bs) := .write a bs rfl

/-- A command that answers `u`. -/
theorem of_next {s t u : State} (h : Made s u) : (Host.Outcome.next u : Host.Outcome State Fault Refusal) = .next t → Made s t := by
  intro run
  cases run
  exact h

/-- A command that answers `u` or stops. -/
theorem of_next_or_fault {s t u : State} {c : Prop} [Decidable c] {r : Fault} (h : Made s u) :
    (if c then .fault r else .next u : Host.Outcome State Fault Refusal) = .next t → Made s t := by
  split
  · exact nofun
  · exact of_next h

/-! ### Passes on the chains -/

theorem startPass (s : State) (t k : Nat) (pu : Purpose) (data : List (BitVec 16)) (flip : BitVec 20) :
    Made s (s.startPass t k pu data flip) := by
  obtain ⟨pending, otp, mem, lat⟩ := (OnlyPasses.startPass s t k pu data flip).stores
  exact of_stores pending otp mem lat

theorem safePasses (s : State) (t : Nat) (hdr : List HdrErr) : Made s (s.safePasses t hdr) := by
  obtain ⟨pending, otp, mem, lat⟩ := (OnlyPasses.safePasses s t hdr).stores
  exact of_stores pending otp mem lat

theorem afterStartPass (s : State) (t : Nat) (pu : Purpose) (hdr : List HdrErr) : Made s (s.afterStartPass t pu hdr) := by
  obtain ⟨pending, otp, mem, lat⟩ := (OnlyPasses.afterStartPass s t pu hdr).stores
  exact of_stores pending otp mem lat

theorem inbound (s : State) (t k : Nat) (p : Pass) (err : PassErr) : Made s (s.inbound t k p err) := by
  obtain ⟨pending, otp, mem, lat⟩ := (PassStep.inbound s t k p err).stores
  exact of_stores pending otp mem lat

theorem outbound (s : State) (t k : Nat) (p : Pass) (err : PassErr) : Made s (s.outbound t k p err) :=
  .ite (.onDev s _) (.onDev s _)

theorem readbackVerdict (s : State) (t : Nat) (pathBad : Bool) (hdr : List HdrErr) :
    Made s (s.readbackVerdict t pathBad hdr) := by
  unfold State.readbackVerdict
  dsimp only
  split
  · split
    · exact blocks rfl
    · split
      · split
        · exact .afterDev (.safePasses _ t hdr)
        · exact blocks rfl
      · exact blocks rfl
  · exact .refl s

theorem readEnds (s : State) (t k : Nat) (p : Pass) (err : PassErr) : Made s (s.readEnds t k p err) :=
  .ite (.refl s) (.ite ((onDev s _).trans (.readbackVerdict ..)) (.ite (.onDev s _) (.refl s)))

theorem endPass (s : State) (t k : Nat) (err : PassErr) : Made s (s.endPass t k err) := by
  cases on : s.dev.pwr.mainOn with
  | false =>
    rw [State.endPass, on]
    exact .refl s
  | true =>
    cases runs : s.dev.passOn t k with
    | none =>
      rw [State.endPass, if_pos on, runs]
      exact .refl s
    | some p =>
      rw [s.endPass_eq t k err p on runs]
      exact ((((onDev s _).trans (.inbound _ t k p err)).trans (.outbound _ t k p err)).trans (.readEnds _ t k p err)).trans
        ((afterStartPass _ t p.purpose err.hdr).thenDev _)

theorem auxChain (s : State) (t k : Nat) (flip : BitVec 20) : Made s (s.auxChain t k flip) := by
  unfold State.auxChain
  split
  · exact .startPass ..
  · exact .startPass ..
  · exact .startPass ..
  · exact .refl s

theorem driveRow (s : State) (ty : Nat) (hdr : List HdrErr) (bb : List BbufErr) : Made s (s.driveRow ty hdr bb) := by
  unfold State.driveRow
  exact ((onDev s _).trans (.foldl (fun _ _ => .startPass ..) _ _)).thenDev _

/-! ### The entries of the schedule -/

theorem compose (s : State) (w : Work) (doneAt : Nat) (po co fetched : List Nat) :
    Made s (s.compose w doneAt po co fetched) := by
  have batches (b0 n : Nat) : Made s (s.composeBatches b0 n po co fetched) := by
    obtain ⟨pending, otp, mem, -, lat⟩ := (BatchesAdded.composeBatches s b0 n po co fetched).store
    exact of_stores pending otp mem lat
  cases w with
  | entry i => exact .ite ((batches _ _).thenDev _) (.refl s)
  | rebuild b0 n => exact .ite (batches b0 n) (.refl s)

theorem chainDrive (s : State) (w : Work) (hdr : List HdrErr) (bb : List BbufErr) : Made s (s.chainDrive w hdr bb) := by
  cases w with
  | entry i => exact .ite ((onDev s _).trans (.driveRow ..)) (.refl s)
  | rebuild ty n => exact .ite (.driveRow s ty hdr bb) (.refl s)

theorem chainAux (s : State) (w : Work) (hdr : List HdrErr) : Made s (s.chainAux w hdr) := by
  cases w with
  | entry i => exact .ite (((onDev s _).trans (.foldl (fun _ _ => .auxChain ..) _ _)).thenDev _) (.refl s)
  | rebuild t k => exact .ite ((auxChain s t k _).thenDev _) (.refl s)

theorem entryDeadline (s : State) (i : Nat) : Made s (s.entryDeadline i) :=
  .ite (.refl s) (.ite (.refl s) (blocks rfl))

theorem packRuns : ∀ (n : Nat) (s : State) (es : SMap (BitVec 12)), Made s (packRuns n s es)
  | 0, s, _ => .refl s
  | _ + 1, s, [] => .refl s
  | n + 1, _, _ :: _ => (writeMem ..).trans (packRuns n _ _)

/-- LEDGER writes the runs of the masks that wait to the trim cache. -/
theorem ledgerEntry (s : State) (i doneAt : Nat) (po co : List Nat) : Made s (s.ledgerEntry i doneAt po co) :=
  .ite (.refl s) (.ite (.onDev s _) ((onDev s _).trans ((packRuns ..).thenDev _)))

/-- HEALTH writes the health map. -/
theorem health (s : State) (i doneAt : Nat) (po co : List Nat) : Made s (s.health i doneAt po co) :=
  .ite (.refl s) ((onDev s _).trans (.ite (.onDev _ _) ((writeMem ..).thenDev _)))

theorem scan (s : State) (i doneAt : Nat) (flips : List (Nat × Byte)) (po co : List Nat) :
    Made s (s.scan i doneAt flips po co) := by
  refine .ite (.refl s) ((onDev s (fun d => d.begin i (some doneAt))).trans ?_)
  dsimp only
  split
  · exact .refl _
  · exact .ite (.onDev _ _) (blocks rfl)

/-! ### The lamp frame and calibration -/

theorem tickCore (s : State) (temps : List (BitVec 12)) : Made s (s.tickCore temps) := by
  obtain ⟨pending, mem, otp, lat, -⟩ := s.tickCore_stores temps
  exact of_stores pending otp mem lat

theorem conversion (s : State) (t c code : Nat) : Made s (s.conversion t c code) := by
  have cand (u : State) (j : Nat) : Made u (u.convCand t j code) := by
    unfold State.convCand
    split
    · exact .refl u
    · exact .onDev u _
  exact .ite (.refl s) ((onDev s _).trans (.ite (.onDev _ _) (.ite (.onDev _ _) (.ite (cand _ _) (.refl _)))))

theorem trimCommit (s : State) : Made s s.trimCommit := by
  unfold State.trimCommit
  refine .ite (.refl s) (thenDev ?_ _)
  exact .ite (of_stores rfl rfl rfl rfl) (of_stores rfl rfl rfl rfl)

/-! ### Pixel diagnostics -/

theorem drivePulse (s : State) (t vled mv : Nat) (samples : List PixSample) : Made s (s.drivePulse t vled mv samples) :=
  .ite (.refl s) (.ite (.onDev s _) (blocks rfl))

theorem probeWindow (s : State) (t : Nat) (samples : List PixSample) : Made s (s.probeWindow t samples) := by
  have probe (u : State) (p : Nat) : Made u (u.probe samples p) := .ite (blocks rfl) (blocks rfl)
  exact .ite (.refl s) ((onDev s _).trans (.ite (.refl _) (.foldl probe _ _)))

theorem checkerWindow (s : State) (t : Nat) (above : List Nat) : Made s (s.checkerWindow t above) :=
  .ite (.refl s) (blocks rfl)

/-! ### The Keeper, the latches and the test block -/

theorem handle (s : State) (windows : List Window) (c : Class) : Made s (s.handle windows c) := by
  have opened (u : State) : Made u (if c.msg.kind = 0x10 then
      match giveUpWindow c.msg.source.toNat with
      | some w => u.onDev (fun d => d.openWindow w)
      | none => u
    else u) := by
    refine .ite ?_ (.refl u)
    split
    · exact .onDev u _
    · exact .refl u
  exact ((onDev s _).trans (opened _)).trans (.ite (.refl _) ((onDev _ _).trans (.ite (.refl _)
    ((onDev _ _).trans (.ite ((setSafe _ c.cause).thenDev _) (.refl _))))))

theorem keeperTake (s : State) : Made s s.keeperTake :=
  .ite (.refl s) (((onDev s _).trans (.foldl (fun u c => .handle u s.dev.keep.windows c) _ _)).thenDev _)

theorem control (s : State) (nonzero : Bool) : Made s (s.control nonzero) := .ite (.perturb s false) (.refl s)

theorem injectGo (s : State) (head : BitVec 16) (addr : Word) : Made s (s.injectGo head addr) :=
  (onDev s _).trans (.perturb _ false)

theorem drillGo (s : State) (u t : Nat) : Made s (s.drillGo u t) := by
  have drilled (r : State) : Made r r.drilled := (onDev r _).trans (.perturb _ false)
  refine .ite (drilled s) ?_
  split
  · exact .onDev s _
  · exact (onDev s _).trans (drilled _)

theorem keepAct (s : State) (w : KeepWork) : Made s (s.keepAct w) := by
  cases w with
  | inject head addr => exact .injectGo s head addr
  | drill u t => exact .drillGo s u t
  | exclude t => exact blocks rfl
  | tableLoaded => exact blocks rfl
  | tableAbandoned => exact blocks rfl

theorem keepWake (s : State) : Made s s.keepWake := .ite (.refl s) ((onDev s _).trans (.foldl keepAct _ _))

/-! ### The management port -/

theorem secCommand (s : State) (cmd key : Nat) : Made s (s.secCommand cmd key) :=
  .ite (.onDev s _) (.ite (.onDev s _) (.onDev s _))

theorem request (s : State) (t : Nat) : Made s (s.request t) := .ite (.onDev s _) (.onDev s _)

theorem writeInject (s : State) (v : Nat) : Made s (s.writeInject v) :=
  (onDev s _).trans (.ite (.refl _) (.ite (.onDev _ _) (.ite (.injectGo ..) (.onDev _ _))))

theorem writeDrill (s : State) (v : Nat) : Made s (s.writeDrill v) :=
  (onDev s _).trans (.ite (.refl _) (.ite (.drillGo ..) (.onDev _ _)))

/-- The effect of a register write, in the order of `State.writeReg`: the registers that reach more than their block stand apart. -/
theorem writeReg (s : State) (a : Nat) (w : Word) : Made s (s.writeReg a w) := by
  have block (f : Dev → Dev) : Made s (s.onDev f) := .onDev s f
  have controls (f : Dev → Dev) (nonzero : Bool) : Made s ((s.onDev f).control nonzero) := (onDev s f).trans (.control _ _)
  have power : Made s (s.writePwrReq w.toNat) := (onDev s _).trans (.ite (.request _ _) (.refl _))
  exact .ite (block _) <| .ite power <| .ite (blocks rfl) <| .ite (block _) <| .ite (block _) <| .ite (block _) <| .ite (block _) <|
    .ite (block _) <| .ite (block _) <| .ite (block _) <| .ite (.secCommand s _ _) <| .ite (block _) <| .ite (block _) <|
    .ite (block _) <| .ite (block _) <| .ite (controls _ _) <| .ite (controls _ _) <| .ite (controls _ _) <| .ite (controls _ _) <|
    .ite (block _) <| .ite (.writeInject s _) <| .ite (.writeDrill s _) (.refl s)

theorem readNow (s : State) : Made s s.readNow := .ite (.onDev s _) (.onDev s _)

theorem portDo (s : State) (op : PortOp) : Made s (s.portDo op) := by
  cases op with
  | pointer a => exact blocks rfl
  | write a w crc => exact .ite ((onDev s _).trans (.ite (.writeReg ..) (.refl _))) (.onDev s _)
  | bad => exact blocks rfl
  | read => exact .readNow s
  | mapRead ecc => exact (readNow s).thenDev _

theorem portOp (s : State) (op : PortOp) : Made s (s.portOp op) := .ite (.refl s) (.ite (.onDev s _) (.portDo s op))

theorem portGo (s : State) : Made s s.portGo := (onDev s _).trans (.foldl portDo _ _)

theorem readAt (s : State) (a : BitVec 16) : Made s (s.readAt a) := (portOp ..).trans (.portOp ..)

theorem portBytes (s : State) (bs : Bytes) : Made s (s.portBytes bs) := by
  unfold State.portBytes
  split
  · exact .portOp ..
  · exact .portOp ..
  · exact .portOp ..

/-! ### Frames and the session -/

theorem frameIn (s : State) (f : Bytes) (want : Nat) (k : Dev → Bytes → Dev) : Made s (s.frameIn f want k) := by
  refine .ite (.refl s) ?_
  split
  · exact .onDev s _
  · exact .ite (.onDev s _) (.refl s)
  · exact .ite (.refl s) (.onDev s _)

theorem sendNumbered (s : State) (ty len : Nat) (fields payload : Bytes) : Made s (s.sendNumbered ty len fields payload) :=
  .blocks rfl

theorem sendPlain (s : State) (ty len : Nat) (fields payload : Bytes) : Made s (s.sendPlain ty len fields payload) :=
  .blocks rfl

theorem replyFrame (s t : State) : exec .replyFrame s = .next t → Made s t :=
  of_next <| .ite (.refl s) (.ite ((sendNumbered ..).thenDev _) ((sendPlain ..).thenDev _))

theorem sendLate (s : State) (k : Nat) (bs : Bytes) (bb : List BbufErr) : Made s (s.sendLate k bs bb) := by
  unfold State.sendLate
  exact ((onDev s _).trans (.sendNumbered ..)).thenDev _

theorem sendStats (s : State) : Made s s.sendStats := by
  unfold State.sendStats
  exact (sendNumbered ..).thenDev _

theorem sendDrive (s : State) (bb : List BbufErr) : Made s (s.sendDrive bb) := by
  unfold State.sendDrive
  exact ((onDev s _).trans (.sendNumbered ..)).thenDev _

theorem witnessFrame (s : State) (bb : List BbufErr) (t : State) : exec (.witnessFrame bb) s = .next t → Made s t := by
  refine of_next (.ite (.refl s) ?_)
  split
  · exact .sendLate ..
  · exact .ite (.sendStats s) (.sendDrive s bb)

theorem sendSession (s : State) (msg : Nat) (attempt : Byte) (payload : Bytes) :
    Made s (s.sendSession msg attempt payload) := .ite (.sendPlain ..) (.refl s)

theorem abortSession (s : State) (reason : Nat) (attempt : Byte) : Made s (s.abortSession reason attempt) :=
  (sendSession ..).thenDev _

theorem sessionIn {k : State → Bytes → State} (hk : ∀ s p, Made s (k s p)) (s : State) (f : Bytes) (msg : Nat) :
    Made s (s.sessionIn f msg k) := by
  refine .ite (.refl s) ?_
  split
  · exact .onDev s _
  · exact .ite ((onDev s _).trans (hk _ _)) (.refl s)
  · exact .refl s

theorem helloH (s : State) (f p : Bytes) : Made s (s.helloH f p) := by
  refine (onDev s _).trans (.ite (.abortSession ..) ?_)
  split
  · exact .abortSession ..
  · exact .ite (.abortSession ..) (.ite (.abortSession ..) ((sendSession ..).thenDev _))

theorem finishH (s : State) (f p : Bytes) : Made s (s.finishH f p) := by
  unfold State.finishH
  split
  · exact .refl s
  · exact .ite (.refl s) (.ite (.abortSession ..) ((sendSession ..).thenDev _))

/-! ### START and the loader -/

theorem slotInvalid (s : State) (sec why : Nat) : Made s (s.slotInvalid sec why) :=
  (onDev s _).trans (.ite (.onDev _ _) (blocks rfl))

theorem sectionInvalid (s : State) (id why : Nat) : Made s (s.sectionInvalid id why) :=
  .ite (.onDev s _) (.slotInvalid s id why)

/-- The pixel gains and the symbol store are written to layer memory (R245). -/
theorem takeEffect (s : State) (id : Nat) (p : Bytes) (hdr : List HdrErr) : Made s (s.takeEffect id p hdr) := by
  unfold State.takeEffect
  split
  · exact .foldl (fun u t => .ite (.refl u) (.safePasses u t hdr)) _ s
  · exact .onDev s _
  · exact .onDev s _
  · exact .onDev s _
  · exact .ite (.refl s) (.writeMem ..)
  · exact .onDev s _
  · exact (writeMem ..).thenDev _
  · exact .onDev s _
  · exact .refl s

theorem sectionVerified (s : State) (id : Nat) (stored : Bytes) (hdr : List HdrErr) :
    Made s (s.sectionVerified id stored hdr) := by
  refine .ite (.sectionInvalid ..) ?_
  split
  · exact .sectionInvalid ..
  · exact .ite ((afterDev (.takeEffect _ id _ hdr)).thenDev _) ((onDev s _).trans (.sectionInvalid ..))

theorem readFails (s : State) (slotB dir : Bool) : Made s (s.readFails slotB dir) := by
  unfold State.readFails
  split
  · exact .onDev s _
  · exact .slotInvalid ..
  · split
    · exact .refl s
    · exact .sectionInvalid ..
    · exact .refl s
  · exact .refl s

theorem readRecords (s : State) (recs : List (Nat × Bytes)) : Made s (s.readRecords recs) := .ite (.refl s) (.onDev s _)

theorem imageStep (s : State) (recs : List (Nat × Bytes)) (hdr : List HdrErr) : Made s (s.imageStep recs hdr) := by
  unfold State.imageStep
  refine thenDev ?_ _
  split
  · exact blocks rfl
  · exact .onDev s _

/-! ### Power requests -/

theorem pendingStart (s : State) : Made s s.pendingStart := by
  unfold State.pendingStart
  split
  · exact .ite (blocks rfl) (.refl s)
  · exact .refl s

/-! ### Transfers -/

/-- A write that is served writes its bytes at its address; a read writes none (R249). -/
theorem transfer (s : State) (c b : Nat) (r : Req) (ecc : Ecc) (levels : List Nat) :
    Made s (s.transfer c b r ecc levels) :=
  .ite (.write r.addr r.data rfl) (blocks rfl)

theorem memRequest (s : State) (op : MemOp) (t : State) : exec (.memRequest op) s = .next t → Made s t := by
  cases op with
  | read p a => exact of_next_or_fault (.onDev s _)
  | write p a data => exact of_next_or_fault (.onDev s _)
  | fww => exact of_next (.onDev s _)

theorem memTransferDone (s : State) (ch : Nat) (ready : BitVec 8) (ecc : Ecc) (levels : List Nat) (t : State) :
    exec (.memTransferDone ch ready ecc levels) s = .next t → Made s t := by
  refine of_next ((onDev s Dev.servePorts).trans (.ite (.refl _) (.ite (.onDev _ _) ?_)))
  split
  · exact .onDev _ _
  · split
    · exact .refl _
    · exact .transfer ..

/-! ### Every command but those that stand apart -/


theorem of_exec (c : Instr) (s t : State) (plain : standsApart c = false) : exec c s = .next t → Made s t := by
  have stays : Made s s := .refl s
  have block (f : Dev → Dev) : Made s (s.onDev f) := .onDev s f
  cases c
  -- the blocks change, and nothing besides
  case keeperRegisterCheck | dramTrainingDone | startSelftestDone | noCommit | syncInEdge | syncRealign | safeReadbackDue |
      linkThrottle | refclkLoss | refclkPresent | laneLock | laneLoss | detectTimeout | ftsA | trainATimeout | ftsB | trainBTimeout |
      backoffEnd | widthSet | widthAck | rewidthTimeout | restoreAttempt | restoreSet | releaseSet | vc0BufferFree | generationComplete |
      layer | sectorSet | symbolSet | commit | mode | blend | time | delayedCommitEntry | giveUp | standbyParityFault | selftestPass |
      selftestFail | resync | calPassEnd | eccWindow | pfwNFall | pgoodTimeout | pgoodLost | clockSwitch | resumptionBoundary |
      pinFilterChange | imgFetch | fallingEdgeMissing | restoreTimeout => exact of_next (block _)
  -- they change under a condition
  case retentionLost | startLeadingLight | syncInSample | handshakeTimeout | keeperMessage | consequenceWindowClose | keeperParity |
      lockoutExpiry | recordWritten | pgoodAssert => exact of_next (.ite (block _) stays)
  case startTimeZero | keyCheck | flashHeaderRead | refresh | retrain | fallbackCopyDone => exact of_next (.ite stays (block _))
  case decisionPoint => exact of_next (.ite (.ite (block _) stays) (.ite (block _) stays))
  case refreshDue => exact of_next (.ite stays (.ite (block _) (block _)))
  case pad | i2cBusTimeout => exact of_next stays
  -- the cells change beside them
  case periodicCheckpoint | pwmPeriodStart => exact of_next (.ite (.blocks rfl) stays)
  case powerOn | resetNAsserted | supplyFault | wakeTimeout | parkReached | wakeAddressMatch | wakePinEdge | secCommandDone | claimFused |
      rollbackFuse => cases plain
  -- START and the loader
  case flashReadRetry => exact of_next (.ite stays (.ite (block _) ((block _).trans (.readFails ..))))
  case signatureVerified => exact of_next (.ite stays (.ite (block _) (.slotInvalid s 15 5)))
  case sectionVerified =>
    refine of_next ?_
    split
    · exact stays
    · exact .ite stays (.ite (block _) (.ite stays (.sectionVerified ..)))
  case trimImageRestore => exact of_next (.ite stays ((readRecords s _).trans (.ite (.imageStep ..) (.refl _))))
  case tickZero => exact of_next (.ite stays (.ite (block _) ((tickCore s _).thenDev _)))
  -- the lamp frame, the array and the schedule
  case tick => exact of_next (.ite (.tickCore s _) stays)
  case limitTick => exact of_next (.ite ((block _).trans (.tickCore ..)) stays)
  case drivePulseSample => exact of_next (.drivePulse ..)
  case conversion => exact of_next (.conversion ..)
  case probeWindow => exact of_next (.probeWindow ..)
  case checkerWindow => exact of_next (.checkerWindow ..)
  case passApply => exact of_next (.endPass ..)
  case compose => exact of_next (.compose ..)
  case chainDrive => exact of_next (.chainDrive ..)
  case chainAux => exact of_next (.chainAux ..)
  case ledger => exact of_next (.ledgerEntry ..)
  case scan => exact of_next (.scan ..)
  case health => exact of_next (.health ..)
  case entryDeadline => exact of_next (.entryDeadline ..)
  case trimCommit => exact of_next (.trimCommit s)
  -- frames and the session
  case idleFrame => exact of_next ((block _).trans (.frameIn ..))
  case vc0Frame | vc1Frame => exact of_next (.frameIn ..)
  case replyFrame => exact replyFrame s t
  case witnessFrame bb => exact witnessFrame s bb t
  case helloH f => exact of_next (.sessionIn (fun u p => .helloH u f p) s f 1)
  case finishH f => exact of_next (.sessionIn (fun u p => .finishH u f p) s f 3)
  case abort f =>
    refine of_next (.sessionIn (fun u p => ?_) s f 6)
    split
    · exact .ite (.onDev u _) (.refl u)
    · exact .refl u
  case rekey => exact of_next (.ite ((sendSession ..).thenDev _) stays)
  case rekeyRepeat => exact of_next (.ite (.sendSession ..) stays)
  -- the Keeper, JTAG and the power requests
  case keeperTake => exact of_next (.ite (.keeperTake s) stays)
  case keepClockLoss => exact of_next (.ite ((setSafe s 0).thenDev _) stays)
  case keepClockResume => exact of_next (.ite (((causeKnown s).thenDev _).trans ((keepWake _).trans (.portGo _))) stays)
  case jtagInstruction => exact of_next (.ite stays ((block _).trans (.ite (.perturb _ true) (.refl _))))
  case pllLocked => exact of_next (.ite (block _) (.ite ((block _).trans (.keepWake _)) stays))
  case pendingRequestStart => exact of_next (.pendingStart s)
  -- the management port
  case clear1 | clear2 | keepHistSel | evtPendClear | cfgImgAddr | unlockService | unlockMaker | unlockVendor | claim | signStatus |
      levelRequest | parkRequest | creditHold | portDelay | commitDelay | tickJitter | inject | drill | pointerWrite =>
    exact of_next (.portOp s _)
  case cfgImgData | secCertData | ledgUtcHi => exact of_next (.readAt s _)
  case diagMapData => exact of_next ((portOp s _).trans (.portOp ..))
  case registerWrite => exact of_next (.portBytes s _)
  case registerRead r =>
    cases r with
    | none => exact of_next (.portOp s _)
    | some a => exact of_next (.readAt s a)
  -- requests to layer memory and their transfers
  case memRequest op => exact memRequest s op t
  case memTransferDone ch ready ecc levels => exact memTransferDone s ch ready ecc levels t

end Made

end Sys2Proof.Machine

/-! ## The latches that only a restart takes back (R321, R365, R371) -/

namespace Sys2Proof.Machine

/-- SAFE and the mark of a perturbation with what was recorded with it stand in `t` where they stand in `s`, and the access level is the
same. -/
structure LatchesHold (s t : State) : Prop where
  safe : s.lat.safe = true → t.lat.safe = true
  marked : s.lat.perturbed = true → t.lat.perturbed = true ∧ t.lat.pertLevel = s.lat.pertLevel ∧ t.lat.pertJtag = s.lat.pertJtag ∧
    t.lat.pertTick = s.lat.pertTick
  level : t.lat.level = s.lat.level

namespace LatchesHold

theorem of_lat {s t : State} (same : t.lat = s.lat) : LatchesHold s t := by
  refine ⟨?_, ?_, congrArg Latches.level same⟩
  · rw [same]
    exact id
  · rw [same]
    exact fun marked => ⟨marked, rfl, rfl, rfl⟩

theorem trans {a b c : State} (h : LatchesHold a b) (h' : LatchesHold b c) : LatchesHold a c := by
  refine ⟨fun safe => h'.safe (h.safe safe), fun marked => ?_, h'.level.trans h.level⟩
  obtain ⟨marked', level, jtag, tick⟩ := h.marked marked
  obtain ⟨marked'', level', jtag', tick'⟩ := h'.marked marked'
  exact ⟨marked'', level'.trans level, jtag'.trans jtag, tick'.trans tick⟩

theorem setSafe (s : State) (cause : Nat) : LatchesHold s (s.setSafe cause) := by
  refine ⟨fun _ => s.setSafe_safe cause, ?_, ?_⟩
  · rw [s.setSafe_lat cause]
    exact fun marked => ⟨marked, rfl, rfl, rfl⟩
  · rw [s.setSafe_lat cause]

/-- The first perturbation alone is recorded (R371). -/
theorem perturb (s : State) (jtag : Bool) : LatchesHold s (s.perturb jtag) := by
  cases marked : s.lat.perturbed with
  | true =>
    rw [State.perturb, if_pos marked]
    exact of_lat rfl
  | false =>
    have lat : (s.perturb jtag).lat = { s.lat with
        perturbed := true, pertLevel := s.lat.level, pertJtag := jtag, pertTick := s.dev.frm.tick } := by
      rw [State.perturb, if_neg (by rw [marked]; decide)]
      rfl
    refine ⟨?_, fun earlier => absurd (marked.symm.trans earlier) (by decide), ?_⟩
    · rw [lat]
      exact id
    · rw [lat]

theorem of_made {s t : State} (made : Made s t) : LatchesHold s t := by
  induction made with
  | refl s => exact of_lat rfl
  | trans _ _ h h' => exact h.trans h'
  | blocks same => exact of_lat (by rw [same])
  | write a bs same => exact of_lat (by rw [same])
  | setSafe s cause => exact setSafe s cause
  | perturb s jtag => exact perturb s jtag
  | causeKnown s => exact ⟨id, fun marked => ⟨marked, rfl, rfl, rfl⟩, rfl⟩

end LatchesHold

/-- `t` is what one of the causes of a restart answers. -/
def AnswersRestart (t : State) : Prop :=
  ∃ (u : State) (cause : Nat) (aon : Bool), t = u.restart cause ∨ t = u.powerOn ∨ t = u.resetPin ∨ t = u.supplyRestart aon

theorem State.beginWake_cases (s : State) (src : Nat) : AnswersRestart (s.beginWake src) ∨ (s.beginWake src).lat = s.lat := by
  unfold State.beginWake
  split
  · exact .inl ⟨s, 2, false, .inl rfl⟩
  · exact .inr rfl

theorem State.wakeEvent_cases (s : State) (src : Nat) : AnswersRestart (s.wakeEvent src) ∨ (s.wakeEvent src).lat = s.lat := by
  unfold State.wakeEvent
  split
  · exact .inr rfl
  · split
    · exact .inr rfl
    · exact .inr rfl
    · exact s.beginWake_cases src
    · exact .inr rfl

/-- PARK is reached, and a wake that was held begins (R416). -/
theorem State.parked_cases (s : State) (f : Dev → Dev) (src : Nat) :
    AnswersRestart (if src = 0 then s.onDev f else (s.onDev f).beginWake src) ∨
      (if src = 0 then s.onDev f else (s.onDev f).beginWake src).lat = s.lat := by
  split
  · exact .inr rfl
  · exact (s.onDev f).beginWake_cases src

/-- A cause of a restart answers one, or leaves the latches as they are. -/
theorem restart_or_same_lat {c : Instr} {s t : State} (restarts : isRestart c = true) (run : exec c s = .next t) :
    AnswersRestart t ∨ t.lat = s.lat := by
  cases c
  case powerOn =>
    cases run
    exact .inl ⟨s, 0, false, .inr (.inl rfl)⟩
  case resetNAsserted ns =>
    cases run
    split
    · exact .inl ⟨s, 1, false, .inr (.inr (.inl rfl))⟩
    · exact .inr rfl
  case supplyFault aon =>
    cases run
    split
    · exact .inr rfl
    · exact .inl ⟨s, 2, aon, .inr (.inr (.inr rfl))⟩
  case parkReached =>
    cases run
    split
    · exact State.parked_cases ..
    · exact .inr rfl
  case wakeAddressMatch =>
    cases run
    exact s.wakeEvent_cases 1
  case wakePinEdge pin =>
    cases run
    exact s.wakeEvent_cases _
  case wakeTimeout =>
    cases run
    split
    · exact .inl ⟨s, 3, false, .inl rfl⟩
    · exact .inr rfl
  all_goals cases restarts

/-- An unlock that succeeds raises the level to that of its command. -/
theorem State.unlockEnds_lat (s : State) (cmd res : Nat) :
    (s.unlockEnds cmd res).lat = if res = 1 then { s.lat with level := BitVec.ofNat 2 cmd } else s.lat := by
  unfold State.unlockEnds
  split
  · rfl
  · split <;> rfl

/-- An unlock for the level in force or a lower one does not succeed (R366, R373). -/
theorem State.secResult_ok {s : State} {j : SecJob} (ok : s.secResult j = 1) (claim : j.cmd ≠ 4) (sign : j.cmd ≠ 5) :
    s.lat.level.toNat < j.cmd := by
  rw [State.secResult, if_neg sign, if_neg claim] at ok
  by_contra low
  rw [if_pos (Nat.le_of_not_lt low)] at ok
  exact absurd ok (by decide)

/-- The end of a security command reaches the access level alone, which a command of SEC_AUTH does not lower (R365). -/
theorem State.secDone_lat (s : State) : s.secDone.lat = { s.lat with level := s.secDone.lat.level } ∧
    ((∀ j ∈ s.dev.sec.job, 1 ≤ j.cmd ∧ j.cmd ≤ 5) → s.lat.level ≤ s.secDone.lat.level) := by
  unfold State.secDone
  split
  · exact ⟨rfl, fun _ => BitVec.le_refl _⟩
  · next j job =>
    dsimp only
    split
    · exact ⟨rfl, fun _ => BitVec.le_refl _⟩
    · split
      · split <;> exact ⟨rfl, fun _ => BitVec.le_refl _⟩
      · next sign claim =>
        rw [State.unlockEnds_lat]
        split
        · next ok =>
          refine ⟨rfl, fun legal => ?_⟩
          have higher := s.secResult_ok ok claim sign
          obtain ⟨-, most⟩ := legal j job
          show s.lat.level ≤ BitVec.ofNat 2 j.cmd
          rw [BitVec.le_def, BitVec.toNat_ofNat]
          omega
        · exact ⟨rfl, fun _ => BitVec.le_refl _⟩

theorem State.request_refused {s : State} {n code : Nat} (refused : s.refuser n = code) (some : code ≠ 0) :
    s.request n = s.onDev (fun d => d.refuseReq code n) := by
  subst refused
  exact if_pos some

/-- Under SAFE a PARK request is refused, before any other check (R321, R413). -/
theorem State.writePwrReq_park_safe {s : State} (safe : s.lat.safe = true) :
    s.writePwrReq 4 = s.onDev (fun d => (d.onPwr (fun p => { p with target := 4 })).refuseReq 1 4) :=
  State.request_refused (s := s.onDev (fun d => d.onPwr (fun p => { p with target := 4 }))) (if_pos safe) (by decide)

end Sys2Proof.Machine

namespace Sys2Proof.Proofs

open Sys2Proof Sys2Proof.Machine Sys2Proof.Claims

theorem execRollbackFuse_lat {s t : State} (run : exec .rollbackFuse s = .next t) : t.lat = s.lat := by
  change execRollbackFuse s = .next t at run
  unfold execRollbackFuse at run
  dsimp only at run
  split at run
  · cases run
    rfl
  · cases run
    rfl

/-- Of the commands that stand apart, the fusing of OTP leaves the latches as they are. -/
theorem holds_of_noRestart {c : Instr} {s t : State} (plain : isRestart c = false) (run : exec c s = .next t) :
    (s.lat.safe = true → t.lat.safe = true) ∧
    (s.lat.perturbed = true → t.lat.perturbed = true ∧ t.lat.pertLevel = s.lat.pertLevel ∧ t.lat.pertJtag = s.lat.pertJtag ∧
      t.lat.pertTick = s.lat.pertTick) ∧
    ((∀ j ∈ s.dev.sec.job, 1 ≤ j.cmd ∧ j.cmd ≤ 5) → s.lat.level ≤ t.lat.level) := by
  have holds {u : State} (h : LatchesHold s u) := And.intro h.safe (And.intro h.marked
    fun _ : ∀ j ∈ s.dev.sec.job, 1 ≤ j.cmd ∧ j.cmd ≤ 5 => BitVec.le_of_eq h.level.symm)
  cases apart : standsApart c with
  | false => exact holds (.of_made (.of_exec c s t apart run))
  | true =>
    cases c
    case secCommandDone =>
      cases run
      split
      · obtain ⟨lat, level⟩ := s.secDone_lat
        rw [lat]
        exact ⟨id, fun marked => ⟨marked, rfl, rfl, rfl⟩, level⟩
      · exact holds (.of_lat rfl)
    case claimFused =>
      cases run
      exact holds (.of_lat (by split <;> rfl))
    case rollbackFuse => exact holds (.of_lat (execRollbackFuse_lat run))
    case powerOn | resetNAsserted | supplyFault | wakeTimeout | parkReached | wakeAddressMatch | wakePinEdge => cases plain
    all_goals cases apart

/-- Settles O8: a command that is no restart is made of changes under which the latches hold, or ends a security command, which raises the
level if anything; and SAFE is the first check of a request. -/
theorem latchesHoldUntilRestart : Obligations.LatchesHoldUntilRestart := by
  refine ⟨fun c s t run => ?_, fun s crc ok safe => ?_⟩
  · cases restarts : isRestart c with
    | false => exact .inr (holds_of_noRestart restarts run)
    | true =>
      rcases restart_or_same_lat restarts run with answers | same
      · exact .inl ⟨rfl, answers⟩
      · refine .inr ?_
        rw [same]
        exact ⟨id, fun marked => ⟨marked, rfl, rfl, rfl⟩, fun _ => BitVec.le_refl _⟩
  · exact next_portWrite rfl ok (State.writePwrReq_park_safe safe) ⟨⟨rfl, rfl, rfl, rfl, rfl⟩, raises_of_evt (by decide) rfl, rfl⟩

end Sys2Proof.Proofs

/-! ## Clearing the uncleared faults (R312, R314, R321) -/

namespace Sys2Proof.Machine

/-- Severities 1 (`one`) and 2 (`two`) as a mask of the holds. -/
def clearMask (one two : Bool) : BitVec 4 := (if one then 2 else 0) ||| (if two then 4 else 0)

/-- The Keeper with the marks and holds of the cleared severities down, before KEEP_FIRST follows. -/
def Keep.marksCleared (k : Keep) (one two : Bool) : Keep :=
  { k with
    unc1 := k.unc1 && !one, unc2 := k.unc2 && !two
    dip := k.dip &&& ~~~(clearMask one two), standalone := k.standalone &&& ~~~(clearMask one two) }

/-- The Keeper after a clear: without an uncleared fault and without SAFE the first fault is released. -/
def Keep.cleared (k : Keep) (safe one two : Bool) : Keep :=
  let c := k.marksCleared one two
  if (one || two) && !c.uncleared && !safe then { c with first := none } else c

theorem State.keepClear_eq (s : State) (one two : Bool) : s.keepClear one two = s.onDev (fun d =>
    ({ d with keep := s.dev.keep.cleared s.lat.safe one two } : Dev).raiseIf
      ((one && s.dev.keep.unc1) || (two && s.dev.keep.unc2)) 13) := rfl

theorem and_not_clearMask (one two : Bool) (x : BitVec 4) :
    x &&& ~~~(clearMask one two) = x &&& (if one then 0xD else 0xF) &&& (if two then 0xB else 0xF) := by
  revert one two x
  decide

theorem Keep.cleared_spec (k : Keep) (safe one two : Bool) : Claims.Cleared k (k.cleared safe one two) one two := by
  have dip := and_not_clearMask one two k.dip
  have standalone := and_not_clearMask one two k.standalone
  unfold Keep.cleared
  dsimp only
  split <;> exact ⟨rfl, rfl, rfl, dip, standalone, rfl⟩

/-- After SAFE the first fault stays (R312). -/
theorem Keep.cleared_first (k : Keep) (one two : Bool) : (k.cleared true one two).first = k.first := by
  rw [Keep.cleared, Bool.not_true, Bool.and_false]
  rfl

end Sys2Proof.Machine

namespace Sys2Proof.Proofs

open Sys2Proof Sys2Proof.Machine Sys2Proof.Claims

/-- An accepted write of KEEP_CLEAR clears the severities that its bits name; `fell` says whether a mark stood. -/
theorem clear_acts {c : Instr} {s : State} {w : Word} {crc : Byte} {one two fell : Bool} (ok : WriteOk s 0x0810 w crc)
    (run : exec c s = .next (s.portWrite 0x0810 w crc)) (bit1 : bit w.toNat 0 = one) (bit2 : bit w.toNat 1 = two)
    (falls : (one && s.dev.keep.unc1 || two && s.dev.keep.unc2) = fell) : Next c s (fun t => SameStore s t ∧
      Cleared s.dev.keep t.dev.keep one two ∧ Raises s t (if fell then [13] else []) ∧
      (s.lat.safe = true → t.dev.keep.first = s.dev.keep.first) ∧
      t.dev = { (written s 0x0810).dev with keep := t.dev.keep, evt := t.dev.evt }) := by
  have stores : (written s 0x0810).writeReg 0x0810 w = (written s 0x0810).onDev (fun d =>
      ({ d with keep := s.dev.keep.cleared s.lat.safe one two } : Dev).raiseIf fell 13) := by
    subst bit1 bit2 falls
    rfl
  have cleared := s.dev.keep.cleared_spec s.lat.safe one two
  have first : s.lat.safe = true → (s.dev.keep.cleared s.lat.safe one two).first = s.dev.keep.first :=
    fun safe => by rw [safe, Keep.cleared_first]
  refine next_portWrite run ok stores ⟨⟨rfl, rfl, rfl, rfl, rfl⟩, ?_⟩
  cases fell with
  | true => exact ⟨cleared, raises_one rfl rfl, first, rfl⟩
  | false => exact ⟨cleared, raises_of_evt nofun rfl, first, rfl⟩

/-- Settles O31: each is a write of KEEP_CLEAR with the bit of its severity. -/
theorem clearsActOnTheirSeverity : Obligations.ClearsActOnTheirSeverity :=
  fun _ _ => ⟨fun ok => clear_acts ok rfl rfl rfl (Bool.or_false _), fun ok => clear_acts ok rfl rfl rfl rfl⟩

end Sys2Proof.Proofs

/-! ## The Keeper takes a message (R300 to R322)

What logging a message, each reaction and the SAFE latch reach, as one relation each; a take of one message is then a chain of them. -/

namespace Sys2Proof.Machine

/-! ### Events -/

/-- Events are raised, and KEEP_SAFE is none of them. -/
structure QuietEvents (e e' : Evt) : Prop where
  keeps : ∀ k, e.pend.getLsbD k = true → e'.pend.getLsbD k = true
  noSafe : e'.pend.getLsbD 11 = e.pend.getLsbD 11

namespace QuietEvents

theorem refl (e : Evt) : QuietEvents e e := ⟨fun _ h => h, rfl⟩

theorem trans {a b c : Evt} (h : QuietEvents a b) (h' : QuietEvents b c) : QuietEvents a c :=
  ⟨fun k hk => h'.keeps k (h.keeps k hk), h'.noSafe.trans h.noSafe⟩

theorem raise (e : Evt) {n : Nat} (other : n ≠ 11) : QuietEvents e (e.raise n) := by
  refine ⟨fun k hk => e.raise_keeps n k hk, ?_⟩
  rw [Evt.raise_pend, decide_eq_false (Ne.symm other), Bool.false_and, Bool.or_false]

end QuietEvents

/-! ### Pixels are isolated and tied (R289 to R292) -/

theorem Dev.pix_onPix (d : Dev) (p q : Nat) (f : Pix → Pix) : (d.onPix p f).pix q = if q = p then f (d.pix p) else d.pix q :=
  SMap.get_upd ..

/-- What isolating and tying pixels reaches: pixel diagnostics, needs of tiles, windows and events. -/
structure PixelStep (d d' : Dev) : Prop where
  frame : d' = { d with diag := d'.diag, evt := d'.evt, tiles := d'.tiles, keep := { d.keep with windows := d'.keep.windows } }
  dark : ∀ t, (d'.tile t).dark = (d.tile t).dark
  quiet : QuietEvents d.evt d'.evt
  windows : ∀ w ∈ d.keep.windows, w ∈ d'.keep.windows

namespace PixelStep

theorem refl (d : Dev) : PixelStep d d := ⟨rfl, fun _ => rfl, .refl _, fun _ h => h⟩

theorem trans {a b c : Dev} (h : PixelStep a b) (h' : PixelStep b c) : PixelStep a c :=
  ⟨by rw [h'.frame, h.frame], fun t => (h'.dark t).trans (h.dark t), h.quiet.trans h'.quiet, fun w hw => h'.windows w (h.windows w hw)⟩

theorem ite {c : Prop} [Decidable c] {d a b : Dev} (ha : PixelStep d a) (hb : PixelStep d b) : PixelStep d (if c then a else b) := by
  split
  · exact ha
  · exact hb

theorem onDiag (d : Dev) (f : Diag → Diag) : PixelStep d (d.onDiag f) := ⟨rfl, fun _ => rfl, .refl _, fun _ h => h⟩

theorem onPix (d : Dev) (p : Nat) (f : Pix → Pix) : PixelStep d (d.onPix p f) := ⟨rfl, fun _ => rfl, .refl _, fun _ h => h⟩

theorem raise (d : Dev) {n : Nat} (other : n ≠ 11) : PixelStep d (d.raise n) := ⟨rfl, fun _ => rfl, .raise _ other, fun _ h => h⟩

theorem openWindow (d : Dev) (w : Window) : PixelStep d (d.openWindow w) :=
  ⟨rfl, fun _ => rfl, .refl _, fun _ h => List.mem_append_left _ h⟩

theorem needIsolate (d : Dev) (p : Nat) : PixelStep d (d.needIsolate p) := by
  refine ⟨rfl, fun t => ?_, .refl _, fun _ h => h⟩
  rw [Dev.needIsolate, Dev.tile_onTile]
  split
  · next own => rw [own]
  · rfl

theorem setIsolated (d : Dev) (p cls : Nat) : PixelStep d (d.setIsolated p cls) := by
  have event : (if cls = 1 then 80 else 81) ≠ 11 := by split <;> decide
  unfold Dev.setIsolated
  exact (((onPix d p _).trans (onDiag _ _)).trans (raise _ event)).trans (needIsolate _ p)

theorem isolate (d : Dev) (p cls : Nat) : PixelStep d (d.isolate p cls) := by
  refine .ite (refl d) ?_
  split
  · exact ((onDiag d _).trans (setIsolated _ p cls)).trans (setIsolated _ _ cls)
  · exact setIsolated d p cls

theorem tie (d : Dev) (p q : Nat) (v : Bool) : PixelStep d (d.tie p q v) :=
  .ite ((((onPix d p _).trans (onPix _ q _)).trans (onDiag _ _)).trans (raise _ (n := 82) (by decide)))
    ((((isolate d p 2).trans (isolate _ q 2)).trans (onDiag _ _)).trans (raise _ (n := 83) (by decide)))

theorem reactIsolate (d : Dev) (m : Msg) : PixelStep d (d.reactIsolate m) := by
  refine .ite (refl d) (.ite (.ite (refl d) ((isolate ..).trans (openWindow ..))) (.ite ?_ (refl d)))
  split
  · refine .ite (refl d) ?_
    exact ((((isolate d _ 2).trans (isolate _ _ 2)).trans (onDiag _ _)).trans (raise _ (n := 83) (by decide))).trans (openWindow ..)
  · exact refl d

theorem reactTie (d : Dev) (m : Msg) : PixelStep d (d.reactTie m) := by
  refine .ite ?_ (refl d)
  split
  · exact .ite ((tie ..).trans (openWindow ..)) (refl d)
  · exact refl d

end PixelStep

theorem Dev.setIsolated_cls (d : Dev) (p cls : Nat) : ((d.setIsolated p cls).pix p).cls = cls :=
  congrArg Pix.cls ((d.pix_onPix p p (fun x => { x with cls := cls, pending := 0, confirmed := 0 })).trans (if_pos rfl))

theorem Dev.setIsolated_other (d : Dev) {p q : Nat} (cls : Nat) (other : q ≠ p) : (d.setIsolated p cls).pix q = d.pix q :=
  (d.pix_onPix p q (fun x => { x with cls := cls, pending := 0, confirmed := 0 })).trans (if_neg other)

/-- The partner of a tied pixel is another pixel. -/
theorem Dev.partner_ne {d : Dev} {p q : Nat} (tied : d.partner p = some q) : p ≠ q := by
  unfold Dev.partner at tied
  split at tied
  · next e found =>
    have names := List.find?_some found
    simp only [Option.some.injEq, Bool.or_eq_true, beq_iff_eq] at tied names
    split at tied
    · subst tied
      split <;> omega
    · omega
  · cases tied

/-- A pixel that is not isolated takes its class, and its partner with it (R291). -/
theorem Dev.isolate_pix {d : Dev} {p cls : Nat} (fresh : (d.pix p).isolated = false) : ((d.isolate p cls).pix p).cls = cls ∧
    ∀ q, d.partner p = some q → ((d.isolate p cls).pix q).cls = cls := by
  rw [Dev.isolate, fresh]
  cases tied : d.partner p with
  | none => exact ⟨d.setIsolated_cls p cls, nofun⟩
  | some r =>
    refine ⟨(congrArg Pix.cls (Dev.setIsolated_other _ cls (Dev.partner_ne tied))).trans (Dev.setIsolated_cls ..), fun q own => ?_⟩
    cases own
    exact Dev.setIsolated_cls ..

end Sys2Proof.Machine


namespace Sys2Proof.Machine

theorem Dev.tie_ties {d : Dev} {p q : Nat} {v : Bool} (room : d.diag.ties.length < 4096) (ne : p ≠ q) :
    ((d.tie p q v).pix p).cls = 3 ∧ ((d.tie p q v).pix q).cls = 3 ∧ (d.tie p q v).diag.ties = d.diag.ties ++ [(p, v)] ∧
      (d.tie p q v).evt.pend.getLsbD 82 = true := by
  have tied : d.tie p q v = (((d.onPix p (fun x => { x with cls := 3 })).onPix q (fun x => { x with cls := 3 })).onDiag
      (fun g => { g with ties := g.ties ++ [(p, v)], lastPixel := q, lastClass := 3 })).raise 82 := if_pos room
  have lower : (((d.onPix p (fun x => { x with cls := 3 })).onPix q (fun x => { x with cls := 3 })).pix p).cls = 3 := by
    rw [Dev.pix_onPix, if_neg ne, Dev.pix_onPix, if_pos rfl]
  have upper : (((d.onPix p (fun x => { x with cls := 3 })).onPix q (fun x => { x with cls := 3 })).pix q).cls = 3 := by
    rw [Dev.pix_onPix, if_pos rfl]
  rw [tied]
  exact ⟨lower, upper, rfl, Evt.raise_self _ 82 rfl⟩

theorem pairOf_ne {addr p q : Nat} {v : Bool} (pair : pairOf addr = some (p, q, v)) : p ≠ q := by
  unfold pairOf at pair
  dsimp only at pair
  split at pair
  · cases pair
  · split at pair <;> split at pair <;> cases pair <;> omega

/-- ISOLATE_PIXEL isolates the pixel that a tile's message of an open, a short or an unresolved short names (R306). -/
theorem Dev.reactIsolate_isolates {d : Dev} {m : Msg} (kind : m.kind = 0x09 ∨ m.kind = 0x0A ∨ m.kind = 0x0C)
    (tile : srcTile m.source.toNat = true) (inside : bits m.addr.toNat 0 21 < nPixels)
    (own : tileOf (bits m.addr.toNat 0 21) = m.source.toNat) (fresh : (d.pix (bits m.addr.toNat 0 21)).isolated = false) :
    ∃ w, d.reactIsolate m = (d.isolate (bits m.addr.toNat 0 21) (if m.kind = 0x09 then 1 else 2)).openWindow w := by
  have codes : m.kind.toNat = 0x09 ∨ m.kind.toNat = 0x0A ∨ m.kind.toNat = 0x0C := by
    rcases kind with h | h | h <;> rw [h] <;> decide
  have cls : (if m.kind.toNat = 0x09 then 1 else 2) = (if m.kind = 0x09 then 1 else 2 : Nat) :=
    if_congr (BitVec.toNat_inj (y := 0x09)) rfl rfl
  unfold Dev.reactIsolate
  dsimp only
  rw [if_neg (by rw [tile]; decide), if_pos codes, if_neg (by simp [own, fresh, inside]), cls]
  exact ⟨_, rfl⟩

theorem Dev.reactIsolate_other {d : Dev} {m : Msg} (kind : m.kind = 0x0B) : d.reactIsolate m = d := by
  unfold Dev.reactIsolate
  rw [kind]
  exact ite_self d

theorem Dev.reactTie_other {d : Dev} {m : Msg} (kind : m.kind ≠ 0x0B) : d.reactTie m = d := if_neg kind

theorem Dev.reactTie_ties {d : Dev} {m : Msg} {p q : Nat} {v : Bool} (kind : m.kind = 0x0B)
    (pair : pairOf m.addr.toNat = some (p, q, v)) (own : tileOf p = m.source.toNat) (good : (d.pix p).cls = 0)
    (good' : (d.pix q).cls = 0) : d.reactTie m = (d.tie p q v).openWindow (.pixels [p, q] [tileOf p, tileOf q]) := by
  rw [Dev.reactTie, if_pos kind, pair]
  exact if_pos ⟨own, good, good'⟩

/-! ### Tiles become dark and units give up (R306, R307, R328) -/

/-- What darkening a tile and a give-up reach; a tile once dark or excluded stays so. -/
structure ChangerStep (d d' : Dev) : Prop where
  frame : d' = { d with
    evt := d'.evt, tiles := d'.tiles, arr := d'.arr, frm := d'.frm, comp := d'.comp, wit := d'.wit, cal := d'.cal, chg := d'.chg
    keep := { d.keep with windows := d'.keep.windows, direct := d'.keep.direct } }
  dark : ∀ t, (d.tile t).dark = true → (d'.tile t).dark = true
  excluded : ∀ t, (d.tile t).excluded = true → (d'.tile t).excluded = true
  quiet : QuietEvents d.evt d'.evt
  windows : ∀ w ∈ d.keep.windows, w ∈ d'.keep.windows

namespace ChangerStep

theorem refl (d : Dev) : ChangerStep d d := ⟨rfl, fun _ h => h, fun _ h => h, .refl _, fun _ h => h⟩

theorem trans {a b c : Dev} (h : ChangerStep a b) (h' : ChangerStep b c) : ChangerStep a c :=
  ⟨by rw [h'.frame, h.frame], fun t ht => h'.dark t (h.dark t ht), fun t ht => h'.excluded t (h.excluded t ht),
    h.quiet.trans h'.quiet, fun w hw => h'.windows w (h.windows w hw)⟩

theorem ite {c : Prop} [Decidable c] {d a b : Dev} (ha : ChangerStep d a) (hb : ChangerStep d b) :
    ChangerStep d (if c then a else b) := by
  split
  · exact ha
  · exact hb

theorem foldl {α : Type} {f : Dev → α → Dev} (hf : ∀ d x, ChangerStep d (f d x)) (xs : List α) (d : Dev) :
    ChangerStep d (xs.foldl f d) :=
  List.foldlRecOn xs f (motive := fun e => ChangerStep d e) (refl d) (fun _ h x _ => h.trans (hf _ x))

theorem of_frame {d d' : Dev} (frame : d' = { d with
    arr := d'.arr, frm := d'.frm, comp := d'.comp, wit := d'.wit, cal := d'.cal, chg := d'.chg
    keep := { d.keep with direct := d'.keep.direct } }) : ChangerStep d d' := by
  have tiles (t : Nat) : d'.tile t = d.tile t := by
    rw [frame]
    rfl
  refine ⟨?_, fun t h => ?_, fun t h => ?_, ?_, ?_⟩
  · rw [frame]
  · rw [tiles, h]
  · rw [tiles, h]
  · rw [frame]
    exact .refl _
  · rw [frame]
    exact fun _ h => h

theorem onArr (d : Dev) (f : Arr → Arr) : ChangerStep d (d.onArr f) := of_frame rfl
theorem onFrm (d : Dev) (f : Frm → Frm) : ChangerStep d (d.onFrm f) := of_frame rfl
theorem onComp (d : Dev) (f : Comp → Comp) : ChangerStep d (d.onComp f) := of_frame rfl
theorem onWit (d : Dev) (f : Wit → Wit) : ChangerStep d (d.onWit f) := of_frame rfl
theorem onCal (d : Dev) (f : Cal → Cal) : ChangerStep d (d.onCal f) := of_frame rfl
theorem onChg (d : Dev) (f : Chg → Chg) : ChangerStep d (d.onChg f) := of_frame rfl
theorem sendDirect (d : Dev) (source kind sev addr : Nat) : ChangerStep d (d.sendDirect source kind sev addr) := of_frame rfl

theorem raise (d : Dev) {n : Nat} (other : n ≠ 11) : ChangerStep d (d.raise n) :=
  ⟨rfl, fun _ h => h, fun _ h => h, .raise _ other, fun _ h => h⟩

theorem openWindow (d : Dev) (w : Window) : ChangerStep d (d.openWindow w) :=
  ⟨rfl, fun _ h => h, fun _ h => h, .refl _, fun _ h => List.mem_append_left _ h⟩

theorem onTile (d : Dev) (t : Nat) (f : Tile → Tile) (dark : ∀ x : Tile, x.dark = true → (f x).dark = true)
    (excluded : ∀ x : Tile, x.excluded = true → (f x).excluded = true) : ChangerStep d (d.onTile t f) := by
  refine ⟨rfl, fun i hi => ?_, fun i hi => ?_, .refl _, fun _ h => h⟩
  · rw [Dev.tile_onTile]
    split
    · next own => exact dark _ (own ▸ hi)
    · exact hi
  · rw [Dev.tile_onTile]
    split
    · next own => exact excluded _ (own ▸ hi)
    · exact hi

theorem clearDrive (d : Dev) : ChangerStep d d.clearDrive := by
  have frame : d.clearDrive = { d with tiles := d.clearDrive.tiles } := by
    unfold Dev.clearDrive Dev.onTiles
    generalize SMap.updAll ({} : Tile) _ _ _ = ts
    rfl
  have tile (i : Nat) : (d.clearDrive.tile i).dark = (d.tile i).dark ∧ (d.clearDrive.tile i).excluded = (d.tile i).excluded := by
    by_cases lt : i < 192
    · rw [Dev.clearDrive, Dev.tile_onTiles _ _ lt]
      exact ⟨rfl, rfl⟩
    · rw [Dev.clearDrive, Dev.tile_onTiles_out _ _ lt]
      exact ⟨rfl, rfl⟩
  refine ⟨?_, fun i hi => (tile i).1.trans hi, fun i hi => (tile i).2.trans hi, ?_, ?_⟩
  · rw [frame]
  · rw [frame]
    exact .refl _
  · rw [frame]
    exact fun _ h => h

theorem countCut (d : Dev) (p : Pass) : ChangerStep d ((d.onTile p.tile (fun x => x.countCut p.purpose)).countFail) := by
  have kept (x : Tile) : (x.countCut p.purpose).dark = x.dark ∧ (x.countCut p.purpose).excluded = x.excluded := by
    unfold Tile.countCut
    dsimp only
    split <;> exact ⟨rfl, rfl⟩
  exact (onTile d _ _ (fun x h => (kept x).1.trans h) (fun x h => (kept x).2.trans h)).trans (onArr _ _)

theorem abandonPasses (d : Dev) : ChangerStep d d.abandonPasses := (onArr d _).trans (foldl countCut _ _)

theorem exclude (d : Dev) (t : Nat) : ChangerStep d (d.exclude t) :=
  .ite (refl d) ((onTile d t (fun x => { x with excluded := true }) (fun _ h => h) (fun _ _ => rfl)).trans (raise _ (n := 16) (by decide)))

theorem roundCheck (d : Dev) : ChangerStep d d.roundCheck := .ite (onArr d _) (refl d)

theorem darken (d : Dev) (t : Nat) : ChangerStep d (d.darken t) := by
  refine .ite (refl d) ?_
  have stopped : ChangerStep d (d.stopPasses t) := (onFrm d _).trans (onArr _ _)
  have marked := stopped.trans (onTile _ t
    (fun x => { x with dark := true, repeated := false, readDue := 0, isoDue := 0, trimDue := 0 }) (fun _ _ => rfl) (fun _ h => h))
  have ended (e : Dev) : ChangerStep e (e.chainEnded (t / 24)) := of_frame rfl
  exact ((((marked.trans (exclude _ t)).trans (raise _ (n := 79) (by decide))).trans (ended _)).trans (roundCheck _)).trans (onArr _ _)

theorem countGiveUp (d : Dev) (u : UnitRef) : ChangerStep d (d.countGiveUp u) :=
  .ite (((onChg d _).trans (sendDirect ..)).trans (raise _ (n := 101) (by decide))) (onChg d _)

theorem leaveService (d : Dev) (u : UnitRef) (cause : Nat) : ChangerStep d (d.leaveService u cause) :=
  .ite (onChg d _) ((onChg d _).trans (countGiveUp _ u))

theorem giveUpRecorded (d : Dev) (u : UnitRef) (cause : Nat) (ok : Bool) : ChangerStep d (d.giveUpRecorded u cause ok) := by
  cases u <;> exact of_frame rfl

theorem engineTakeover (d : Dev) (b : Bool) : ChangerStep d (d.engineTakeover b) :=
  .ite (refl d) ((((((((clearDrive d).trans (abandonPasses _)).trans (onComp _ _)).trans (onFrm _ _)).trans (onWit _ _)).trans
    (onChg _ _)).trans (raise _ (n := 71) (by decide))).trans (raise _ (n := 102) (by decide)))

theorem takeover (d : Dev) (u : UnitRef) : ChangerStep d (d.takeover u) := by
  cases u with
  | engine b => exact engineTakeover d (!b)
  | timebase b => exact refl d
  | tileRef t b =>
    have selected := onTile d t (fun x => { x with refSel := !b }) (fun _ h => h) (fun _ h => h)
    exact (selected.trans (onCal _ _)).trans (raise _ (n := 94) (by decide))

theorem giveUpAgain (d : Dev) (u : UnitRef) (cause : Nat) : ChangerStep d (d.giveUpAgain u cause) := by
  have again (e : Dev) (f : Keep → List Msg) : ChangerStep e (e.onKeep (fun k => { k with direct := f k })) :=
    of_frame rfl
  unfold Dev.giveUpAgain
  split
  · exact .ite (((again d _).trans (onChg _ _)).trans (.ite (countGiveUp _ u) (refl _))) (refl d)
  · exact refl d

theorem giveUp (d : Dev) (safe : Bool) (u : UnitRef) (cause : Nat) : ChangerStep d (d.giveUp safe u cause) := by
  have recorded := giveUpRecorded d u cause (d.chg.is (unitPartner u) .standby)
  have clamp (e : Dev) (t : Nat) : ChangerStep e (e.clampTile t) := (darken e t).trans (onChg _ _)
  refine .ite (refl d) (.ite (giveUpAgain d u cause) (.ite ((onChg d _).trans (sendDirect ..)) ?_))
  have left := recorded.trans (leaveService _ u cause)
  refine .ite ((left.trans ((onChg _ _).trans (raise _ (n := 96) (by decide)))).trans (takeover _ u)) ?_
  have failed := (left.trans (sendDirect _ (unitSource u) 0x11 (if unitCentral u then 3 else 1) 0)).trans (raise _ (n := 97) (by decide))
  cases u with
  | engine b => exact failed
  | timebase b => exact failed
  | tileRef t b => exact .ite (failed.trans (clamp _ t)) failed

theorem reactDark (d : Dev) (m : Msg) : ChangerStep d (d.reactDark m) :=
  .ite (.ite (((darken d _).trans (openWindow ..)).trans (onChg _ _)) ((darken d _).trans (openWindow ..))) (refl d)

theorem reactGiveUp (d : Dev) (m : Msg) : ChangerStep d (d.reactGiveUp m) := by
  unfold Dev.reactGiveUp
  split
  · refine .ite ?_ (giveUpAgain ..)
    dsimp only
    split
    · exact (giveUp ..).trans (openWindow ..)
    · exact giveUp ..
  · exact refl d

end ChangerStep

end Sys2Proof.Machine


namespace Sys2Proof.Machine

/-- What holding DIP and STANDALONE reaches. -/
structure BeamStep (d d' : Dev) : Prop where
  frame : d' = { d with
    evt := d'.evt
    keep := { d.keep with dip := d'.keep.dip, standalone := d'.keep.standalone, windows := d'.keep.windows } }
  quiet : QuietEvents d.evt d'.evt
  windows : ∀ w ∈ d.keep.windows, w ∈ d'.keep.windows

namespace BeamStep

theorem refl (d : Dev) : BeamStep d d := ⟨rfl, .refl _, fun _ h => h⟩

theorem trans {a b c : Dev} (h : BeamStep a b) (h' : BeamStep b c) : BeamStep a c :=
  ⟨by rw [h'.frame, h.frame], h.quiet.trans h'.quiet, fun w hw => h'.windows w (h.windows w hw)⟩

theorem ite {c : Prop} [Decidable c] {d a b : Dev} (ha : BeamStep d a) (hb : BeamStep d b) : BeamStep d (if c then a else b) := by
  split
  · exact ha
  · exact hb

theorem raise (d : Dev) {n : Nat} (other : n ≠ 11) : BeamStep d (d.raise n) := ⟨rfl, .raise _ other, fun _ h => h⟩

theorem openWindow (d : Dev) (w : Window) : BeamStep d (d.openWindow w) := ⟨rfl, .refl _, fun _ h => List.mem_append_left _ h⟩

theorem reactDip (d : Dev) (sev : Nat) : BeamStep d (d.reactDip sev) := by
  have held (e : Dev) : BeamStep e (e.onKeep (fun k => { k with dip := k.dip ||| (1#4 <<< sev) })) := ⟨rfl, .refl _, fun _ h => h⟩
  have raised : BeamStep d (d.raiseIf (!d.keep.dipHeld) 17) := .ite (raise d (by decide)) (refl d)
  exact (raised.trans (held _)).trans (openWindow ..)

theorem reactStandalone (d : Dev) (sev : Nat) : BeamStep d (d.reactStandalone sev) := by
  have held (e : Dev) : BeamStep e (e.onKeep (fun k => { k with standalone := k.standalone ||| (1#4 <<< sev) })) :=
    ⟨rfl, .refl _, fun _ h => h⟩
  have raised : BeamStep d (d.raiseIf (!d.keep.standaloneHeld) 18) := .ite (raise d (by decide)) (refl d)
  exact (raised.trans (held _)).trans (openWindow ..)

end BeamStep

theorem Dev.reactDip_dip (d : Dev) (sev : Nat) : (d.reactDip sev).keep.dip = d.keep.dip ||| (1#4 <<< sev) ∧
    (d.reactDip sev).keep.standalone = d.keep.standalone ∧
    (d.keep.dipHeld = false → (d.reactDip sev).evt.pend.getLsbD 17 = true) := by
  have keep : (d.raiseIf (!d.keep.dipHeld) 17).keep = d.keep := d.raiseIf_keep ..
  unfold Dev.reactDip
  rw [Dev.openWindow, Dev.onKeep_keep, Dev.onKeep_keep, keep]
  refine ⟨rfl, rfl, fun free => ?_⟩
  rw [free]
  exact Evt.raise_self _ 17 rfl

theorem Dev.reactStandalone_standalone (d : Dev) (sev : Nat) :
    (d.reactStandalone sev).keep.standalone = d.keep.standalone ||| (1#4 <<< sev) ∧
    (d.reactStandalone sev).keep.dip = d.keep.dip ∧
    (d.keep.standaloneHeld = false → (d.reactStandalone sev).evt.pend.getLsbD 18 = true) := by
  have keep : (d.raiseIf (!d.keep.standaloneHeld) 18).keep = d.keep := d.raiseIf_keep ..
  unfold Dev.reactStandalone
  rw [Dev.openWindow, Dev.onKeep_keep, Dev.onKeep_keep, keep]
  refine ⟨rfl, rfl, fun free => ?_⟩
  rw [free]
  exact Evt.raise_self _ 18 rfl

/-! ### The reactions in their order (R306) -/

/-- The blocks once the reactions on pixels have acted. -/
def Dev.pixelsReact (d : Dev) (c : Class) : Dev :=
  let d := if bit c.react 3 then d.reactIsolate c.msg else d
  if bit c.react 4 then d.reactTie c.msg else d

/-- Once the tile's has acted too. -/
def Dev.tileReacts (d : Dev) (c : Class) : Dev := if bit c.react 5 then (d.pixelsReact c).reactDark c.msg else d.pixelsReact c

/-- Once that on a unit has acted too. -/
def Dev.unitReacts (d : Dev) (c : Class) : Dev := if bit c.react 6 then (d.tileReacts c).reactGiveUp c.msg else d.tileReacts c

/-- Once DIP is held. -/
def Dev.dipReacts (d : Dev) (c : Class) : Dev := if bit c.react 7 then (d.unitReacts c).reactDip c.sev else d.unitReacts c

theorem Dev.react_eq (d : Dev) (c : Class) :
    d.react c = if bit c.react 8 then (d.dipReacts c).reactStandalone c.sev else d.dipReacts c := rfl

theorem PixelStep.pixelsReact (d : Dev) (c : Class) : PixelStep d (d.pixelsReact c) :=
  .trans (.ite (.reactIsolate d c.msg) (.refl d)) (.ite (.reactTie _ c.msg) (.refl _))

theorem ChangerStep.tileReacts (d : Dev) (c : Class) : ChangerStep (d.pixelsReact c) (d.tileReacts c) :=
  .ite (.reactDark _ c.msg) (.refl _)

theorem ChangerStep.unitReacts (d : Dev) (c : Class) : ChangerStep (d.tileReacts c) (d.unitReacts c) :=
  .ite (.reactGiveUp _ c.msg) (.refl _)

theorem BeamStep.dipReacts (d : Dev) (c : Class) : BeamStep (d.unitReacts c) (d.dipReacts c) := .ite (.reactDip _ c.sev) (.refl _)

theorem BeamStep.react (d : Dev) (c : Class) : BeamStep (d.dipReacts c) (d.react c) := .ite (.reactStandalone _ c.sev) (.refl _)

/-- What the reactions of a message other than SAFE leave of the Keeper, and what they raise. -/
structure Reacted (d d' : Dev) : Prop where
  keep : d'.keep = { d.keep with
    windows := d'.keep.windows, direct := d'.keep.direct, dip := d'.keep.dip, standalone := d'.keep.standalone }
  quiet : QuietEvents d.evt d'.evt

theorem Reacted.trans {a b c : Dev} (h : Reacted a b) (h' : Reacted b c) : Reacted a c :=
  ⟨by rw [h'.keep, h.keep], h.quiet.trans h'.quiet⟩

theorem PixelStep.reacted {d d' : Dev} (h : PixelStep d d') : Reacted d d' := ⟨by rw [h.frame], h.quiet⟩
theorem ChangerStep.reacted {d d' : Dev} (h : ChangerStep d d') : Reacted d d' := ⟨by rw [h.frame], h.quiet⟩
theorem BeamStep.reacted {d d' : Dev} (h : BeamStep d d') : Reacted d d' := ⟨by rw [h.frame], h.quiet⟩

theorem Reacted.react (d : Dev) (c : Class) : Reacted d (d.react c) :=
  (((PixelStep.pixelsReact d c).reacted.trans (ChangerStep.tileReacts d c).reacted).trans (ChangerStep.unitReacts d c).reacted).trans
    ((BeamStep.dipReacts d c).reacted.trans (BeamStep.react d c).reacted)

/-! ### Entry into the leading light (R322) -/

/-- What entry into the leading light does to the blocks. -/
def Dev.enterSafe (d : Dev) : Dev := (d.raise 11).stopForSafe.checkpoint otherTrigger

theorem State.setSafe_enters {s : State} (clear : s.lat.safe = false) (cause : Nat) : s.setSafe cause =
    (s.onLat (fun l => { l with safe := true, safeCause := BitVec.ofNat 3 cause })).onDev Dev.enterSafe := by
  rw [State.setSafe, if_neg (by rw [clear]; decide)]
  rfl

theorem Dev.checkpoint_frame (d : Dev) (t : Trigger) : d.checkpoint t = { d with ledg := (d.checkpoint t).ledg } := by
  unfold Dev.checkpoint
  split
  · split <;> rfl
  · split
    · dsimp only
      split
      · rfl
      · split <;> rfl
      · split <;> rfl
    · rfl

/-- What entry into the leading light reaches: pixels, tiles and instances stay as they are. -/
structure SafeStep (d d' : Dev) : Prop where
  frame : d' = { d with
    evt := d'.evt, arr := d'.arr, wit := d'.wit, ledg := d'.ledg, cal := d'.cal
    diag := { d.diag with stopped := d'.diag.stopped }, keep := { d.keep with transit := d'.keep.transit } }
  keeps : ∀ k, d.evt.pend.getLsbD k = true → d'.evt.pend.getLsbD k = true

namespace SafeStep

theorem trans {a b c : Dev} (h : SafeStep a b) (h' : SafeStep b c) : SafeStep a c :=
  ⟨by rw [h'.frame, h.frame], fun k hk => h'.keeps k (h.keeps k hk)⟩

theorem onArr (d : Dev) (f : Arr → Arr) : SafeStep d (d.onArr f) := ⟨rfl, fun _ h => h⟩
theorem onLedg (d : Dev) (f : Ledg → Ledg) : SafeStep d (d.onLedg f) := ⟨rfl, fun _ h => h⟩
theorem onCal (d : Dev) (f : Cal → Cal) : SafeStep d (d.onCal f) := ⟨rfl, fun _ h => h⟩

theorem stopDiag (d : Dev) : SafeStep d (d.onDiag (fun g => { g with stopped := true })) := ⟨rfl, fun _ h => h⟩

theorem witnessStop (d : Dev) : SafeStep d d.witnessStop := by
  unfold Dev.witnessStop
  split
  · exact ⟨rfl, fun k h => Evt.raise_keeps _ _ _ h⟩
  · exact ⟨rfl, fun _ h => h⟩

theorem checkpoint (d : Dev) (t : Trigger) : SafeStep d (d.checkpoint t) := by
  refine ⟨?_, fun k h => ?_⟩
  · rw [Dev.checkpoint_frame]
  · rwa [Dev.checkpoint_frame]

theorem stopForSafe (d : Dev) : SafeStep d d.stopForSafe :=
  ((((onArr d _).trans (witnessStop _)).trans (onLedg _ _)).trans (onCal _ _)).trans (stopDiag _)

theorem enterSafe (d : Dev) : SafeStep d d.enterSafe :=
  .trans ⟨rfl, fun k h => Evt.raise_keeps _ 11 k h⟩ ((stopForSafe (d.raise 11)).trans (checkpoint _ _))

end SafeStep

/-- Event KEEP_SAFE is raised (R322). -/
theorem Dev.enterSafe_raises (d : Dev) : d.enterSafe.evt.pend.getLsbD 11 = true :=
  ((SafeStep.stopForSafe (d.raise 11)).trans (.checkpoint _ _)).keeps 11 (Evt.raise_self _ 11 rfl)

end Sys2Proof.Machine


namespace Sys2Proof.Machine

/-! ### Logging, ATTN, the first fault and the pin (R306, R310 to R313) -/

/-- What logging a message, and ATTN, the first fault and the pin for it, reach. -/
structure Noted (d d' : Dev) : Prop where
  frame : d' = { d with
    evt := d'.evt
    ledg := { d.ledg with events := d'.ledg.events, logged := d'.ledg.logged, kinds := d'.ledg.kinds }
    keep := { d.keep with
      hist := d'.keep.hist, received := d'.keep.received, overwritten := d'.keep.overwritten, wrapped := d'.keep.wrapped
      sevCnt := d'.keep.sevCnt, conseq := d'.keep.conseq, windows := d'.keep.windows, first := d'.keep.first
      unc1 := d'.keep.unc1, unc2 := d'.keep.unc2, unc3 := d'.keep.unc3 } }
  quiet : QuietEvents d.evt d'.evt

namespace Noted

theorem refl (d : Dev) : Noted d d := ⟨rfl, .refl _⟩

theorem trans {a b c : Dev} (h : Noted a b) (h' : Noted b c) : Noted a c := ⟨by rw [h'.frame, h.frame], h.quiet.trans h'.quiet⟩

theorem ite {c : Prop} [Decidable c] {d a b : Dev} (ha : Noted d a) (hb : Noted d b) : Noted d (if c then a else b) := by
  split
  · exact ha
  · exact hb

theorem raise (d : Dev) {n : Nat} (other : n ≠ 11) : Noted d (d.raise n) := ⟨rfl, .raise _ other⟩

theorem openWindow (d : Dev) (w : Window) : Noted d (d.openWindow w) := ⟨rfl, .refl _⟩

theorem books (d : Dev) (f : Keep → Keep) (same : f d.keep = { d.keep with
      hist := (f d.keep).hist, received := (f d.keep).received, overwritten := (f d.keep).overwritten, wrapped := (f d.keep).wrapped
      sevCnt := (f d.keep).sevCnt, conseq := (f d.keep).conseq }) : Noted d (d.onKeep f) := by
  refine ⟨?_, .refl _⟩
  rw [Dev.onKeep, same]

theorem ledger (d : Dev) (events : Ledg → List LEvent) (logged : Ledg → Nat) (kinds : Ledg → List Nat) :
    Noted d (d.onLedg (fun l => { l with events := events l, logged := logged l, kinds := kinds l })) := ⟨rfl, .refl _⟩

theorem raiseWrap (d : Dev) (c : Bool) : Noted d (d.raiseIf c 15) := .ite (raise d (by decide)) (refl d)

end Noted

/-- What the Keeper's books hold once a message has been logged (R310, R311). -/
structure Logged (k k' : Keep) (h : Hist) : Prop where
  hist : k'.hist = (h :: k.hist).take 16
  received : k'.received = (k.received + 1) % 2 ^ 32
  fifos : k'.fifos = k.fifos
  first : k'.first = k.first
  sevCnt : k'.sevCnt = if h.conseq then k.sevCnt else updNth k.sevCnt h.sev.toNat (satInc 255)
  conseq : k'.conseq = if h.conseq then satInc 65535 k.conseq else k.conseq

theorem Dev.log_logs (d : Dev) (h : Hist) : Logged d.keep (d.log h).keep h := by
  unfold Dev.log Dev.ledgerLog
  dsimp only
  rw [Dev.onLedg_keep, Dev.onKeep_keep, Dev.raiseIf_keep]
  exact ⟨rfl, rfl, rfl, rfl, rfl, rfl⟩

theorem Noted.log (d : Dev) (h : Hist) : Noted d (d.log h) := by
  unfold Dev.log Dev.ledgerLog
  dsimp only
  refine .trans (.trans (.raiseWrap d _) (.books _ _ ?_)) (.ledger _ _ _ _)
  rfl

/-- A message is logged, and a GIVE_UP opens the window of its unit (R310, R316). -/
def Dev.logged (d : Dev) (c : Class) (conseq : Bool) : Dev :=
  let d := d.log (d.histOf c conseq)
  if c.msg.kind = 0x10 then
    match giveUpWindow c.msg.source.toNat with
    | some w => d.openWindow w
    | none => d
  else d

theorem Dev.logged_cases (d : Dev) (c : Class) (conseq : Bool) : d.logged c conseq = d.log (d.histOf c conseq) ∨
    ∃ w, d.logged c conseq = (d.log (d.histOf c conseq)).openWindow w := by
  unfold Dev.logged
  dsimp only
  split
  · split
    · exact .inr ⟨_, rfl⟩
    · exact .inl rfl
  · exact .inl rfl

theorem Noted.logged (d : Dev) (c : Class) (conseq : Bool) : Noted d (d.logged c conseq) := by
  rcases d.logged_cases c conseq with same | ⟨w, opened⟩
  · rw [same]
    exact log d _
  · rw [opened]
    exact (log d _).trans (openWindow _ w)

theorem Dev.logged_logs (d : Dev) (c : Class) (conseq : Bool) :
    Logged d.keep (d.logged c conseq).keep (d.histOf c conseq) := by
  have logs := d.log_logs (d.histOf c conseq)
  rcases d.logged_cases c conseq with same | ⟨w, opened⟩
  · rwa [same]
  · rw [opened]
    exact ⟨logs.hist, logs.received, logs.fifos, logs.first, logs.sevCnt, logs.conseq⟩

/-- ATTN raises the event of the severity; event 11 is that of the SAFE latch (R325). -/
def Dev.attn (d : Dev) (c : Class) : Dev := d.raiseIf (bit c.react 1 && decide (c.sev < 3)) (8 + c.sev)

/-- The message becomes the first fault where none stands, and an uncleared one (R312, R313). -/
def Dev.firstPin (d : Dev) (c : Class) (h : Hist) : Dev :=
  let d := if decide (1 ≤ c.sev) && d.keep.first.isNone && !d.keep.uncleared then
      (d.onKeep (fun k => { k with first := some h })).raise 12
    else d
  if bit c.react 2 then
    d.onKeep (fun k => { k with unc1 := k.unc1 || c.sev == 1, unc2 := k.unc2 || c.sev == 2, unc3 := k.unc3 || c.sev == 3 })
  else d

theorem Dev.attnFirstPin_eq (d : Dev) (c : Class) (h : Hist) : d.attnFirstPin c h = (d.attn c).firstPin c h := rfl

theorem Noted.attn (d : Dev) (c : Class) : Noted d (d.attn c) := by
  unfold Dev.attn Dev.raiseIf
  split
  · next raises =>
    rw [Bool.and_eq_true, decide_eq_true_eq] at raises
    exact raise d (by omega)
  · exact refl d

theorem Noted.firstPin (d : Dev) (c : Class) (h : Hist) : Noted d (d.firstPin c h) := by
  have first (e : Dev) : Noted e ((e.onKeep (fun k => { k with first := some h })).raise 12) :=
    trans (b := e.onKeep (fun k => { k with first := some h })) ⟨rfl, .refl _⟩ (raise _ (by decide))
  exact .trans (.ite (first d) (refl d)) (.ite ⟨rfl, .refl _⟩ (refl _))

theorem Dev.attn_raises {d : Dev} {c : Class} (attn : bit c.react 1 = true) (low : c.sev < 3) :
    (d.attn c).evt.pend.getLsbD (8 + c.sev) = true := by
  have own : ∀ n < 3, reservedEvent (8 + n) = false := by decide
  rw [Dev.attn, attn, decide_eq_true low]
  exact Evt.raise_self _ _ (own _ low)

/-- The message is logged as no consequence of another, and what every message of its class does is done. -/
def Dev.noteOwn (d : Dev) (c : Class) : Dev := (d.logged c false).attnFirstPin c (d.histOf c false)

theorem Noted.noteOwn (d : Dev) (c : Class) : Noted d (d.noteOwn c) := (logged d c false).trans ((attn _ c).trans (firstPin _ c _))

theorem Dev.noteOwn_attn {d : Dev} {c : Class} (attn : bit c.react 1 = true) (low : c.sev < 3) :
    (d.noteOwn c).evt.pend.getLsbD (8 + c.sev) = true :=
  (Noted.firstPin _ c _).quiet.keeps _ (Dev.attn_raises attn low)

/-! ### A message is handled (R308, R309, R316) -/

/-- The reactions, outside SAFE, and the entry into the leading light. -/
def State.reacts (s : State) (c : Class) : State :=
  if s.lat.safe then s
  else if bit c.react 9 then ((s.onDev (fun d => d.react c)).setSafe c.cause).onDev (fun d => d.openWindow .all)
  else s.onDev (fun d => d.react c)

/-- A message is a consequence that one of the open windows covers (R316). -/
def Class.isConsequence (c : Class) (windows : List Window) : Bool :=
  c.sev != 3 && !c.hardwired && windows.any (fun w => w.covers c.msg)

theorem State.handle_eq (s : State) (windows : List Window) (c : Class) : s.handle windows c =
    if c.isConsequence windows then s.onDev (fun d => d.logged c true) else (s.onDev (fun d => d.noteOwn c)).reacts c := by
  unfold State.handle
  extract_lets conseq h atLog logged noted reacted
  have logs : logged = s.onDev (fun d => d.logged c conseq) := by
    unfold logged atLog Dev.logged
    split
    · cases giveUpWindow c.msg.source.toNat <;> rfl
    · rfl
  have isConseq : conseq = c.isConsequence windows := rfl
  clear_value conseq
  subst isConseq
  cases value : c.isConsequence windows with
  | true =>
    rw [if_pos rfl, if_pos rfl, logs, value]
  | false =>
    have notes : noted = s.onDev (fun d => d.noteOwn c) := by
      unfold noted h Dev.noteOwn
      rw [logs, State.onDev_onDev, value]
      rfl
    unfold State.reacts
    simp only [Bool.false_eq_true, if_false]
    unfold reacted
    rw [notes]

end Sys2Proof.Machine


namespace Sys2Proof.Machine

/-- What entry into the leading light asks of the blocks that the reactions have left, and the window it opens. -/
def State.settles (s : State) (c : Class) : State :=
  if bit c.react 9 then (s.setSafe c.cause).onDev (fun d => d.openWindow .all) else s

theorem State.reacts_safe {s : State} {c : Class} (safe : s.lat.safe = true) : s.reacts c = s := if_pos safe

theorem State.reacts_settles {s : State} {c : Class} (clear : s.lat.safe = false) :
    s.reacts c = (s.onDev (fun d => d.react c)).settles c := if_neg (by rw [clear]; decide)

theorem State.settles_noSafe {s : State} {c : Class} (react : bit c.react 9 = false) : s.settles c = s :=
  if_neg (by rw [react]; decide)

theorem State.settles_safe {s : State} {c : Class} (react : bit c.react 9 = true) (clear : s.lat.safe = false) : s.settles c =
    (s.onLat (fun l => { l with safe := true, safeCause := BitVec.ofNat 3 c.cause })).onDev (fun d => d.enterSafe.openWindow .all) := by
  rw [State.settles, if_pos react, State.setSafe_enters clear]
  rfl

/-- What settling reaches of the blocks: the entry into the leading light and its window, or nothing. -/
structure Settled (d d' : Dev) : Prop where
  frame : d' = { d with
    evt := d'.evt, arr := d'.arr, wit := d'.wit, ledg := d'.ledg, cal := d'.cal
    diag := { d.diag with stopped := d'.diag.stopped }
    keep := { d.keep with transit := d'.keep.transit, windows := d'.keep.windows, draws := d'.keep.draws } }
  keeps : ∀ k, d.evt.pend.getLsbD k = true → d'.evt.pend.getLsbD k = true
  windows : ∀ w ∈ d.keep.windows, w ∈ d'.keep.windows

namespace Settled

theorem refl (d : Dev) : Settled d d := ⟨rfl, fun _ h => h, fun _ h => h⟩

theorem trans {a b c : Dev} (h : Settled a b) (h' : Settled b c) : Settled a c :=
  ⟨by rw [h'.frame, h.frame], fun k hk => h'.keeps k (h.keeps k hk), fun w hw => h'.windows w (h.windows w hw)⟩

theorem enterSafe (d : Dev) : Settled d d.enterSafe := by
  have step := SafeStep.enterSafe d
  refine ⟨?_, step.keeps, fun w hw => ?_⟩
  · rw [step.frame]
  · rwa [step.frame]

theorem openWindow (d : Dev) (w : Window) : Settled d (d.openWindow w) := ⟨rfl, fun _ h => h, fun _ h => List.mem_append_left _ h⟩

theorem settles {s : State} (clear : s.lat.safe = false) (c : Class) : Settled s.dev (s.settles c).dev := by
  cases react : bit c.react 9 with
  | true =>
    rw [State.settles_safe react clear]
    exact (enterSafe _).trans (openWindow _ .all)
  | false =>
    rw [State.settles_noSafe react]
    exact refl _

end Settled

/-! ### What a handled message leaves of the books, of the SAFE latch and of the events -/

/-- The history, the count of messages and the FIFOs stay. -/
structure SameBooks (k k' : Keep) : Prop where
  hist : k'.hist = k.hist
  received : k'.received = k.received
  fifos : k'.fifos = k.fifos

theorem SameBooks.trans {a b c : Keep} (h : SameBooks a b) (h' : SameBooks b c) : SameBooks a c :=
  ⟨h'.hist.trans h.hist, h'.received.trans h.received, h'.fifos.trans h.fifos⟩

theorem SameBooks.attnFirstPin (d : Dev) (c : Class) (h : Hist) : SameBooks d.keep (d.attnFirstPin c h).keep := by
  have raised : (d.attn c).keep = d.keep := d.raiseIf_keep ..
  rw [Dev.attnFirstPin_eq, ← raised]
  unfold Dev.firstPin
  dsimp only
  split <;> split <;> exact ⟨rfl, rfl, rfl⟩

theorem Reacted.books {d d' : Dev} (h : Reacted d d') : SameBooks d.keep d'.keep := by
  rw [h.keep]
  exact ⟨rfl, rfl, rfl⟩

theorem Settled.books {d d' : Dev} (h : Settled d d') : SameBooks d.keep d'.keep := by
  rw [h.frame]
  exact ⟨rfl, rfl, rfl⟩

theorem State.reacts_books (s : State) (c : Class) : SameBooks s.dev.keep (s.reacts c).dev.keep := by
  cases safe : s.lat.safe with
  | true =>
    rw [State.reacts_safe safe]
    exact ⟨rfl, rfl, rfl⟩
  | false =>
    rw [State.reacts_settles safe]
    exact (Reacted.react s.dev c).books.trans (Settled.settles (s := s.onDev (fun d => d.react c)) safe c).books

/-- Whatever else a message does, it is logged (R310, R311). -/
theorem State.handle_books (s : State) (windows : List Window) (c : Class) :
    SameBooks (s.dev.logged c (c.isConsequence windows)).keep (s.handle windows c).dev.keep := by
  rw [State.handle_eq]
  cases c.isConsequence windows with
  | true => exact ⟨rfl, rfl, rfl⟩
  | false => exact (SameBooks.attnFirstPin (s.dev.logged c false) c _).trans (State.reacts_books (s.onDev (fun d => d.noteOwn c)) c)

theorem State.reacts_keeps (s : State) (c : Class) (k : Nat) (pends : s.dev.evt.pend.getLsbD k = true) :
    (s.reacts c).dev.evt.pend.getLsbD k = true := by
  cases safe : s.lat.safe with
  | true => rwa [State.reacts_safe safe]
  | false =>
    rw [State.reacts_settles safe]
    exact (Settled.settles (s := s.onDev (fun d => d.react c)) safe c).keeps k ((Reacted.react s.dev c).quiet.keeps k pends)

/-- Without reaction SAFE, and under SAFE, the latch and its event stay as they are (R322). -/
theorem State.reacts_quiet {s : State} {c : Class} (quiet : s.lat.safe = true ∨ bit c.react 9 = false) :
    (s.reacts c).lat = s.lat ∧ QuietEvents s.dev.evt (s.reacts c).dev.evt := by
  cases safe : s.lat.safe with
  | true =>
    rw [State.reacts_safe safe]
    exact ⟨rfl, .refl _⟩
  | false =>
    have react : bit c.react 9 = false := quiet.resolve_left (by rw [safe]; decide)
    rw [State.reacts_settles safe, State.settles_noSafe react]
    exact ⟨rfl, (Reacted.react s.dev c).quiet⟩

/-- SAFE sets the latch with its cause, and event 11 is raised (R322). -/
theorem State.reacts_setsSafe {s : State} {c : Class} (clear : s.lat.safe = false) (react : bit c.react 9 = true) :
    (s.reacts c).lat = { s.lat with safe := true, safeCause := BitVec.ofNat 3 c.cause } ∧
      (s.reacts c).dev.evt.pend.getLsbD 11 = true := by
  rw [State.reacts_settles clear, State.settles_safe (s := s.onDev (fun d => d.react c)) react clear]
  exact ⟨rfl, Dev.enterSafe_raises (s.dev.react c)⟩

theorem State.handle_quiet {s : State} {c : Class} (windows : List Window) (quiet : s.lat.safe = true ∨ bit c.react 9 = false) :
    (s.handle windows c).lat = s.lat ∧ QuietEvents s.dev.evt (s.handle windows c).dev.evt := by
  rw [State.handle_eq]
  split
  · exact ⟨rfl, (Noted.logged s.dev c true).quiet⟩
  · obtain ⟨lat, events⟩ := State.reacts_quiet (s := s.onDev (fun d => d.noteOwn c)) quiet
    exact ⟨lat, (Noted.noteOwn s.dev c).quiet.trans events⟩

/-! ### A take of one message (R300, R302) -/

/-- The blocks once every message has been taken. -/
def Dev.emptied (d : Dev) : Dev := d.onKeep (fun k => { k with fifos := [], direct := [] })

/-- The next draw of the KEEP clock's count. -/
def Dev.drawn (d : Dev) : Dev := d.onKeep (fun k => { k with draws := k.draws + 1 })

/-- `m` is the only message that waits, in a FIFO or on the direct path. -/
def Keep.holdsOnly (k : Keep) (m : Msg) : Prop := k.fifos = [m] ∧ k.direct = [] ∨ k.fifos = [] ∧ k.direct = [m]

theorem takeDirect_one (m : Msg) : takeDirect [m] = ([m], []) := by
  have alone : (m.kind == 0x11 && [m].any (fun g => g.kind == 0x10 && g.source == m.source)) = false := by
    by_cases kind : m.kind = 0x11
    · have notGiveUp : (m.kind == 0x10) = false := by
        rw [kind]
        rfl
      simp only [List.any_cons, List.any_nil, notGiveUp, Bool.false_and, Bool.or_false, Bool.and_false]
    · rw [beq_false_of_ne kind, Bool.false_and]
  simp only [takeDirect, List.partition, List.partition.loop, alone]
  rfl

theorem State.keeperTake_one {s : State} {m : Msg} (only : s.dev.keep.holdsOnly m) :
    s.keeperTake = ((s.onDev Dev.emptied).handle s.dev.keep.windows (s.dev.classify m)).onDev Dev.drawn := by
  unfold State.keeperTake
  rcases only with ⟨fifos, direct⟩ | ⟨fifos, direct⟩
  · rw [fifos, direct]
    rfl
  · rw [fifos, direct, takeDirect_one]
    rfl

end Sys2Proof.Machine


namespace Sys2Proof.Machine

theorem Dev.classify_msg (d : Dev) (m : Msg) : (d.classify m).msg = m := by
  unfold Dev.classify
  dsimp only
  repeat' split
  all_goals rfl

theorem Class.isConsequence_nil (c : Class) : c.isConsequence [] = false := Bool.and_false _

/-- A message that is no consequence, taken alone: noted, then its reactions. -/
theorem State.keeperTake_reacts {s : State} {m : Msg} (only : s.dev.keep.holdsOnly m)
    (own : (s.dev.classify m).isConsequence s.dev.keep.windows = false) :
    s.keeperTake = ((s.onDev (fun d => d.emptied.noteOwn (s.dev.classify m))).reacts (s.dev.classify m)).onDev Dev.drawn := by
  rw [State.keeperTake_one only, State.handle_eq, own]
  rfl

/-- The message taken is the newest entry of the history, with the next sequence number (R310, R311). -/
theorem State.keeperTake_logs {s : State} {m : Msg} (only : s.dev.keep.holdsOnly m) : s.keeperTake.dev.keep.fifos = [] ∧
    (∃ h rest, s.keeperTake.dev.keep.hist = h :: rest ∧ h.msg = m ∧ h.sev = BitVec.ofNat 2 (s.dev.classify m).sev ∧
      h.seq = BitVec.ofNat 16 (s.dev.keep.received + 1)) ∧
    s.keeperTake.dev.keep.received = (s.dev.keep.received + 1) % 2 ^ 32 := by
  have books := State.handle_books (s.onDev Dev.emptied) s.dev.keep.windows (s.dev.classify m)
  have logs := Dev.logged_logs (s.onDev Dev.emptied).dev (s.dev.classify m)
    ((s.dev.classify m).isConsequence s.dev.keep.windows)
  rw [State.keeperTake_one only]
  refine ⟨books.fifos.trans logs.fifos, ⟨_, _, books.hist.trans logs.hist, s.dev.classify_msg m, rfl, rfl⟩,
    books.received.trans logs.received⟩

/-- ATTN raises the event of the message's severity (R306, R325). -/
theorem State.keeperTake_attn {s : State} {m : Msg} (only : s.dev.keep.holdsOnly m)
    (own : (s.dev.classify m).isConsequence s.dev.keep.windows = false) (attn : bit (s.dev.classify m).react 1 = true)
    (low : (s.dev.classify m).sev < 3) : s.keeperTake.dev.evt.pend.getLsbD (8 + (s.dev.classify m).sev) = true := by
  rw [State.keeperTake_reacts only own]
  exact State.reacts_keeps (s.onDev (fun d => d.emptied.noteOwn (s.dev.classify m))) _ _ (Dev.noteOwn_attn attn low)

/-- SAFE sets the latch with the cause of the message, and event 11 is raised (R322). -/
theorem State.keeperTake_setsSafe {s : State} {m : Msg} (only : s.dev.keep.holdsOnly m)
    (own : (s.dev.classify m).isConsequence s.dev.keep.windows = false) (react : bit (s.dev.classify m).react 9 = true)
    (clear : s.lat.safe = false) :
    s.keeperTake.lat = { s.lat with safe := true, safeCause := BitVec.ofNat 3 (s.dev.classify m).cause } ∧
      s.keeperTake.dev.evt.pend.getLsbD 11 = true := by
  rw [State.keeperTake_reacts only own]
  exact State.reacts_setsSafe (s := s.onDev (fun d => d.emptied.noteOwn (s.dev.classify m))) clear react

theorem State.keeperTake_quiet {s : State} {m : Msg} (only : s.dev.keep.holdsOnly m)
    (quiet : s.lat.safe = true ∨ bit (s.dev.classify m).react 9 = false) :
    s.keeperTake.lat = s.lat ∧ QuietEvents s.dev.evt s.keeperTake.dev.evt := by
  rw [State.keeperTake_one only]
  exact State.handle_quiet (s := s.onDev Dev.emptied) _ quiet

/-- A consequence is logged and counted, and has no reaction (R316). -/
theorem State.keeperTake_consequence {s : State} {m : Msg} (only : s.dev.keep.holdsOnly m)
    (conseq : (s.dev.classify m).isConsequence s.dev.keep.windows = true) :
    s.keeperTake.lat = s.lat ∧ s.keeperTake.dev.tiles = s.dev.tiles ∧ s.keeperTake.dev.chg = s.dev.chg ∧
      s.keeperTake.dev.keep.first = s.dev.keep.first ∧ s.keeperTake.dev.keep.sevCnt = s.dev.keep.sevCnt ∧
      s.keeperTake.dev.keep.conseq = Nat.min 65535 (s.dev.keep.conseq + 1) := by
  have logs := Dev.logged_logs s.dev.emptied (s.dev.classify m) true
  have frame := (Noted.logged s.dev.emptied (s.dev.classify m) true).frame
  have taken : s.keeperTake = s.onDev (fun d => (d.emptied.logged (s.dev.classify m) true).drawn) := by
    rw [State.keeperTake_one only, State.handle_eq, conseq]
    rfl
  rw [taken]
  refine ⟨rfl, (congrArg Dev.tiles frame :), (congrArg Dev.chg frame :), logs.first, logs.sevCnt, ?_⟩
  exact logs.conseq.trans (satInc_eq_min ..)

/-- The blocks when a message without SAFE standing and without windows begins to act. -/
def Dev.acting (d : Dev) (m : Msg) : Dev := d.emptied.noteOwn (d.classify m)

theorem State.keeperTake_settled {s : State} {m : Msg} (only : s.dev.keep.holdsOnly m) (noWindow : s.dev.keep.windows = [])
    (clear : s.lat.safe = false) : Settled ((s.dev.acting m).react (s.dev.classify m)) s.keeperTake.dev := by
  have own : (s.dev.classify m).isConsequence s.dev.keep.windows = false := by
    rw [noWindow]
    exact Class.isConsequence_nil _
  have drawn (d : Dev) : Settled d d.drawn := ⟨rfl, fun _ h => h, fun _ h => h⟩
  rw [State.keeperTake_reacts only own, State.reacts_settles (s := s.onDev _) clear]
  exact (Settled.settles (s := (s.onDev (fun d => d.emptied.noteOwn (s.dev.classify m))).onDev (fun d => d.react (s.dev.classify m)))
    clear _).trans (drawn _)

end Sys2Proof.Machine


namespace Sys2Proof.Machine

/-! ### Each reaction, and that the later ones leave what it did -/

theorem Noted.tile {d d' : Dev} (h : Noted d d') (t : Nat) : d'.tile t = d.tile t := by
  rw [h.frame]
  rfl

theorem Noted.diag {d d' : Dev} (h : Noted d d') : d'.diag = d.diag := by rw [h.frame]

theorem Noted.chg {d d' : Dev} (h : Noted d d') : d'.chg = d.chg := by rw [h.frame]

theorem ChangerStep.diag {d d' : Dev} (h : ChangerStep d d') : d'.diag = d.diag := by rw [h.frame]

/-- The holds of the beams, the clock and the lamp clock are the same. -/
structure SameClocks (d d' : Dev) : Prop where
  dip : d'.keep.dip = d.keep.dip
  standalone : d'.keep.standalone = d.keep.standalone
  now : d'.now = d.now
  lampMs : d'.lampMs = d.lampMs

theorem SameClocks.trans {a b c : Dev} (h : SameClocks a b) (h' : SameClocks b c) : SameClocks a c :=
  ⟨h'.dip.trans h.dip, h'.standalone.trans h.standalone, h'.now.trans h.now, h'.lampMs.trans h.lampMs⟩

theorem Noted.clocks {d d' : Dev} (h : Noted d d') : SameClocks d d' := by
  rw [h.frame]
  exact ⟨rfl, rfl, rfl, rfl⟩

theorem PixelStep.clocks {d d' : Dev} (h : PixelStep d d') : SameClocks d d' := by
  rw [h.frame]
  exact ⟨rfl, rfl, rfl, rfl⟩

theorem ChangerStep.clocks {d d' : Dev} (h : ChangerStep d d') : SameClocks d d' := by
  rw [h.frame]
  exact ⟨rfl, rfl, rfl, rfl⟩

/-- What the pixels, the tiles and the instances have become stays, with the events and the windows. -/
structure Untouched (d d' : Dev) : Prop where
  tile : ∀ t, d'.tile t = d.tile t
  chg : d'.chg = d.chg
  pix : ∀ p, d'.pix p = d.pix p
  ties : d'.diag.ties = d.diag.ties
  keeps : ∀ k, d.evt.pend.getLsbD k = true → d'.evt.pend.getLsbD k = true
  windows : ∀ w ∈ d.keep.windows, w ∈ d'.keep.windows

theorem Untouched.trans {a b c : Dev} (h : Untouched a b) (h' : Untouched b c) : Untouched a c :=
  ⟨fun t => (h'.tile t).trans (h.tile t), h'.chg.trans h.chg, fun p => (h'.pix p).trans (h.pix p), h'.ties.trans h.ties,
    fun k hk => h'.keeps k (h.keeps k hk), fun w hw => h'.windows w (h.windows w hw)⟩

theorem BeamStep.untouched {d d' : Dev} (h : BeamStep d d') : Untouched d d' := by
  have keeps := h.quiet.keeps
  have windows := h.windows
  rw [h.frame] at keeps windows ⊢
  exact ⟨fun _ => rfl, rfl, fun _ => rfl, rfl, keeps, windows⟩

theorem Settled.untouched {d d' : Dev} (h : Settled d d') : Untouched d d' := by
  have keeps := h.keeps
  have windows := h.windows
  rw [h.frame] at keeps windows ⊢
  exact ⟨fun _ => rfl, rfl, fun _ => rfl, rfl, keeps, windows⟩

/-! #### ISOLATE_PIXEL and TIE_PAIR -/

/-- What has become of the pixels once their reactions have acted stays to the end of a take. -/
structure PixelsStand (d d' : Dev) : Prop where
  pix : ∀ p, d'.pix p = d.pix p
  ties : d'.diag.ties = d.diag.ties
  keeps : ∀ k, d.evt.pend.getLsbD k = true → d'.evt.pend.getLsbD k = true
  windows : ∀ w ∈ d.keep.windows, w ∈ d'.keep.windows

theorem ChangerStep.then_untouched {d d' e : Dev} (h : ChangerStep d d') (h' : Untouched d' e) : PixelsStand d e where
  pix p := by rw [h'.pix, Dev.pix, h.diag, Dev.pix]
  ties := h'.ties.trans (congrArg Diag.ties h.diag)
  keeps k hk := h'.keeps k (h.quiet.keeps k hk)
  windows w hw := h'.windows w (h.windows w hw)

theorem Dev.pixelsReact_isolates {d : Dev} {c : Class} (react : bit c.react 3 = true)
    (kind : c.msg.kind = 0x09 ∨ c.msg.kind = 0x0A ∨ c.msg.kind = 0x0C) : d.pixelsReact c = d.reactIsolate c.msg := by
  have other : c.msg.kind ≠ 0x0B := by
    rcases kind with h | h | h <;> rw [h] <;> decide
  unfold Dev.pixelsReact
  rw [if_pos react]
  exact (congrArg (fun e => if bit c.react 4 then e else d.reactIsolate c.msg) (Dev.reactTie_other other)).trans (ite_self _)

theorem Dev.pixelsReact_ties {d : Dev} {c : Class} (react : bit c.react 4 = true) (kind : c.msg.kind = 0x0B) :
    d.pixelsReact c = d.reactTie c.msg := by
  unfold Dev.pixelsReact
  rw [Dev.reactIsolate_other kind, ite_self]
  exact if_pos react

theorem Pix.isolated_of_cls {x : Pix} {cls : Nat} (h : x.cls = cls) (isolates : cls = 1 ∨ cls = 2) : x.isolated = true := by
  unfold Pix.isolated
  rw [h]
  rcases isolates with h | h <;> rw [h] <;> rfl

/-! #### TILE_DARK -/

/-- A tile that was not dark is excluded, and its event is raised, before what else its darkness ends (R454). -/
theorem ChangerStep.darken_excludes {d : Dev} {t : Nat} (lit : d.isDark t = false) :
    ∃ e : Dev, ChangerStep ((e.exclude t).raise 79) (d.darken t) := by
  have ended (e : Dev) : ChangerStep e (e.chainEnded (t / 24)) := of_frame rfl
  unfold Dev.darken
  rw [if_neg (by rw [lit]; decide)]
  exact ⟨_, ((ended _).trans (roundCheck _)).trans (onArr _ _)⟩

theorem Dev.darken_darkens {d : Dev} {t : Nat} (lit : d.isDark t = false) : ((d.darken t).tile t).dark = true ∧
    ((d.darken t).tile t).excluded = true ∧ (d.darken t).evt.pend.getLsbD 79 = true := by
  obtain ⟨e, later⟩ := ChangerStep.darken_excludes lit
  refine ⟨d.darken_dark t, later.excluded t ?_, later.quiet.keeps 79 (Evt.raise_self _ 79 rfl)⟩
  rw [Dev.tile_raise, Dev.exclude_tile]

theorem Dev.reactDark_darkens {d : Dev} {m : Msg} (tile : srcTile m.source.toNat = true) (lit : d.isDark m.source.toNat = false) :
    ((d.reactDark m).tile m.source.toNat).dark = true ∧ ((d.reactDark m).tile m.source.toNat).excluded = true ∧
      (d.reactDark m).evt.pend.getLsbD 79 = true ∧ .tile m.source.toNat ∈ (d.reactDark m).keep.windows := by
  obtain ⟨dark, excluded, raised⟩ := Dev.darken_darkens lit
  unfold Dev.reactDark
  dsimp only
  rw [if_pos (by rw [tile, lit]; rfl)]
  have opened : Window.tile m.source.toNat ∈ ((d.darken m.source.toNat).openWindow (.tile m.source.toNat)).keep.windows :=
    List.mem_append_right _ (List.mem_singleton_self _)
  split
  · exact ⟨dark, excluded, raised, opened⟩
  · exact ⟨dark, excluded, raised, opened⟩

theorem Dev.reactDark_pair (d : Dev) (m : Msg) (u : UnitRef) : (d.reactDark m).chg.pair u = d.chg.pair u := by
  have dark := (KeepsChanger.darken d m.source.toNat).pair u
  unfold Dev.reactDark
  dsimp only
  split
  · split
    · cases u <;> exact dark
    · exact dark
  · rfl

/-! #### GIVE_UP -/

theorem Dev.inControl_congr {d e : Dev} (pair : ∀ u, e.chg.pair u = d.chg.pair u) (now : e.now = d.now) (u : UnitRef) (b : Bool) :
    e.inControl u b = d.inControl u b := by
  unfold Dev.inControl Dev.gaveUpNow
  rw [pair, now]

theorem Dev.giveUpTarget_congr {d e : Dev} (pair : ∀ u, e.chg.pair u = d.chg.pair u) (now : e.now = d.now) (m : Msg) :
    e.giveUpTarget m = d.giveUpTarget m := by
  have ref (t : Nat) : e.chg.refActiveB t = d.chg.refActiveB t := congrArg (fun p : Pair => p.b == .active) (pair (.tileRef t false))
  have eng : e.engineB = d.engineB := congrArg (fun p : Pair => p.b == .active) (pair (.engine false))
  unfold Dev.giveUpTarget
  dsimp only
  rw [ref, eng, Dev.inControl_congr pair now, Dev.inControl_congr pair now]

theorem Dev.giveUpTarget_exists {d : Dev} {m : Msg} {u : UnitRef} (target : d.giveUpTarget m = some u) : unitExists u = true := by
  unfold Dev.giveUpTarget at target
  dsimp only at target
  split at target
  · cases target
  · split at target
    · next tile =>
      cases target
      exact tile
    · repeat' split at target
      all_goals cases target
      all_goals rfl

theorem Dev.reactGiveUp_gives {d : Dev} {m : Msg} {u : UnitRef} (target : d.giveUpTarget m = some u)
    (active : d.chg.is u .active = true) : (d.reactGiveUp m).chg = (d.giveUp false u 0x10).chg ∧
      (d.reactGiveUp m).evt = (d.giveUp false u 0x10).evt := by
  unfold Dev.reactGiveUp
  rw [target]
  dsimp only
  rw [if_pos active]
  split <;> exact ⟨rfl, rfl⟩

/-- The active unit gives up to its standby with cause KEEPER (R307, R328). -/
theorem Dev.reactGiveUp_takenOver {d : Dev} {m : Msg} {u : UnitRef} (target : d.giveUpTarget m = some u)
    (active : d.chg.is u .active = true) (standby : d.chg.is (unitPartner u) .standby = true)
    (again : (d.chg.pair u).third (unitB u) d.lampMs = false) :
    (d.reactGiveUp m).chg.is u .selftest = true ∧ (d.reactGiveUp m).chg.is (unitPartner u) .active = true ∧
      (d.reactGiveUp m).chg.lastCause = 0x10 ∧ (d.reactGiveUp m).chg.lastSource = unitSource u ∧
      (d.reactGiveUp m).evt.pend.getLsbD 96 = true := by
  obtain ⟨given, partner, raised⟩ :=
    d.giveUp_of_standby false u 0x10 (Dev.giveUpTarget_exists target) active (Bool.false_and _) (by decide) standby
  obtain ⟨chg, evt⟩ := Dev.reactGiveUp_gives target active
  rw [chg, evt]
  refine ⟨?_, partner, given.lastCause, given.lastSource, raised⟩
  rw [Chg.is, given.own, again]
  rfl

end Sys2Proof.Machine


namespace Sys2Proof.Machine

/-! #### The reactions of a message taken alone -/

theorem Dev.acting_noted (d : Dev) (m : Msg) : Noted d.emptied (d.acting m) := .noteOwn ..

theorem Dev.acting_tile (d : Dev) (m : Msg) (t : Nat) : (d.acting m).tile t = d.tile t := (d.acting_noted m).tile t

theorem Dev.acting_diag (d : Dev) (m : Msg) : (d.acting m).diag = d.diag := (d.acting_noted m).diag

theorem Dev.acting_chg (d : Dev) (m : Msg) : (d.acting m).chg = d.chg := (d.acting_noted m).chg

theorem Dev.acting_pix (d : Dev) (m : Msg) (p : Nat) : (d.acting m).pix p = d.pix p := by rw [Dev.pix, d.acting_diag, Dev.pix]

theorem Dev.acting_partner (d : Dev) (m : Msg) (p : Nat) : (d.acting m).partner p = d.partner p := by
  rw [Dev.partner, d.acting_diag, Dev.partner]

theorem Dev.acting_clocks (d : Dev) (m : Msg) : SameClocks d (d.acting m) :=
  SameClocks.trans (b := d.emptied) ⟨rfl, rfl, rfl, rfl⟩ (d.acting_noted m).clocks

theorem SameClocks.unitReacts (d : Dev) (c : Class) : SameClocks d (d.unitReacts c) :=
  ((PixelStep.pixelsReact d c).clocks.trans (ChangerStep.tileReacts d c).clocks).trans (ChangerStep.unitReacts d c).clocks

/-- The instances are as they were when the reaction on a unit acts. -/
theorem Dev.tileReacts_pair (d : Dev) (c : Class) (u : UnitRef) : (d.tileReacts c).chg.pair u = d.chg.pair u := by
  have pixels : (d.pixelsReact c).chg.pair u = d.chg.pair u := by rw [(PixelStep.pixelsReact d c).frame]
  unfold Dev.tileReacts
  split
  · rw [Dev.reactDark_pair, pixels]
  · exact pixels

theorem Dev.react_dips {d : Dev} {c : Class} (react : bit c.react 7 = true) :
    (d.react c).keep.dip = d.keep.dip ||| (1#4 <<< c.sev) ∧
      (d.keep.dipHeld = false → (d.react c).evt.pend.getLsbD 17 = true) := by
  have before := (SameClocks.unitReacts d c).dip
  have after := BeamStep.react d c
  obtain ⟨dip, -, raised⟩ := (d.unitReacts c).reactDip_dip c.sev
  have dips : d.dipReacts c = (d.unitReacts c).reactDip c.sev := if_pos react
  have kept : (d.react c).keep.dip = (d.dipReacts c).keep.dip := by
    rw [Dev.react_eq]
    split
    · exact ((d.dipReacts c).reactStandalone_standalone c.sev).2.1
    · rfl
  rw [Keep.dipHeld, before] at raised
  rw [kept, dips, dip, before]
  exact ⟨rfl, fun free => after.quiet.keeps 17 (by rw [dips]; exact raised free)⟩

theorem Dev.react_standsAlone {d : Dev} {c : Class} (react : bit c.react 8 = true) :
    (d.react c).keep.standalone = d.keep.standalone ||| (1#4 <<< c.sev) ∧
      (d.keep.standaloneHeld = false → (d.react c).evt.pend.getLsbD 18 = true) := by
  have dipped : (d.dipReacts c).keep.standalone = (d.unitReacts c).keep.standalone := by
    unfold Dev.dipReacts
    split
    · exact ((d.unitReacts c).reactDip_dip c.sev).2.1
    · rfl
  have before := dipped.trans (SameClocks.unitReacts d c).standalone
  obtain ⟨alone, -, raised⟩ := (d.dipReacts c).reactStandalone_standalone c.sev
  have standsAlone : d.react c = (d.dipReacts c).reactStandalone c.sev := if_pos react
  rw [Keep.standaloneHeld, before] at raised
  rw [standsAlone, alone, before]
  exact ⟨rfl, raised⟩

section
variable {s : State} {m : Msg} (only : s.dev.keep.holdsOnly m) (noWindow : s.dev.keep.windows = []) (clear : s.lat.safe = false)
include only noWindow clear

theorem State.keeperTake_untouched : Untouched ((s.dev.acting m).unitReacts (s.dev.classify m)) s.keeperTake.dev :=
  ((BeamStep.dipReacts ..).trans (BeamStep.react ..)).untouched.trans (State.keeperTake_settled only noWindow clear).untouched

theorem State.keeperTake_pixels : PixelsStand ((s.dev.acting m).pixelsReact (s.dev.classify m)) s.keeperTake.dev :=
  ((ChangerStep.tileReacts ..).trans (ChangerStep.unitReacts ..)).then_untouched (State.keeperTake_untouched only noWindow clear)

/-- ISOLATE_PIXEL isolates the pixel of a tile's message, and its tie partner with it (R291, R306). -/
theorem State.keeperTake_isolates (react : bit (s.dev.classify m).react 3 = true)
    (kind : m.kind = 0x09 ∨ m.kind = 0x0A ∨ m.kind = 0x0C) (tile : srcTile m.source.toNat = true)
    (inside : bits m.addr.toNat 0 21 < nPixels) (own : tileOf (bits m.addr.toNat 0 21) = m.source.toNat)
    (fresh : (s.dev.pix (bits m.addr.toNat 0 21)).isolated = false) :
    (s.keeperTake.dev.pix (bits m.addr.toNat 0 21)).isolated = true ∧
    (s.keeperTake.dev.pix (bits m.addr.toNat 0 21)).cls = (if m.kind = 0x09 then 1 else 2) ∧
    ∀ q, s.dev.partner (bits m.addr.toNat 0 21) = some q → (s.keeperTake.dev.pix q).isolated = true := by
  have stand := (State.keeperTake_pixels only noWindow clear).pix
  have pixels := Dev.pixelsReact_isolates (d := s.dev.acting m) react (by rw [s.dev.classify_msg]; exact kind)
  rw [← s.dev.acting_pix m] at fresh
  rw [s.dev.classify_msg] at pixels
  obtain ⟨w, isolates⟩ := Dev.reactIsolate_isolates kind tile inside own fresh
  obtain ⟨cls, partner⟩ := Dev.isolate_pix (cls := if m.kind = 0x09 then 1 else 2) fresh
  have classes : (if m.kind = 0x09 then 1 else 2 : Nat) = 1 ∨ (if m.kind = 0x09 then 1 else 2 : Nat) = 2 := by
    split
    · exact .inl rfl
    · exact .inr rfl
  simp only [stand, pixels, isolates]
  refine ⟨Pix.isolated_of_cls cls classes, cls, fun q tied => ?_⟩
  rw [← s.dev.acting_partner m] at tied
  exact Pix.isolated_of_cls (partner q tied) classes

/-- TIE_PAIR ties a pair of GOOD pixels (R290, R306). -/
theorem State.keeperTake_ties {p q : Nat} {v : Bool} (react : bit (s.dev.classify m).react 4 = true) (kind : m.kind = 0x0B)
    (pair : pairOf m.addr.toNat = some (p, q, v)) (own : tileOf p = m.source.toNat) (good : (s.dev.pix p).cls = 0)
    (good' : (s.dev.pix q).cls = 0) (room : s.dev.diag.ties.length < 4096) :
    (s.keeperTake.dev.pix p).cls = 3 ∧ (s.keeperTake.dev.pix q).cls = 3 ∧
      s.keeperTake.dev.diag.ties = s.dev.diag.ties ++ [(p, v)] ∧ s.keeperTake.dev.evt.pend.getLsbD 82 = true ∧
      .pixels [p, q] [tileOf p, tileOf q] ∈ s.keeperTake.dev.keep.windows := by
  obtain ⟨pix, ties, keeps, windows⟩ := State.keeperTake_pixels only noWindow clear
  have pixels := Dev.pixelsReact_ties (d := s.dev.acting m) react (by rw [s.dev.classify_msg]; exact kind)
  rw [← s.dev.acting_pix m] at good good'
  rw [s.dev.classify_msg, Dev.reactTie_ties kind pair own good good'] at pixels
  rw [← s.dev.acting_diag m] at room ⊢
  obtain ⟨lower, upper, tied, raised⟩ := Dev.tie_ties (v := v) room (pairOf_ne pair)
  rw [pixels] at pix ties keeps windows
  rw [pix, pix, ties]
  exact ⟨lower, upper, tied, keeps 82 raised, windows _ (List.mem_append_right _ (List.mem_singleton_self _))⟩

/-- TILE_DARK makes the source tile dark and excludes it (R306, R454). -/
theorem State.keeperTake_darkens (react : bit (s.dev.classify m).react 5 = true) (tile : srcTile m.source.toNat = true)
    (lit : s.dev.isDark m.source.toNat = false) : (s.keeperTake.dev.tile m.source.toNat).dark = true ∧
      (s.keeperTake.dev.tile m.source.toNat).excluded = true ∧ s.keeperTake.dev.evt.pend.getLsbD 79 = true ∧
      .tile m.source.toNat ∈ s.keeperTake.dev.keep.windows := by
  have later := State.keeperTake_untouched only noWindow clear
  have unit := ChangerStep.unitReacts (s.dev.acting m) (s.dev.classify m)
  have litNow : ((s.dev.acting m).pixelsReact (s.dev.classify m)).isDark m.source.toNat = false := by
    rw [Dev.isDark, (PixelStep.pixelsReact ..).dark, s.dev.acting_tile]
    exact lit
  have darkens : (s.dev.acting m).tileReacts (s.dev.classify m) = ((s.dev.acting m).pixelsReact (s.dev.classify m)).reactDark m := by
    rw [Dev.tileReacts, if_pos react, s.dev.classify_msg]
  obtain ⟨dark, excluded, raised, opened⟩ := Dev.reactDark_darkens tile litNow
  rw [← darkens] at dark excluded raised opened
  rw [later.tile]
  exact ⟨unit.dark _ dark, unit.excluded _ excluded, later.keeps 79 (unit.quiet.keeps 79 raised),
    later.windows _ (unit.windows _ opened)⟩

/-- GIVE_UP makes the active unit give up to its standby with cause KEEPER (R307). -/
theorem State.keeperTake_givesUp {u : UnitRef} (react : bit (s.dev.classify m).react 6 = true)
    (target : s.dev.giveUpTarget m = some u) (active : s.dev.chg.is u .active = true)
    (standby : s.dev.chg.is (unitPartner u) .standby = true) (again : (s.dev.chg.pair u).third (unitB u) s.dev.lampMs = false) :
    s.keeperTake.dev.chg.is u .selftest = true ∧ s.keeperTake.dev.chg.is (unitPartner u) .active = true ∧
      s.keeperTake.dev.chg.lastCause = 0x10 ∧ s.keeperTake.dev.chg.lastSource = unitSource u ∧
      s.keeperTake.dev.evt.pend.getLsbD 96 = true := by
  have later := State.keeperTake_untouched only noWindow clear
  have clocks := (s.dev.acting_clocks m).trans
    ((PixelStep.pixelsReact (s.dev.acting m) (s.dev.classify m)).clocks.trans (ChangerStep.tileReacts ..).clocks)
  have pair (v : UnitRef) : ((s.dev.acting m).tileReacts (s.dev.classify m)).chg.pair v = s.dev.chg.pair v := by
    rw [Dev.tileReacts_pair, s.dev.acting_chg]
  have gives : (s.dev.acting m).unitReacts (s.dev.classify m) = ((s.dev.acting m).tileReacts (s.dev.classify m)).reactGiveUp m := by
    rw [Dev.unitReacts, if_pos react, s.dev.classify_msg]
  rw [← Dev.giveUpTarget_congr pair clocks.now] at target
  rw [Chg.is, ← pair] at active standby
  rw [← pair, ← clocks.lampMs] at again
  obtain ⟨own, partner, cause, source, raised⟩ := Dev.reactGiveUp_takenOver target active standby again
  rw [later.chg, gives]
  exact ⟨own, partner, cause, source, later.keeps 96 (by rw [gives]; exact raised)⟩

/-- DIP is held at the severity of the message (R306, R325). -/
theorem State.keeperTake_dips (react : bit (s.dev.classify m).react 7 = true) :
    s.keeperTake.dev.keep.dip = s.dev.keep.dip ||| (1#4 <<< (s.dev.classify m).sev) ∧
      (s.dev.keep.dipHeld = false → s.keeperTake.dev.evt.pend.getLsbD 17 = true) := by
  have settled := State.keeperTake_settled only noWindow clear
  obtain ⟨dip, raised⟩ := Dev.react_dips (d := s.dev.acting m) react
  have same : s.keeperTake.dev.keep.dip = ((s.dev.acting m).react (s.dev.classify m)).keep.dip := by rw [settled.frame]
  rw [Keep.dipHeld, (s.dev.acting_clocks m).dip] at raised
  rw [same, dip, (s.dev.acting_clocks m).dip]
  exact ⟨rfl, fun free => settled.keeps 17 (raised free)⟩

/-- STANDALONE is held at the severity of the message (R306, R325). -/
theorem State.keeperTake_standsAlone (react : bit (s.dev.classify m).react 8 = true) :
    s.keeperTake.dev.keep.standalone = s.dev.keep.standalone ||| (1#4 <<< (s.dev.classify m).sev) ∧
      (s.dev.keep.standaloneHeld = false → s.keeperTake.dev.evt.pend.getLsbD 18 = true) := by
  have settled := State.keeperTake_settled only noWindow clear
  obtain ⟨alone, raised⟩ := Dev.react_standsAlone (d := s.dev.acting m) react
  have same : s.keeperTake.dev.keep.standalone = ((s.dev.acting m).react (s.dev.classify m)).keep.standalone := by
    rw [settled.frame]
  rw [Keep.standaloneHeld, (s.dev.acting_clocks m).standalone] at raised
  rw [same, alone, (s.dev.acting_clocks m).standalone]
  exact ⟨rfl, fun free => settled.keeps 18 (raised free)⟩

end

end Sys2Proof.Machine


namespace Sys2Proof.Machine

/-! ### The Keeper's own messages (R303, R322) -/

theorem Dev.classify_ownMessage (d : Dev) {m : Msg} (own : m.source = 0xFF) : d.classify m =
    { msg := m, sev := 3, react := 0x207, hardwired := true, defaulted := false, cause := if m.kind = 0x3D then 4 else 3 } := by
  have source : m.source.toNat = 0xFF := by
    rw [own]
    rfl
  have cause : (if m.kind.toNat = 0x3D then 4 else 3) = (if m.kind = 0x3D then 4 else 3 : Nat) :=
    if_congr (BitVec.toNat_inj (y := 0x3D)) rfl rfl
  unfold Dev.classify
  dsimp only
  rw [if_pos source, cause]

/-- The built-in defaults classify a message until the table is loaded (R302, R305). -/
theorem Dev.classify_default {d : Dev} {m : Msg} (unloaded : d.keep.tableLoaded = false) (other : m.source ≠ 0xFF)
    (kind : m.kind ≠ 0x11) : d.classify m =
      { msg := m, sev := m.sev.toNat, react := builtinReact m.sev.toNat, hardwired := false, defaulted := true, cause := 1 } := by
  have source : m.source.toNat ≠ 0xFF := fun h => other (BitVec.eq_of_toNat_eq h)
  have code : m.kind.toNat ≠ 0x11 := fun h => kind (BitVec.eq_of_toNat_eq h)
  unfold Dev.classify
  dsimp only
  rw [if_neg source, if_neg (fun h => code h.1), if_neg (fun h => code h.1), unloaded]
  rfl

theorem builtinReact_toNat (sev : BitVec 2) :
    builtinReact sev.toNat = (if sev = 0 then 0x001 else if sev = 3 then 0x207 else 0x007) := by
  revert sev
  decide

/-! ### The KEEP clock is lost and resumes (R16, R318, R448) -/

/-- The state when the KEEP clock runs again, before what has waited for it. -/
def State.clockResumes (s : State) : State :=
  (s.onLat (fun l => { l with safeCause := if l.safe && l.safeCause == 0 then 4 else l.safeCause })).onDev (fun d =>
    (d.onKeep (fun k => { k with clockLost := false, stood := k.stood + (d.now - k.lostAt) })).sendDirect 0xFF 0x3D 3 0)

/-- The blocks when no transaction waits any more. -/
def Dev.portEmptied (d : Dev) : Dev := d.onMgmt (fun m => { m with waiting := [] })

theorem exec_keepClockResume {s : State} (on : s.dev.pwr.keepDomain = true) (lost : s.dev.keep.clockLost = true) :
    exec .keepClockResume s = .next s.clockResumes.keepWake.portGo := by
  rw [show exec .keepClockResume s = execKeepClockResume s from rfl, execKeepClockResume, on, lost]
  rfl

/-- Nothing of the KEEP domain has waited: the transactions that have are carried out at once, in their order. -/
theorem exec_keepClockResume_idle {s : State} (on : s.dev.pwr.keepDomain = true) (lost : s.dev.keep.clockLost = true)
    (idle : s.dev.test.later = []) :
    exec .keepClockResume s = .next (s.dev.mgmt.waiting.foldl State.portDo (s.clockResumes.onDev Dev.portEmptied)) := by
  rw [exec_keepClockResume on lost, State.keepWake_idle (s := s.clockResumes) (.inl idle)]
  rfl

/-- The time for which the clock stood still is not counted (R318). -/
theorem Dev.keepSince_resumes {s : State} (lost : s.dev.keep.clockLost = true) :
    (s.clockResumes.onDev Dev.portEmptied).dev.keepSince = s.dev.keepSince := by
  unfold Dev.keepSince
  dsimp only
  rw [lost, if_pos rfl]
  exact (Nat.sub_sub ..).symm

/-- Work of the KEEP domain touches neither the port nor the work that waits. -/
structure LeavesQueues (s t : State) : Prop where
  mgmt : t.dev.mgmt = s.dev.mgmt
  later : t.dev.test.later = s.dev.test.later

namespace LeavesQueues

theorem trans {a b c : State} (h : LeavesQueues a b) (h' : LeavesQueues b c) : LeavesQueues a c :=
  ⟨h'.mgmt.trans h.mgmt, h'.later.trans h.later⟩

theorem perturb (s : State) (jtag : Bool) : LeavesQueues s (s.perturb jtag) := by
  unfold State.perturb
  split <;> exact ⟨rfl, rfl⟩

theorem injectGo (s : State) (head : BitVec 16) (addr : Word) : LeavesQueues s (s.injectGo head addr) := by
  refine trans ?_ (perturb _ false)
  rw [State.onDev]
  dsimp only
  rw [Dev.placeInjected_frame]
  exact ⟨rfl, rfl⟩

theorem drilled (s : State) : LeavesQueues s s.drilled := trans (b := s.onDev _) ⟨rfl, rfl⟩ (perturb _ false)

theorem onDev_changer {s : State} {f : Dev → Dev} (step : ChangerStep s.dev (f s.dev)) : LeavesQueues s (s.onDev f) := by
  have frame := step.frame
  exact ⟨(congrArg Dev.mgmt frame :), (congrArg (fun d => d.test.later) frame :)⟩

theorem drillGo (s : State) (u t : Nat) : LeavesQueues s (s.drillGo u t) := by
  unfold State.drillGo
  split
  · exact drilled s
  · split
    · exact ⟨rfl, rfl⟩
    · exact (onDev_changer (.giveUp ..)).trans (drilled _)

theorem keepAct (s : State) (g : KeepWork) : LeavesQueues s (s.keepAct g) := by
  cases g with
  | inject head addr => exact injectGo s head addr
  | drill u t => exact drillGo s u t
  | exclude t => exact onDev_changer (f := fun d => d.exclude t) (.exclude _ t)
  | tableLoaded => exact ⟨rfl, rfl⟩
  | tableAbandoned => exact ⟨rfl, rfl⟩

end LeavesQueues

/-- The one piece of work that has waited acts, and no transaction has. -/
theorem exec_keepClockResume_one {s : State} {g : KeepWork} (on : s.dev.pwr.keepDomain = true)
    (lost : s.dev.keep.clockLost = true) (waits : s.dev.test.later = [g]) (none : s.dev.mgmt.waiting = []) :
    exec .keepClockResume s =
      .next (((s.clockResumes.onDev (fun d => d.onTest (fun t => { t with later := [] }))).keepAct g).onDev Dev.portEmptied) := by
  have runs : s.clockResumes.dev.keeperRuns = true := by
    rw [Dev.keeperRuns, Bool.and_eq_true]
    exact ⟨on, rfl⟩
  have later : s.clockResumes.dev.test.later = [g] := waits
  have wakes : s.clockResumes.keepWake =
      (s.clockResumes.onDev (fun d => d.onTest (fun t => { t with later := [] }))).keepAct g := by
    rw [State.keepWake, runs, later]
    rfl
  have port := (LeavesQueues.keepAct (s.clockResumes.onDev (fun d => d.onTest (fun t => { t with later := [] }))) g).mgmt
  have empty : s.clockResumes.keepWake.dev.mgmt.waiting = [] := by
    rw [wakes, port]
    exact none
  rw [exec_keepClockResume on lost, State.portGo, empty, wakes]
  rfl

theorem Dev.exclude_raises {d : Dev} {t : Nat} (lit : (d.tile t).excluded = false) : (d.exclude t).evt.pend.getLsbD 16 = true := by
  rw [Dev.exclude, if_neg (by rw [lit]; decide)]
  exact Evt.raise_self _ 16 rfl

end Sys2Proof.Machine


namespace Sys2Proof.Machine

/-! ### Arrival (R300) -/

theorem Dev.keeperMessage_joins {d : Dev} {m : Msg} {rest : List Msg} (transit : d.keep.transit = m :: rest)
    (room : (d.keep.fifos.filter (fun x => x.source == m.source)).length < 4) :
    d.keeperMessage = { d with keep := { d.keep with transit := rest, fifos := d.keep.fifos ++ [m] } } := by
  unfold Dev.keeperMessage
  rw [transit]
  exact if_pos room

theorem Dev.keeperMessage_drops {d : Dev} {m : Msg} {rest : List Msg} (transit : d.keep.transit = m :: rest)
    (full : 4 ≤ (d.keep.fifos.filter (fun x => x.source == m.source)).length) :
    d.keeperMessage = { d with
      keep := { d.keep with transit := rest, dropped := Nat.min 255 (d.keep.dropped + 1) }, evt := d.evt.raise 14 } := by
  unfold Dev.keeperMessage
  rw [transit, ← satInc_eq_min]
  exact if_neg (Nat.not_lt.mpr full)

end Sys2Proof.Machine

namespace Sys2Proof.Proofs

open Sys2Proof Sys2Proof.Machine Sys2Proof.Claims

/-! ### The Keeper's commands while its clock runs, and while it stands still -/

theorem exec_keeper_stands {s : State} (stands : s.dev.keeperRuns = false) :
    exec .keeperMessage s = .next s ∧ exec .keeperTake s = .next s ∧ exec .consequenceWindowClose s = .next s ∧
      exec .keeperRegisterCheck s = .next s ∧ ∀ a, exec (.keeperParity a) s = .next s := by
  have off : ¬ s.dev.keeperRuns = true := by
    rw [stands]
    decide
  have checks : s.onDev (fun d => if d.keeperRuns then d.onKeep (fun k => { k with unchecked := false }) else d) = s :=
    congrArg (fun d => ({ s with dev := d } : State)) (if_neg off)
  exact ⟨congrArg _ (if_neg off), congrArg _ (if_neg off), congrArg _ (if_neg off), congrArg _ checks,
    fun a => congrArg _ (if_neg off)⟩

section
variable {s : State} (runs : s.dev.keeperRuns = true)
include runs

theorem exec_keeperTake : exec .keeperTake s = .next s.keeperTake := congrArg _ (if_pos runs)

theorem exec_keeperMessage : exec .keeperMessage s = .next (s.onDev Dev.keeperMessage) := congrArg _ (if_pos runs)

theorem exec_keeperRegisterCheck :
    exec .keeperRegisterCheck s = .next (s.onDev (fun d => d.onKeep (fun k => { k with unchecked := false }))) :=
  congrArg (fun d => Host.Outcome.next ({ s with dev := d } : State)) (if_pos runs)

/-- A message joins its source's FIFO, or is dropped and counted (R300). -/
theorem keeperMessage_arrives {m : Msg} {rest : List Msg} (transit : s.dev.keep.transit = m :: rest) :
    ((s.dev.keep.fifos.filter (fun x => x.source == m.source)).length < 4 → Next .keeperMessage s (fun t => SameStore s t ∧
      t.dev = { s.dev with keep := { s.dev.keep with transit := rest, fifos := s.dev.keep.fifos ++ [m] } })) ∧
    (4 ≤ (s.dev.keep.fifos.filter (fun x => x.source == m.source)).length → Next .keeperMessage s (fun t => SameStore s t ∧
      Raises s t [14] ∧ t.dev = { s.dev with
        keep := { s.dev.keep with transit := rest, dropped := Nat.min 255 (s.dev.keep.dropped + 1) }, evt := t.dev.evt })) :=
  ⟨fun room => next_onDev (exec_keeperMessage runs) (Dev.keeperMessage_joins transit room) rfl,
    fun full => next_onDev (exec_keeperMessage runs) (Dev.keeperMessage_drops transit full) ⟨raises_one rfl rfl, rfl⟩⟩

/-- The Keeper's own messages set SAFE, whatever windows stand open (R303, R322). -/
theorem keeperTake_ownMessage {m : Msg} (fifos : s.dev.keep.fifos = []) (direct : s.dev.keep.direct = [m])
    (own : m.source = 0xFF) (clear : s.lat.safe = false) :
    Next .keeperTake s (fun t => t.mem = s.mem ∧ t.otp = s.otp ∧ t.cells = s.cells ∧
      t.lat = { s.lat with safe := true, safeCause := if m.kind = 0x3D then 4 else 3 } ∧ Pends t 11) := by
  have only : s.dev.keep.holdsOnly m := .inr ⟨fifos, direct⟩
  have stores := SameStores.keeperTake s
  have cls := s.dev.classify_ownMessage own
  have react : bit 0x207 9 = true := by decide
  obtain ⟨lat, raised⟩ := State.keeperTake_setsSafe only (by rw [cls]; rfl) (by rw [cls]; exact react) clear
  refine ⟨_, exec_keeperTake runs, stores.mem, stores.otp, stores.cells, ?_, raised⟩
  rw [lat, cls]
  exact congrArg (fun c => ({ s.lat with safe := true, safeCause := c } : Latches)) (apply_ite (BitVec.ofNat 3) _ 4 3)

end

/-- The loss of the KEEP clock sets SAFE with cause 0 (R318). -/
theorem keepClockLoss_setsSafe {s : State} (on : s.dev.pwr.keepDomain = true) (ran : s.dev.keep.clockLost = false)
    (clear : s.lat.safe = false) : Next .keepClockLoss s (fun t =>
      t.mem = s.mem ∧ t.otp = s.otp ∧ t.cells = s.cells ∧ t.lat = { s.lat with safe := true, safeCause := 0 } ∧ Pends t 11 ∧
      t.dev.keep.clockLost = true ∧ t.dev.keep.lostAt = s.dev.now) := by
  have run : exec .keepClockLoss s = .next
      ((s.setSafe 0).onDev (fun d => d.onKeep (fun k => { k with clockLost := true, lostAt := d.now }))) := by
    rw [show exec .keepClockLoss s = execKeepClockLoss s from rfl, execKeepClockLoss, on, ran]
    rfl
  rw [State.setSafe_enters clear] at run
  have now : s.dev.enterSafe.now = s.dev.now := by rw [(SafeStep.enterSafe s.dev).frame]
  exact ⟨_, run, rfl, rfl, rfl, rfl, s.dev.enterSafe_raises, rfl, now⟩

/-! ### What the return of the clock does (R16, R318, R448) -/

/-- The write of the history selector that has waited is carried out (R323, R448). -/
theorem keepClockResume_writes {s : State} {i : BitVec 4} {crc : Byte} (on : s.dev.pwr.keepDomain = true)
    (lost : s.dev.keep.clockLost = true) (idle : s.dev.test.later = [])
    (waits : s.dev.mgmt.waiting = [.write 0x0814 (i.setWidth 32) crc])
    (crcOk : crc = s.dev.mgmt.writeCrc 0x0814 (i.setWidth 32)) (judged : s.judge 0x0814 true (i.setWidth 32) = 0) :
    Next .keepClockResume s (fun t => t.dev.mgmt.waiting = [] ∧ t.dev.mgmt.lastWAddr = 0x0814 ∧ t.dev.mgmt.lastWStatus = 0 ∧
      t.dev.keep.histSel = i.toNat ∧ t.dev.keep.histView = s.dev.keep.hist[i.toNat]?) := by
  have index : bits (i.setWidth 32 : Word).toNat 0 4 = i.toNat := by
    rw [BitVec.toNat_setWidth_of_le (by decide), bits_of_lt i.isLt]
  have judgedNow : (s.clockResumes.onDev Dev.portEmptied).judge (0x0814 : BitVec 16).toNat true (i.setWidth 32) = 0 := judged
  have crcNow : crc = (s.clockResumes.onDev Dev.portEmptied).dev.mgmt.writeCrc 0x0814 (i.setWidth 32) := crcOk
  have writes : (s.clockResumes.onDev Dev.portEmptied).portDo (.write 0x0814 (i.setWidth 32) crc) =
      (written (s.clockResumes.onDev Dev.portEmptied) 0x0814).onDev (fun d => d.histSelect i.toNat) := by
    rw [State.portDo, State.writeNow, if_pos crcNow, State.writeJudged, judgedNow]
    exact congrArg (fun n => (written (s.clockResumes.onDev Dev.portEmptied) 0x0814).onDev (fun d => d.histSelect n)) index
  refine ⟨_, exec_keepClockResume_idle on lost idle, ?_⟩
  rw [waits, List.foldl_cons, List.foldl_nil, writes]
  exact ⟨rfl, rfl, rfl, rfl, rfl⟩

/-- The work that has waited acts (R16, R319, R394). -/
theorem keepClockResume_works {s : State} {g : KeepWork} (on : s.dev.pwr.keepDomain = true)
    (lost : s.dev.keep.clockLost = true) (waits : s.dev.test.later = [g]) (none : s.dev.mgmt.waiting = []) :
    Next .keepClockResume s (fun t => t.dev.test.later = [] ∧
      (∀ x, g = .exclude x → (t.dev.tile x).excluded = true ∧ ((s.dev.tile x).excluded = false → Pends t 16)) ∧
      (g = .tableLoaded → t.dev.keep.tableLoaded = true) ∧
      (g = .tableAbandoned → t.dev.keep.tableLoaded = false ∧ t.dev.keep.windows = [] ∧ t.dev.keep.dip = 0 ∧
        t.dev.keep.standalone = 0 ∧ t.dev.keep.hist = s.dev.keep.hist)) := by
  refine ⟨_, exec_keepClockResume_one on lost waits none, (LeavesQueues.keepAct _ g).later, ?_, ?_, ?_⟩
  · rintro x rfl
    exact ⟨congrArg Tile.excluded (Dev.exclude_tile ..), fun fresh => Dev.exclude_raises fresh⟩
  · rintro rfl
    rfl
  · rintro rfl
    exact ⟨rfl, rfl, rfl, rfl, rfl⟩

/-- The latch takes cause 4 where the clock's loss has set it, and the transactions that have waited follow in their order (R318,
R448). -/
theorem keepClockResume_resumes {s : State} (on : s.dev.pwr.keepDomain = true) (lost : s.dev.keep.clockLost = true)
    (idle : s.dev.test.later = []) : Next .keepClockResume s (fun t =>
      ∃ u : State, t = s.dev.mgmt.waiting.foldl State.portDo u ∧
      u.mem = s.mem ∧ u.otp = s.otp ∧ u.cells = s.cells ∧ u.lat.safe = s.lat.safe ∧
      u.lat = { s.lat with safeCause := u.lat.safeCause } ∧
      u.lat.safeCause = (if s.lat.safe = true ∧ s.lat.safeCause = 0 then 4 else s.lat.safeCause) ∧
      u.dev.keepSince = s.dev.keepSince ∧
      u.dev = { s.dev with
        mgmt := { s.dev.mgmt with waiting := [] }
        keep := { s.dev.keep with
          clockLost := false, stood := u.dev.keep.stood, direct := s.dev.keep.direct ++ [mkMsg 0xFF 0x3D 3 0] } }) := by
  refine ⟨_, exec_keepClockResume_idle on lost idle, _, rfl, rfl, rfl, rfl, rfl, rfl, ?_, Dev.keepSince_resumes lost, rfl⟩
  exact if_congr (by rw [Bool.and_eq_true, beq_iff_eq]) rfl rfl

end Sys2Proof.Proofs


namespace Sys2Proof.Proofs

open Sys2Proof Sys2Proof.Machine Sys2Proof.Claims

/-- Settles O58: a take of one message is a chain of steps, each with the relation of what it reaches, and every clause about it reads off
the step that acts; the other commands are carried out as written. -/
theorem keeperHandlesMessages : Obligations.KeeperHandlesMessages := by
  refine fun s => ⟨exec_keeper_stands, fun m rest runs => keeperMessage_arrives runs, fun m runs fifos direct => ?takes,
    fun m runs fifos direct noWindow clear => ?reacts, fun m unloaded other kind => ?defaults,
    fun m runs fifos direct => keeperTake_ownMessage runs fifos direct,
    fun runs => next_onDev (congrArg _ (if_pos runs)) rfl rfl, fun a runs => next_onDev (congrArg _ (if_pos runs)) rfl ⟨rfl, rfl⟩,
    keepClockLoss_setsSafe, fun i crc => keepClockResume_writes, fun g => keepClockResume_works, keepClockResume_resumes,
    fun runs => next_onDev (exec_keeperRegisterCheck runs) rfl rfl⟩
  case takes =>
    have only : s.dev.keep.holdsOnly m := .inl ⟨fifos, direct⟩
    have noConsequence (noWindow : s.dev.keep.windows = []) : (s.dev.classify m).isConsequence s.dev.keep.windows = false := by
      rw [noWindow]
      exact Class.isConsequence_nil _
    have stores := SameStores.keeperTake s
    obtain ⟨emptied, newest, received⟩ := State.keeperTake_logs only
    refine ⟨_, exec_keeperTake runs, stores.mem, stores.otp, stores.cells, emptied, newest, received,
      fun noWindow => State.keeperTake_attn only (noConsequence noWindow),
      fun noWindow => State.keeperTake_setsSafe only (noConsequence noWindow), fun quiet => ?_, fun w opened covers sev soft => ?_⟩
    · obtain ⟨lat, events⟩ := State.keeperTake_quiet only quiet
      exact ⟨lat, Bool.eq_iff_iff.mp events.noSafe⟩
    · refine State.keeperTake_consequence only ?_
      rw [Class.isConsequence, s.dev.classify_msg, List.any_eq_true.mpr ⟨w, opened, covers⟩, soft, bne_iff_ne.mpr sev]
      rfl
  case reacts =>
    have only : s.dev.keep.holdsOnly m := .inl ⟨fifos, direct⟩
    refine ⟨_, exec_keeperTake runs, ?isolates, fun react kind p q v => State.keeperTake_ties only noWindow clear react kind,
      State.keeperTake_darkens only noWindow clear, fun react u => State.keeperTake_givesUp only noWindow clear react,
      State.keeperTake_dips only noWindow clear, State.keeperTake_standsAlone only noWindow clear⟩
    rintro react p rfl inside own tile kind fresh
    exact State.keeperTake_isolates only noWindow clear react kind tile inside own fresh
  case defaults =>
    rw [Dev.classify_default unloaded other kind]
    exact ⟨rfl, builtinReact_toNat m.sev⟩

end Sys2Proof.Proofs
